-- ==== Sys2Proof/Word.lean ====
section
/-! DEFINITION. The word types of the part, and the fixed collections of four and of eight like things
(stations and lanes; foil channels and position-ring entries). -/

namespace Sys2Proof

/-- One byte of the memory window. -/
abbrev Byte := BitVec 8

/-- A 32-bit word of the window: a row number, a register value, a host page word. -/
abbrev Word := BitVec 32

/-- A web position in ticks, wrapping modulo 2^32 (overview 4.2). -/
abbrev Pos := BitVec 32

/-- An accumulator with a 32-bit integer part above a 16-bit fraction (R3, R13). -/
abbrev Accumulator := BitVec 48

/-- Four like things: one for each station, or one for each lane (overview 4.5). -/
structure Four (α : Type) where
  /-- The thing numbered 0. -/
  a0 : α
  /-- The thing numbered 1. -/
  a1 : α
  /-- The thing numbered 2. -/
  a2 : α
  /-- The thing numbered 3. -/
  a3 : α
  deriving DecidableEq, Repr

/-- Eight like things: one for each foil channel, or one for each entry of the position ring. -/
structure Eight (α : Type) where
  /-- The thing numbered 0. -/
  a0 : α
  /-- The thing numbered 1. -/
  a1 : α
  /-- The thing numbered 2. -/
  a2 : α
  /-- The thing numbered 3. -/
  a3 : α
  /-- The thing numbered 4. -/
  a4 : α
  /-- The thing numbered 5. -/
  a5 : α
  /-- The thing numbered 6. -/
  a6 : α
  /-- The thing numbered 7. -/
  a7 : α
  deriving DecidableEq, Repr

/-- Four copies of one thing. -/
def Four.all {α : Type} (x : α) : Four α := ⟨x, x, x, x⟩

/-- The thing numbered `i`. -/
def Four.get {α : Type} (f : Four α) (i : Fin 4) : α :=
  match i with
  | 0 => f.a0
  | 1 => f.a1
  | 2 => f.a2
  | 3 => f.a3

/-- The thing numbered `i` replaced. -/
def Four.set {α : Type} (f : Four α) (i : Fin 4) (x : α) : Four α :=
  match i with
  | 0 => { f with a0 := x }
  | 1 => { f with a1 := x }
  | 2 => { f with a2 := x }
  | 3 => { f with a3 := x }

/-- The four in number order. -/
def Four.toList {α : Type} (f : Four α) : List α := [f.a0, f.a1, f.a2, f.a3]

/-- Each of the four passed through `g`, with its number. -/
def Four.mapIdx {α β : Type} (g : Fin 4 → α → β) (f : Four α) : Four β :=
  ⟨g 0 f.a0, g 1 f.a1, g 2 f.a2, g 3 f.a3⟩

/-- Eight copies of one thing. -/
def Eight.all {α : Type} (x : α) : Eight α := ⟨x, x, x, x, x, x, x, x⟩

/-- The thing numbered `i`. -/
def Eight.get {α : Type} (f : Eight α) (i : Fin 8) : α :=
  match i with
  | 0 => f.a0
  | 1 => f.a1
  | 2 => f.a2
  | 3 => f.a3
  | 4 => f.a4
  | 5 => f.a5
  | 6 => f.a6
  | 7 => f.a7

/-- The thing numbered `i` replaced. -/
def Eight.set {α : Type} (f : Eight α) (i : Fin 8) (x : α) : Eight α :=
  match i with
  | 0 => { f with a0 := x }
  | 1 => { f with a1 := x }
  | 2 => { f with a2 := x }
  | 3 => { f with a3 := x }
  | 4 => { f with a4 := x }
  | 5 => { f with a5 := x }
  | 6 => { f with a6 := x }
  | 7 => { f with a7 := x }

/-- The eight in number order. -/
def Eight.toList {α : Type} (f : Eight α) : List α :=
  [f.a0, f.a1, f.a2, f.a3, f.a4, f.a5, f.a6, f.a7]

/-- Each of the eight passed through `g`, with its number. -/
def Eight.mapIdx {α β : Type} (g : Fin 8 → α → β) (f : Eight α) : Eight β :=
  ⟨g 0 f.a0, g 1 f.a1, g 2 f.a2, g 3 f.a3, g 4 f.a4, g 5 f.a5, g 6 f.a6, g 7 f.a7⟩

end Sys2Proof
end

