-- ==== Sys2Proof/Syntax.lean ====
section
/-! DEFINITION. The part's steps, one constructor per row of the table of operations and events
(`spec/opcode_table.json`), each with the operands the step arrives with. A row's meaning is in
`Sys2Proof/Machine`; here stands only what is sent. -/

namespace Sys2Proof

/-- One of the twelve step generators (section 1.6): one per station, one per foil channel. -/
inductive GenId where
  /-- The cylinder generator of a station. -/
  | cylinder (st : Fin 4)
  /-- The foil generator of a foil channel. -/
  | foil (c : Fin 8)
  deriving DecidableEq, Repr

/-- The fields of the function's PCIe configuration space that bear on attention (R185). R185 gives the message
address and data no widths: 64 and 16 bits are PRESUMED, from the MSI capability of PCI Express (log entry 38). -/
structure PciConfig where
  /-- MSI enable. -/
  msiEnable : Bool
  /-- Bus-master enable. -/
  busMaster : Bool
  /-- Interrupt disable. -/
  intDisable : Bool
  /-- The message address programmed in the MSI capability. -/
  msiAddress : BitVec 64
  /-- The message data programmed in the MSI capability. -/
  msiData : BitVec 16
  deriving DecidableEq, Repr

/-- The steps of the part. Events of the mechanism carry what the part samples, writes of the line
controller carry the bytes or the word written, and the part's own events name the block they fall at. -/
inductive Instr where
  /-- POWER_ON_RESET (R167): power is applied. `decayed` lists the stored bytes of the plate store that
  have decayed without power: slot, offset in the record, and the value the byte holds instead; the list
  is empty, which is its default, where every record is as it was. -/
  | powerOnReset (decayed : List (Nat × Nat × Byte) := [])
  /-- LINK_RESET (R168): a link reset, hot reset or function-level reset. -/
  | linkReset
  /-- ENCODER_COUNT (R1): the encoder lines A and B as sampled. -/
  | encoderCount (a b : Bool)
  /-- ENCODER_FAULT (R2): the encoder lines A and B as sampled. -/
  | encoderFault (a b : Bool)
  /-- TIMEBASE_EXPIRY (R9): an expiry of the 1 ms timebase, with the four heater-ready inputs as
  sampled at it (R75). -/
  | timebaseExpiry (heaters : Four Bool)
  /-- LIFT_EVENT (R94) of a station. -/
  | liftEvent (st : Fin 4)
  /-- THROW_TRAVEL_COMPLETE (R89) of a station. -/
  | throwTravelComplete (st : Fin 4)
  /-- STEP_EMIT (R14): a generator's turn to emit, so many ns after the output's previous step. -/
  | stepEmit (g : GenId) (sinceNs : Nat)
  /-- MARK_EDGE (R19): an accepted change of a mark input to `level`, with the web position at the
  first of the samples that were accepted. -/
  | markEdge (lane : Fin 4) (level : Bool) (position : Pos)
  /-- COMMIT_EVENT (R81) at a station. -/
  | commitEvent (st : Fin 4)
  /-- RETIREMENT_EVENT (R35) of the head row. -/
  | retirementEvent
  /-- INDEX_EDGE (R57): an accepted change of an index input to `level`, with the web position at
  the first of the samples that were accepted. -/
  | indexEdge (st : Fin 4) (level : Bool) (position : Pos)
  /-- HEAT_LOSS_EVENT (R78) of a station. -/
  | heatLossEvent (st : Fin 4)
  /-- HEAT_READY_EVENT (R79) of a station. -/
  | heatReadyEvent (st : Fin 4)
  /-- LOAD_JOB (R137): CMD written with code 0x01 and PEND set. -/
  | loadJob (arg : BitVec 16)
  /-- LOAD_JOB_COMPLETE (R137): the validation under way ends. -/
  | loadJobComplete
  /-- START_RUN (R144): CMD written with code 0x02 and PEND set. -/
  | startRun (arg : BitVec 16)
  /-- END_RUN (R146): CMD written with code 0x03 and PEND set. -/
  | endRun (arg : BitVec 16)
  /-- HOLD_RUN (R148): CMD written with code 0x04 and PEND set. -/
  | holdRun (arg : BitVec 16)
  /-- RESUME_RUN (R151): CMD written with code 0x05 and PEND set. -/
  | resumeRun (arg : BitVec 16)
  /-- REARM_STATION (R69): CMD written with code 0x06 and PEND set; the argument names a station. -/
  | rearmStation (arg : BitVec 16)
  /-- REFILL_FOIL (R127): CMD written with code 0x07 and PEND set; the argument names a channel. -/
  | refillFoil (arg : BitVec 16)
  /-- PLATE_SAVE (R162): CMD written with code 0x08 and PEND set; the argument names a slot. -/
  | plateSave (arg : BitVec 16)
  /-- PLATE_SAVE_COMPLETE (R164): the program cycle under way ends. `misread` lists the bytes of the
  slot that did not take the working copy's value, each with the value it holds instead; the list
  is empty where the store programmed the slot as asked. -/
  | plateSaveComplete (misread : List (Nat × Byte))
  /-- PLATE_READ (R165): CMD written with code 0x09 and PEND set; the argument names a slot. -/
  | plateRead (arg : BitVec 16)
  /-- ACK_STOP (R155): CMD written with code 0x0A and PEND set. -/
  | ackStop (arg : BitVec 16)
  /-- UNKNOWN_COMMAND (R181): CMD written with a code that names no command and PEND set. -/
  | unknownCommand (code : BitVec 8) (arg : BitVec 16)
  /-- CMD_WITHDRAW (R178): CMD written with PEND clear. -/
  | cmdWithdraw (value : Word)
  /-- ATTN_WRITE (R183): a 4-byte write to ATTN. -/
  | attnWrite (value : Word)
  /-- ATTN_ENABLE_WRITE (R184): a 4-byte write to ATTN_ENABLE. -/
  | attnEnableWrite (value : Word)
  /-- REGISTER_WRITE_IGNORED (R172): a write into the register page that acts on no register. -/
  | registerWriteIgnored (offset : Nat) (bytes : List Byte)
  /-- EXCHANGE_MEMORY_WRITE (R171): a line controller write that begins in exchange memory; one that is
  not aligned may run on into the register page. -/
  | exchangeMemoryWrite (offset : Nat) (bytes : List Byte)
  /-- CONFIG_SPACE_WRITE (R185): the configuration space fields as they stand after the write. -/
  | configSpaceWrite (config : PciConfig)
  /-- CMD_PEND_WRITE (R178): CMD written with PEND set, whatever the code. -/
  | cmdPendWrite (value : Word)
  deriving DecidableEq, Repr

end Sys2Proof
end

