-- ==== Sys2Proof/Machine/Bits.lean ====
section
/-! DEFINITION. Positions and distances, rounding, and the byte order and field packing of the window. -/

namespace Sys2Proof.Machine

/-- The distance from `b` to `a`: their difference modulo 2^32 read as signed (R6). -/
def dist (b a : BitVec 32) : Int := (a - b).toInt

/-- `a` is at or beyond `b` (R6). -/
def atOrBeyond (a b : BitVec 32) : Bool := 0 ≤ dist b a

/-- `a` is behind `b` (R6). -/
def behind (a b : BitVec 32) : Bool := dist b a < 0

/-- The position `k` ticks from `a`. -/
def moved (a : Pos) (k : Int) : Pos := a + BitVec.ofInt 32 k

/-- A web that goes from `w` to `w'` while a watched position goes from `x` to `x'` reaches it: it was
behind it and is now at or beyond it (R5, R62). -/
def reaches (w x w' x' : Pos) : Bool := behind w x && atOrBeyond w' x'

/-- `d` reduced by whole `p`s into (−p/2, p/2] (R54, R59, R63). -/
def reduceBy (d : Int) (p : Nat) : Int :=
  let r := d % (p : Int)
  if (p : Int) < 2 * r then r - p else r

/-- `a / b` rounded up. -/
def ceilDiv (a b : Nat) : Nat := (a + b - 1) / b

/-- `a / b` rounded to the nearest integer, halves going up (overview 4.1). -/
def roundHalfUp (a b : Nat) : Nat := (2 * a + b) / (2 * b)

/-- `x` limited to the range from `lo` to `hi`. -/
def clampInt (lo hi x : Int) : Int := max lo (min hi x)

/-- `x` raised by one, held at `top` (the saturating counts of R23, R119, R120, R123). -/
def satSucc (top x : Nat) : Nat := min top (x + 1)

/-- The `n` low bytes of `v`, least significant first (R198). -/
def leBytes : Nat → Nat → List Byte
  | 0, _ => []
  | n + 1, v => BitVec.ofNat 8 v :: leBytes n (v / 256)

/-- The unsigned value of bytes held least significant first (R198). -/
def ofLeBytes : List Byte → Nat
  | [] => 0
  | b :: bs => b.toNat + 256 * ofLeBytes bs

/-- `x` in two's complement of `bits` bits (R198). -/
def twos (bits : Nat) (x : Int) : Nat := (x % (2 ^ bits : Int)).toNat

/-- The signed value of the `bits`-bit pattern `v` (R198). -/
def ofTwos (bits v : Nat) : Int := if 2 ^ (bits - 1) ≤ v then (v : Int) - 2 ^ bits else v

/-- `x` saturated to a signed field of `bits` bits and encoded (R198, R205). -/
def satField (bits : Nat) (x : Int) : Nat :=
  twos bits (clampInt (-(2 ^ (bits - 1))) (2 ^ (bits - 1) - 1) x)

/-- A flag as the part writes it (R198). -/
def flagBit (b : Bool) : Nat := if b then 1 else 0

/-- The `i`-th entry of four, by a number that may be out of range. -/
def fin4 (n : Nat) : Option (Fin 4) := if h : n < 4 then some ⟨n, h⟩ else none

/-- The `i`-th entry of eight, by a number that may be out of range. -/
def fin8 (n : Nat) : Option (Fin 8) := if h : n < 8 then some ⟨n, h⟩ else none

/-- The successor of a row number, which skips 0 (R27). -/
def rowSucc (n : Word) : Word := if n + 1 = 0 then 1 else n + 1

end Sys2Proof.Machine
end

