-- ==== Sys2Proof/Config.lean ====
section
/-! DEFINITION. The one value the manual leaves open for the machine to choose, as a free value: a
constant with no body. What the manual fixes (capacities, offsets, codes) stands in
`Sys2Proof/Machine/Layout.lean`. -/

namespace Sys2Proof.Config

/-- What a plate slot is left holding at byte `offset` by the `count`-th program cycle that a reset cut
short (R168: "a record being programmed is left as the cycle left it"). A free value: nothing is known
of it. -/
opaque cutByte (count offset : Nat) : Byte

end Sys2Proof.Config
end

