-- ==== Sys2Proof/Machine/Layout.lean ====
section
/-! DEFINITION. What the manual fixes for the part: its capacities and the places of the window. -/

namespace Sys2Proof.Machine

/-- Row contexts the row track can hold (R32). -/
def trackCapacity : Nat := 32

/-- Strokes a channel's pending stroke list can hold (R108). -/
def strokeCapacity : Nat := 24

/-- Bytes of exchange memory (R171). -/
def exchangeBytes : Nat := 0x8000

/-- Bytes of the whole memory window (chapter 9). -/
def windowBytes : Nat := 0x10000

/-- Plate slots of the store (R158). -/
def plateSlots : Nat := 16

/-- Bytes of a plate record (R158). -/
def plateBytes : Nat := 512

/-- The value PART_ID holds (R173). -/
def partId : Word := 0x48200100

/-- The largest ramp length (R112). -/
def maxRamp : Nat := 262142

/-- Steps per second of one output at most (R14). -/
def stepRate : Nat := 4000000

/-- Least distance in ns between two steps of one output (R14). -/
def stepGapNs : Nat := 250

/-- Consecutive expiries at which a heater-ready level must be sampled to be accepted (R75). -/
def heaterSamples : Nat := 4

/-- Offset of the host page word "records taken through" (R200). -/
def takenThroughOffset : Nat := 0x0100

/-- Offset of the host page word "first row" (R200). -/
def firstRowOffset : Nat := 0x0104

/-- Offset of the host page word "refill length" (R200). -/
def refillLengthOffset : Nat := 0x0108

/-- Offset of the job check report (R202). -/
def reportOffset : Nat := 0x0200

/-- Offset of the plate fault (R202). -/
def plateFaultOffset : Nat := 0x0300

/-- Offset of the verdict strip (R42). -/
def verdictOffset : Nat := 0x0400

/-- Offset of the job staging area (section 7.1). -/
def jobOffset : Nat := 0x0C00

/-- Offset of the plate staging area (chapter 8). -/
def plateOffset : Nat := 0x1400

/-- Offset of the record strip (section 10.1). -/
def recordOffset : Nat := 0x4000

end Sys2Proof.Machine
end

