-- ==== Sys2Proof/Machine/State.lean ====
section
/-! DEFINITION. The state of the part as plain data, the reasons a step can stop, the state right after
power-on reset, and one named update per field. -/

namespace Sys2Proof.Machine

/-! ## Memory -/

/-- Bytes by address: addresses strictly rising, no byte 0. An address not listed reads 0, since every
byte of exchange memory is 0 after either kind of reset (R186). -/
abbrev Memory := List Host.Cell

/-! ## Codes -/

/-- The direction of last movement (R1). -/
inductive Direction where
  | forward
  | reverse
  deriving DecidableEq, Repr

/-- The run states (section 7.4). -/
inductive RunState where
  | idle
  | armed
  | running
  | draining
  | held
  deriving DecidableEq, Repr

/-- The hold causes (R148), and NONE. -/
inductive HoldCause where
  | none
  | host
  | reverse
  | encoder
  | trackFull
  deriving DecidableEq, Repr

/-- The stop causes (R152). -/
inductive StopCause where
  | host
  | reverse
  | encoder
  | trackFull
  | regLost
  | stationFault
  | stationHeat
  | spliceRisk
  | overspeed
  | foilOut
  deriving DecidableEq, Repr

/-- The attention causes (section 9.7). -/
inductive AttnCause where
  | cmdDone
  | tally
  | recordLapped
  | verdictDefaulted
  | regLost
  | regFound
  | regCaught
  | regDrift
  | stationFault
  | stationHeat
  | stationLift
  | spliceRisk
  | foilLow
  | foilOut
  | foilLate
  | runHeld
  | runIdle
  | overspeed
  deriving DecidableEq, Repr

/-- The station states (section 5.3). -/
inductive StationState where
  | inactive
  | heatWait
  | catching
  | tracking
  | lifted
  | faulted
  deriving DecidableEq, Repr

/-- The throw states (R89). -/
inductive Throw where
  | off
  | closing
  | on
  | opening
  deriving DecidableEq, Repr

/-- The channel states (R104). -/
inductive ChannelState where
  | idle
  | standing
  | rampUp
  | sync
  | rampDown
  deriving DecidableEq, Repr

/-- The mark statuses of a row (chapter 2). -/
inductive MarkStatus where
  | first
  | found
  | missing
  | recaptured
  deriving DecidableEq, Repr

/-- The verdicts (R41). -/
inductive Verdict where
  | stamp
  | skip
  | splice
  deriving DecidableEq, Repr

/-- Where a row's verdict came from (R44). -/
inductive Source where
  | strip
  | absent
  | early
  | stale
  | bad
  deriving DecidableEq, Repr

/-- The outcomes a station gives a row (section 5.5). -/
inductive RowOutcome where
  | struck
  | struckLate
  | struckUnskipped
  | skipped
  | spliceCleared
  | spliceRisk
  | sacrificed
  | catching
  | heatWait
  | lifted
  | faulted
  | abandoned
  deriving DecidableEq, Repr

/-- The result of a lane for one row (R31). -/
inductive LaneEntry where
  | absent
  | leading
  | found (error : Int)
  | missing
  deriving DecidableEq, Repr

/-- The results of a command (R180). -/
inductive CmdResult where
  | none
  | ok
  | unchanged
  | badCode
  | badState
  | badArg
  | noJob
  | jobInvalid
  | plateInUse
  | badPlate
  | plateBlank
  | storeFault
  | stopPersists
  deriving DecidableEq, Repr

/-- The state field of CMD_STATUS (R199). -/
inductive CmdPhase where
  | idle
  | executing
  | done
  deriving DecidableEq, Repr

/-- The types of a station (R74). -/
inductive StationType where
  | none
  | foil
  | emboss
  | foilEmboss
  deriving DecidableEq, Repr

/-! ## Jobs and plates -/

/-- The foil parameters (R103). -/
structure FoilParams where
  lead : Nat
  trail : Nat
  dmin : Nat
  accel : Nat
  minRamp : Nat
  fs : Nat
  threshold : Nat
  deriving DecidableEq, Repr

/-- A station block of a job record (R134), code fields as encoded. -/
structure StationBlock where
  typeCode : Nat
  plateSlot : Nat
  throwOn : Nat
  throwOff : Nat
  distance : Nat
  steps : Nat
  indexOffset : Int
  guard : Nat
  deadBand : Nat
  trimStep : Nat
  catchStep : Nat
  catchBand : Nat
  slipTol : Nat
  foil : FoilParams
  deriving DecidableEq, Repr

/-- A channel block of a job record (R135), code fields as encoded. -/
structure ChannelBlock where
  useCode : Nat
  station : Nat
  lane : Nat
  override : Nat
  own : FoilParams
  deriving DecidableEq, Repr

/-- A job record (R133, R203), code fields as encoded. The list of plate slots a job references is a
function of its station blocks (R136). -/
structure Job where
  tag : Word
  laneSet : Nat
  leadingLane : Nat
  missingLimit : Nat
  defaultVerdict : Nat
  laneOffsets : Four Int
  window : Nat
  headroom : Nat
  tallyCode : Nat
  scaleQ : Nat
  reverseTol : Nat
  v8Max : Nat
  crawl : Nat
  resume : Nat
  dwellLimit : Nat
  stopSelection : Nat
  stations : Four StationBlock
  channels : Eight ChannelBlock
  deriving DecidableEq, Repr

/-- An image of a plate lane: start offset and length in ticks (R159). -/
structure Image where
  start : Nat
  len : Nat
  deriving DecidableEq, Repr

/-- What a job uses of a plate record (R159). -/
structure Plate where
  pitch : Nat
  faces : Nat
  laneCount : Nat
  images : Four (List Image)
  deriving DecidableEq, Repr

/-- The content of CURRENT: a job, and for each of its active stations the copy of the plate it
references, as START_RUN read it (R136). -/
structure Current where
  job : Job
  plates : Four (Option Plate)
  deriving DecidableEq, Repr

/-- A slot of the plate store with its valid marker and its entry of the slot status table (R158). -/
structure PlateSlot where
  /-- The stored record, 512 bytes. -/
  record : Memory
  /-- The non-volatile valid marker. -/
  marker : Bool
  /-- The slot status table entry: VALID, or BLANK when false. -/
  valid : Bool
  deriving DecidableEq, Repr

/-! ## Blocks -/

/-- The web position unit less its step generators (chapter 1). -/
structure Wpu where
  /-- The encoder pair last sampled; absent until the first sample after a reset (R1). -/
  pair : Option (Bool × Bool)
  direction : Direction
  /-- The scale in force Q (R4). -/
  scaleQ : Nat
  /-- The position accumulator (R3). -/
  acc : Accumulator
  highWater : Pos
  /-- The position ring, oldest first (R10). -/
  ring : Eight Pos
  v8 : Int
  /-- The headroom in force (R11). -/
  headroom : Nat
  v8p : Nat
  overspeed : Bool
  deriving DecidableEq, Repr

/-- A step generator with its output pair (R13, R14). -/
structure StepGen where
  ratio : Nat
  acc : Accumulator
  emitted : BitVec 32
  /-- The level at which the direction line rests (R14). -/
  dirHigh : Bool
  deriving DecidableEq, Repr

/-- A pending lane window: the row it belongs to and its centre (R29). -/
structure LaneWindow where
  row : Word
  centre : Pos
  deriving DecidableEq, Repr

/-- The mark unit (R20) with the accepted levels of its inputs (R19). -/
structure MarkUnit where
  nextRow : Word
  lastOpened : Word
  expected : Option Pos
  missing : Nat
  search : Bool
  held : Four (Option Pos)
  windows : Four (Option LaneWindow)
  levels : Four Bool
  deriving DecidableEq, Repr

/-- A row's entry for one active station (R31). -/
structure StationEntry where
  committed : Bool
  outcome : Option RowOutcome
  error : Option Int
  trim : Int
  /-- The die face position F (R61). -/
  face : Pos
  zoneStartOff : Int
  zoneEndOff : Int
  /-- The zone start has been reached; its event falls in the step that reached it. -/
  startDue : Bool
  /-- The zone-start event has been taken (R80). -/
  startTaken : Bool
  /-- The zone end has been reached; its event falls in the step that reached it. -/
  endDue : Bool
  /-- The zone-end event has been taken (R63). -/
  endTaken : Bool
  /-- The model's own latch: the row's commit fell due at a web position change, a shift or a first index,
  and its event has not been taken (R58, R62, R81). -/
  commitOwed : Bool
  deriving DecidableEq, Repr

/-- A row's entry for one assigned foil channel (R31). -/
structure ChannelEntry where
  foilUsed : Nat
  hops : Nat
  merges : Nat
  late : Bool
  deriving DecidableEq, Repr

/-- A row context (R31). -/
structure RowCtx where
  row : Word
  jobTag : Word
  lead : Pos
  status : MarkStatus
  lanes : Four LaneEntry
  verdict : Verdict
  source : Source
  stations : Four (Option StationEntry)
  channels : Eight (Option ChannelEntry)
  deriving DecidableEq, Repr

/-- An impression station: its die account (R73) and its own state (R101). Its cylinder ratio C is
the ratio of its generator (R15). -/
structure Station where
  state : StationState
  /-- The fault CYLINDER_SLIP. -/
  fault : Bool
  base : Pos
  indexSeen : Bool
  rho : Int
  drift : Int
  trimTotal : BitVec 32
  lastError : Option Int
  /-- The accepted level of the index input. -/
  indexLevel : Bool
  throw : Throw
  timer : Nat
  dwell : Nat
  risk : List Word
  /-- The accepted level of the heater-ready input (R75). -/
  heaterLevel : Bool
  /-- Consecutive expiries at which the other level has been sampled (R75). -/
  heaterRun : Nat
  deriving DecidableEq, Repr

/-- A stroke (R106): offsets are from the row's die face position. -/
structure Stroke where
  row : Word
  startOff : Int
  endOff : Int
  images : Nat
  deriving DecidableEq, Repr

/-- A planned ramp-up (R104). -/
structure Plan where
  stroke : Stroke
  len : Nat
  deriving DecidableEq, Repr

/-- A foil channel (R104). -/
structure Channel where
  state : ChannelState
  strokes : List Stroke
  current : Option Stroke
  plan : Option Plan
  rampLen : Nat
  rampProgress : Nat
  /-- The stroke the channel is merging out of. -/
  mergingFrom : Option Stroke
  /-- The integer part of the foil position (R111). -/
  foilTicks : Nat
  /-- The foil position fraction, in 1/65,536 tick. -/
  fraction : Nat
  remaining : Nat
  runUsed : Nat
  lowArmed : Bool
  out : Bool
  params : FoilParams
  deriving DecidableEq, Repr

/-- Job control (chapter 7). -/
structure JobControl where
  next : Option Job
  current : Option Current
  run : RunState
  holdCause : HoldCause
  firstRow : Word
  stopRequest : Bool
  /-- The stop-cause set, bit k the cause of code k (R201). -/
  stopCauses : BitVec 10
  deriving DecidableEq, Repr

/-- A command that takes time, with what it carries (R137, R162). -/
inductive Executing where
  /-- LOAD_JOB with its working copy. -/
  | loadJob (working : Job)
  /-- A program cycle of PLATE_SAVE with its slot and its working copy. -/
  | plateSave (slot : Nat) (working : Memory)
  deriving DecidableEq, Repr

/-- The command engine with CMD and CMD_STATUS (section 9.6). -/
structure Engine where
  code : BitVec 8
  arg : BitVec 16
  pend : Bool
  statusCode : BitVec 8
  seq : BitVec 8
  result : CmdResult
  phase : CmdPhase
  executing : Option Executing
  deriving DecidableEq, Repr

/-- A message-signalled interrupt as sent (R185), with the widths PRESUMED for `PciConfig` (log entry 38). -/
structure MsiMessage where
  address : BitVec 64
  data : BitVec 16
  deriving DecidableEq, Repr

/-- ATTN and ATTN_ENABLE, the configuration space fields that bear on them, and the messages sent
(R183 to R185). -/
structure Attention where
  causes : BitVec 18
  enables : BitVec 18
  config : PciConfig
  /-- How many messages the part has sent since the reset. -/
  sent : Nat
  /-- The message sent last. -/
  lastSent : Option MsiMessage
  deriving DecidableEq, Repr

/-- The record writer's figures (R197). -/
structure RecordWriter where
  writtenThrough : Word
  oldestIntact : Word
  deriving DecidableEq, Repr

/-! ## The state -/

/-- Everything the part holds, and the queue of the steps that wait. -/
structure State where
  wpu : Wpu
  cylGens : Four StepGen
  foilGens : Eight StepGen
  mark : MarkUnit
  /-- The row track, head first (R32). -/
  track : List RowCtx
  /-- The row last retired, kept for the rules that speak of row n−1 after it has left the track
  (overview 4.5, R82, R91). -/
  lastRetired : Option RowCtx
  stations : Four Station
  channels : Eight Channel
  jobs : JobControl
  /-- The plate store, slots 0 to 15 (R158). -/
  store : List PlateSlot
  /-- Exchange memory (R170). -/
  mem : Memory
  engine : Engine
  attn : Attention
  records : RecordWriter
  /-- The live page generation (R174). -/
  generation : Word
  /-- The model's own count of free values taken (`Config.cutByte`). -/
  freeCount : Nat
  /-- The model's own queue of the steps that wait, first in, first out. -/
  pending : List Instr
  deriving DecidableEq, Repr

/-- Why a step stops with a fault. -/
inductive Fault where
  /-- A line controller write of which a byte lies at no offset of the window, which ends at 0xFFFF
  (R171, R172). Raised by `State.hostWrite`, and only by steps that are not well formed. Safe: the
  model stops and claims nothing. -/
  | noSuchAddress
  deriving DecidableEq, Repr

/-- Why a step is refused. -/
inductive Refusal where
  /-- Raised by `exec` for a row that has no meaning yet. Safe: the model stops. -/
  | notModelled (mnemonic : String)
  deriving DecidableEq, Repr

/-! ## Reset values -/

/-- The WPU after either kind of reset (R18). -/
def Wpu.reset : Wpu :=
  { pair := none, direction := .forward, scaleQ := 65536, acc := 0, highWater := 0, ring := .all 0,
    v8 := 0, headroom := 0, v8p := 0, overspeed := false }

/-- A step generator after either kind of reset (R18). -/
def StepGen.reset : StepGen := { ratio := 0, acc := 0, emitted := 0, dirHigh := false }

/-- The mark unit after either kind of reset (R40). -/
def MarkUnit.reset : MarkUnit :=
  { nextRow := 1, lastOpened := 0, expected := none, missing := 0, search := false,
    held := .all none, windows := .all none, levels := .all false }

/-- A station after either kind of reset (R73, R101). -/
def Station.reset : Station :=
  { state := .inactive, fault := false, base := 0, indexSeen := false, rho := 0, drift := 0,
    trimTotal := 0, lastError := none, indexLevel := false, throw := .off, timer := 0, dwell := 0,
    risk := [], heaterLevel := false, heaterRun := 0 }

/-- No foil parameters in force: every field 0 (R103). -/
def FoilParams.zero : FoilParams :=
  { lead := 0, trail := 0, dmin := 0, accel := 0, minRamp := 0, fs := 0, threshold := 0 }

/-- A foil channel after either kind of reset (R132). -/
def Channel.reset : Channel :=
  { state := .idle, strokes := [], current := none, plan := none, rampLen := 0, rampProgress := 0,
    mergingFrom := none, foilTicks := 0, fraction := 0, remaining := 0, runUsed := 0,
    lowArmed := true, out := false, params := .zero }

/-- Job control after either kind of reset (R157). -/
def JobControl.reset : JobControl :=
  { next := none, current := none, run := .idle, holdCause := .none, firstRow := 0,
    stopRequest := false, stopCauses := 0 }

/-- The command engine after either kind of reset (R186). -/
def Engine.reset : Engine :=
  { code := 0, arg := 0, pend := false, statusCode := 0, seq := 0, result := .none, phase := .idle,
    executing := none }

/-- The attention logic after either kind of reset (R185, R186). The message address and data are the
model's choice of reset value. -/
def Attention.reset : Attention :=
  { causes := 0, enables := 0,
    config := { msiEnable := false, busMaster := false, intDisable := false, msiAddress := 0,
                msiData := 0 },
    sent := 0, lastSent := none }

/-- The record writer after either kind of reset (R197). -/
def RecordWriter.reset : RecordWriter := { writtenThrough := 0, oldestIntact := 0 }

/-- A slot that has never been programmed: the model's choice for a new part. -/
def PlateSlot.blank : PlateSlot := { record := [], marker := false, valid := false }

/-- The part right after power-on reset, with a plate store in which nothing has been saved. -/
def State.reset : State :=
  { wpu := .reset, cylGens := .all .reset, foilGens := .all .reset, mark := .reset, track := [],
    lastRetired := none, stations := .all .reset, channels := .all .reset, jobs := .reset,
    store := List.replicate 16 .blank, mem := [], engine := .reset, attn := .reset,
    records := .reset, generation := 0, freeCount := 0, pending := [] }

/-! ## One named update per field -/

/-- The state with another web position unit. -/
def State.withWpu (s : State) (x : Wpu) : State := { s with wpu := x }

/-- The state with another cylinder generators. -/
def State.withCylGens (s : State) (x : Four StepGen) : State := { s with cylGens := x }

/-- The state with another foil generators. -/
def State.withFoilGens (s : State) (x : Eight StepGen) : State := { s with foilGens := x }

/-- The state with another mark unit. -/
def State.withMark (s : State) (x : MarkUnit) : State := { s with mark := x }

/-- The state with another row track. -/
def State.withTrack (s : State) (x : List RowCtx) : State := { s with track := x }

/-- The state with another row last retired. -/
def State.withLastRetired (s : State) (x : Option RowCtx) : State := { s with lastRetired := x }

/-- The state with another stations. -/
def State.withStations (s : State) (x : Four Station) : State := { s with stations := x }

/-- The state with another foil channels. -/
def State.withChannels (s : State) (x : Eight Channel) : State := { s with channels := x }

/-- The state with another job control. -/
def State.withJobs (s : State) (x : JobControl) : State := { s with jobs := x }

/-- The state with another plate store. -/
def State.withStore (s : State) (x : List PlateSlot) : State := { s with store := x }

/-- The state with another exchange memory. -/
def State.withMem (s : State) (x : Memory) : State := { s with mem := x }

/-- The state with another command engine. -/
def State.withEngine (s : State) (x : Engine) : State := { s with engine := x }

/-- The state with another attention logic. -/
def State.withAttn (s : State) (x : Attention) : State := { s with attn := x }

/-- The state with another record writer. -/
def State.withRecords (s : State) (x : RecordWriter) : State := { s with records := x }

/-- The state with another live page generation. -/
def State.withGeneration (s : State) (x : Word) : State := { s with generation := x }

/-- The state with another count of free values. -/
def State.withFreeCount (s : State) (x : Nat) : State := { s with freeCount := x }

/-- The state with another queue. -/
def State.withPending (s : State) (x : List Instr) : State := { s with pending := x }

end Sys2Proof.Machine
end

