-- ==== Sys2Proof/Machine/Memory.lean ====
section
/-! DEFINITION. Reading and writing byte memories in their one canonical form, and the accesses the part
makes to exchange memory (R170, R171). -/

namespace Sys2Proof.Machine

/-- The canonical form: addresses strictly rising, and no byte 0. -/
def Memory.wf (m : Memory) : Bool :=
  decide (m.Pairwise fun c d => c.1 < d.1) && m.all fun c => c.2 != 0

/-- The byte at `a`: 0 where none is listed (R186). -/
def Memory.read (m : Memory) (a : Nat) : Byte :=
  match m.find? fun c => c.1 == a with
  | some c => c.2
  | none => 0

/-- The canonical cells of bytes laid from `a` up. -/
def Memory.cellsOf : Nat → List Byte → Memory
  | _, [] => []
  | a, b :: bs => if b = 0 then Memory.cellsOf (a + 1) bs else (a, b) :: Memory.cellsOf (a + 1) bs

/-- The `n` bytes from `a` replaced by canonical cells whose addresses lie among them. -/
def Memory.splice (m : Memory) (a n : Nat) (cells : Memory) : Memory :=
  (m.filter fun c => c.1 < a) ++ cells ++ (m.filter fun c => a + n ≤ c.1)

/-- The bytes from `a` up replaced. -/
def Memory.write (m : Memory) (a : Nat) (bs : List Byte) : Memory :=
  m.splice a bs.length (Memory.cellsOf a bs)

/-- The `n` bytes from `a`, as a memory whose addresses begin at 0. -/
def Memory.copyOut (m : Memory) (a n : Nat) : Memory :=
  (m.filter fun c => a ≤ c.1 && c.1 < a + n).map fun c => (c.1 - a, c.2)

/-- The `n` bytes from `a` replaced by the first `n` bytes of `src`. -/
def Memory.copyIn (m : Memory) (a n : Nat) (src : Memory) : Memory :=
  m.splice a n ((src.filter fun c => c.1 < n).map fun c => (c.1 + a, c.2))

/-- The `n` bytes from `a`, lowest first. -/
def Memory.bytes (m : Memory) (a n : Nat) : List Byte := (List.range n).map fun i => m.read (a + i)

/-- The unsigned integer of `n` bytes at `a` (R198). -/
def Memory.nat (m : Memory) (n a : Nat) : Nat := ofLeBytes (m.bytes a n)

/-- The signed integer of `n` bytes at `a` (R198). -/
def Memory.int (m : Memory) (n a : Nat) : Int := ofTwos (8 * n) (m.nat n a)

/-- The 32-bit word at `a` (R198). -/
def Memory.word (m : Memory) (a : Nat) : Word := BitVec.ofNat 32 (m.nat 4 a)

/-- The part's write of bytes to exchange memory. -/
def State.writeMem (s : State) (a : Nat) (bs : List Byte) : State := s.withMem (s.mem.write a bs)

/-- One aligned 4-byte write of the part to the live page (R175). -/
def State.writeWord (s : State) (a : Nat) (w : Word) : State := s.writeMem a (leBytes 4 w.toNat)

end Sys2Proof.Machine
end

