-- ==== Sys2Proof/Machine/Operands.lean ====
section
/-! DEFINITION. The structures the part reads: the job record, the plate record, the verdict codes, and
what the blocks take from the CURRENT job (chapters 7, 8 and 11). -/

namespace Sys2Proof.Machine

/-! ## The job record -/

/-- The foil parameters at `a` (R203). -/
def readFoilParams (m : Memory) (a : Nat) : FoilParams :=
  { lead := m.nat 2 a, trail := m.nat 2 (a + 0x02), dmin := m.nat 2 (a + 0x04),
    accel := m.nat 2 (a + 0x06), minRamp := m.nat 2 (a + 0x08), fs := m.nat 4 (a + 0x0C),
    threshold := m.nat 4 (a + 0x10) }

/-- The station block at `a` (R203). -/
def readStationBlock (m : Memory) (a : Nat) : StationBlock :=
  { typeCode := m.nat 1 a, plateSlot := m.nat 1 (a + 0x01), throwOn := m.nat 1 (a + 0x02),
    throwOff := m.nat 1 (a + 0x03), distance := m.nat 4 (a + 0x04), steps := m.nat 4 (a + 0x08),
    indexOffset := m.int 4 (a + 0x0C), guard := m.nat 2 (a + 0x10), deadBand := m.nat 2 (a + 0x12),
    trimStep := m.nat 2 (a + 0x14), catchStep := m.nat 2 (a + 0x16), catchBand := m.nat 2 (a + 0x18),
    slipTol := m.nat 2 (a + 0x1A), foil := readFoilParams m (a + 0x20) }

/-- The channel block at `a` (R203). -/
def readChannelBlock (m : Memory) (a : Nat) : ChannelBlock :=
  { useCode := m.nat 1 a, station := m.nat 1 (a + 0x01), lane := m.nat 1 (a + 0x02),
    override := m.nat 1 (a + 0x03), own := readFoilParams m (a + 0x10) }

/-- The place of station block `s` within a job record (R203). -/
def stationBlockOffset (s : Nat) : Nat := 0x040 + 64 * s

/-- The place of channel block `c` within a job record (R203). -/
def channelBlockOffset (c : Nat) : Nat := 0x140 + 48 * c

/-- The job record at `a` (R203). -/
def readJob (m : Memory) (a : Nat) : Job :=
  { tag := m.word a
    laneSet := m.nat 1 (a + 0x004) % 16
    leadingLane := m.nat 1 (a + 0x005)
    missingLimit := m.nat 1 (a + 0x006)
    defaultVerdict := m.nat 1 (a + 0x007)
    laneOffsets := (Four.all ()).mapIdx fun l _ => m.int 4 (a + 0x008 + 4 * l.val)
    window := m.nat 2 (a + 0x018)
    headroom := m.nat 1 (a + 0x01A)
    tallyCode := m.nat 1 (a + 0x01B)
    scaleQ := m.nat 4 (a + 0x01C)
    reverseTol := m.nat 2 (a + 0x020)
    v8Max := m.nat 2 (a + 0x022)
    crawl := m.nat 2 (a + 0x024)
    resume := m.nat 2 (a + 0x026)
    dwellLimit := m.nat 2 (a + 0x028)
    stopSelection := m.nat 2 (a + 0x02A) % 1024
    stations := (Four.all ()).mapIdx fun s _ => readStationBlock m (a + stationBlockOffset s.val)
    channels := (Eight.all ()).mapIdx fun c _ => readChannelBlock m (a + channelBlockOffset c.val) }

/-- The type a station block's code names, where it names one (R203). -/
def StationBlock.type? (b : StationBlock) : Option StationType :=
  match b.typeCode with
  | 0 => some .none
  | 1 => some .foil
  | 2 => some .emboss
  | 3 => some .foilEmboss
  | _ => none

/-- A type other than NONE: the station is active in the job (R74). -/
def StationBlock.active (b : StationBlock) : Bool :=
  b.typeCode == 1 || b.typeCode == 2 || b.typeCode == 3

/-- A heated type, FOIL or FOIL_EMBOSS (R74). -/
def StationBlock.heated (b : StationBlock) : Bool := b.typeCode == 1 || b.typeCode == 3

/-- The channel is assigned to a lane of a station (R102). -/
def ChannelBlock.assigned (b : ChannelBlock) : Bool := b.useCode == 1

/-- Lane `l` is in the active lane set (R203). -/
def Job.laneActive (j : Job) (l : Nat) : Bool := j.laneSet.testBit l

/-- The plate slots the job's active stations reference (R136). -/
def Job.referenced (j : Job) : List Nat :=
  (j.stations.toList.filter StationBlock.active).map StationBlock.plateSlot

/-- The parameters that would be in force for a channel (R103). -/
def Job.channelParams (j : Job) (b : ChannelBlock) : FoilParams :=
  if b.override = 1 then b.own
  else
    match fin4 b.station with
    | some st => (j.stations.get st).foil
    | none => .zero

/-- The default verdict (R46). -/
def Job.default (j : Job) : Verdict := if j.defaultVerdict = 1 then .stamp else .skip

/-- The tally interval in rows, where there is one (R195). -/
def Job.tallyRows (j : Job) : Option Nat :=
  match j.tallyCode with
  | 1 => some 1
  | 2 => some 10
  | 3 => some 100
  | _ => none

/-- A job record of zeros: what the blocks read while CURRENT is empty, when none of them acts on it. -/
def Job.zero : Job :=
  let p := FoilParams.zero
  let b : StationBlock :=
    { typeCode := 0, plateSlot := 0, throwOn := 0, throwOff := 0, distance := 0, steps := 0,
      indexOffset := 0, guard := 0, deadBand := 0, trimStep := 0, catchStep := 0, catchBand := 0,
      slipTol := 0, foil := p }
  { tag := 0, laneSet := 0, leadingLane := 0, missingLimit := 0, defaultVerdict := 0,
    laneOffsets := .all 0, window := 0, headroom := 0, tallyCode := 0, scaleQ := 0, reverseTol := 0,
    v8Max := 0, crawl := 0, resume := 0, dwellLimit := 0, stopSelection := 0, stations := .all b,
    channels := .all { useCode := 0, station := 0, lane := 0, override := 0, own := p } }

/-! ## The plate record -/

/-- The place of the image list of lane `l` within a plate record (R204). -/
def imageListOffset (l : Nat) : Nat := 0x020 + 104 * l

/-- Image `i` of the image list at `a` (R204). -/
def readImage (m : Memory) (a i : Nat) : Image :=
  { start := m.nat 4 (a + 0x08 + 8 * i), len := m.nat 4 (a + 0x0C + 8 * i) }

/-- The image list at `a`, as far as its image count says (R204). -/
def readImages (m : Memory) (a : Nat) : List Image :=
  (List.range (min 12 (m.nat 1 a))).map (readImage m a)

/-- What a job uses of a plate record; the lists of lanes at or above the lane count are not read
(R159, R204). -/
def readPlate (m : Memory) : Plate :=
  let lanes := m.nat 1 0x01D
  { pitch := m.nat 4 0x018, faces := m.nat 1 0x01C, laneCount := lanes
    images := (Four.all ()).mapIdx fun l _ =>
      if l.val < lanes then readImages m (imageListOffset l.val) else [] }

/-- The slot numbered `n` of the store. -/
def State.slot (s : State) (n : Nat) : PlateSlot := s.store.getD n .blank

/-- The plate of slot `n` as its readers find it: nothing where the slot reads as BLANK (R158). -/
def State.readSlot (s : State) (n : Nat) : Option Plate :=
  if (s.slot n).valid then some (readPlate (s.slot n).record) else none

/-! ## What the blocks take from CURRENT -/

/-- CURRENT's content; a job of zeros while it is empty. -/
def State.cur (s : State) : Current :=
  s.jobs.current.getD { job := .zero, plates := .all none }

/-- The job CURRENT holds. -/
def State.job (s : State) : Job := s.cur.job

/-- The block of station `st` in CURRENT. -/
def State.block (s : State) (st : Fin 4) : StationBlock := s.job.stations.get st

/-- The block of channel `c` in CURRENT. -/
def State.chanBlock (s : State) (c : Fin 8) : ChannelBlock := s.job.channels.get c

/-- A plate with nothing on it. -/
def Plate.zero : Plate := { pitch := 0, faces := 0, laneCount := 0, images := .all [] }

/-- The plate copy of station `st` (R136). -/
def State.plate (s : State) (st : Fin 4) : Plate := (s.cur.plates.get st).getD .zero

/-- The pitch of station `st`'s plate (R54). -/
def State.pitch (s : State) (st : Fin 4) : Nat := (s.plate st).pitch

/-- The web length R of one cylinder revolution: faces around × pitch (R54). -/
def Plate.revolution (p : Plate) : Nat := p.faces * p.pitch

/-- The job pitch: the pitch of the plates of the active stations, taken from the lowest-numbered
(section 7.1, R139). -/
def State.jobPitch (s : State) : Nat :=
  match (s.cur.plates.toList.filterMap id).head? with
  | some p => p.pitch
  | none => 0

/-- The station a channel is assigned to (R102). -/
def State.chanStation (s : State) (c : Fin 8) : Option (Fin 4) :=
  if (s.chanBlock c).assigned then fin4 (s.chanBlock c).station else none

/-- The images of a channel's lane on its station's plate (R102). -/
def State.chanImages (s : State) (c : Fin 8) : List Image :=
  match s.chanStation c, fin4 (s.chanBlock c).lane with
  | some st, some l => (s.plate st).images.get l
  | _, _ => []

/-! ## Verdict codes -/

/-- The verdict a code names (R41). -/
def verdictOfCode (c : Nat) : Option Verdict :=
  match c with
  | 1 => some .stamp
  | 2 => some .skip
  | 3 => some .splice
  | _ => none

end Sys2Proof.Machine
end

