-- ==== Sys2Proof/Machine/Flags.lean ====
section
/-! DEFINITION. The attention causes, the attention condition and its signalling on the link, and the
stop causes and the stop request (sections 9.7 and 7.6). -/

namespace Sys2Proof.Machine

/-- The bit of a cause in ATTN and ATTN_ENABLE (R199). -/
def AttnCause.bit : AttnCause → Nat
  | .cmdDone => 0
  | .tally => 1
  | .recordLapped => 2
  | .verdictDefaulted => 3
  | .regLost => 4
  | .regFound => 5
  | .regCaught => 6
  | .regDrift => 7
  | .stationFault => 8
  | .stationHeat => 9
  | .stationLift => 10
  | .spliceRisk => 11
  | .foilLow => 12
  | .foilOut => 13
  | .foilLate => 14
  | .runHeld => 15
  | .runIdle => 16
  | .overspeed => 17

/-- The bit of a stop cause in the stop-cause set and in a job's selection (R201, R203). -/
def StopCause.bit : StopCause → Nat
  | .host => 0
  | .reverse => 1
  | .encoder => 2
  | .trackFull => 3
  | .regLost => 4
  | .stationFault => 5
  | .stationHeat => 6
  | .spliceRisk => 7
  | .overspeed => 8
  | .foilOut => 9

/-- The stop causes in bit order. -/
def StopCause.list : List StopCause :=
  [.host, .reverse, .encoder, .trackFull, .regLost, .stationFault, .stationHeat, .spliceRisk,
   .overspeed, .foilOut]

/-! ## Attention -/

/-- The attention condition: some cause is both set and enabled (R184). -/
def Attention.condition (a : Attention) : Bool := a.causes &&& a.enables != 0

/-- A message can be sent: the condition is true, MSI is enabled and the function is a bus master. -/
def Attention.deliverable (a : Attention) : Bool :=
  a.condition && a.config.msiEnable && a.config.busMaster

/-- The attention logic taken from `old` to `new`, with the message that change calls for: one at a
rise of the condition, one where MSI is enabled or the bus-master enable is set with the condition
true, and none otherwise (R185). -/
def Attention.signal (old new : Attention) : Attention :=
  if new.deliverable && !old.deliverable then
    { new with sent := new.sent + 1
               lastSent := some { address := new.config.msiAddress, data := new.config.msiData } }
  else new

/-- A cause set in ATTN (R183). -/
def Attention.raise (a : Attention) (c : AttnCause) : Attention :=
  a.signal { a with causes := a.causes ||| BitVec.twoPow 18 c.bit }

/-- A 4-byte write to ATTN (R183). -/
def Attention.clear (a : Attention) (w : Word) : Attention :=
  a.signal { a with causes := a.causes &&& ~~~(w.truncate 18) }

/-- A 4-byte write to ATTN_ENABLE (R184). -/
def Attention.setEnables (a : Attention) (w : Word) : Attention :=
  a.signal { a with enables := w.truncate 18 }

/-- A write to the configuration space fields (R185). -/
def Attention.setConfig (a : Attention) (c : PciConfig) : Attention :=
  a.signal { a with config := c }

/-- The INTx line is asserted (R185). -/
def Attention.intx (a : Attention) : Bool :=
  a.condition && !a.config.msiEnable && !a.config.intDisable

/-- A cause stands in ATTN. -/
def Attention.has (a : Attention) (c : AttnCause) : Bool := a.causes.getLsbD c.bit

/-- An attention cause set on its event, whatever its enable. -/
def State.raise (s : State) (c : AttnCause) : State := s.withAttn (s.attn.raise c)

/-! ## Stop causes -/

/-- The stop-cause selection of the CURRENT job: the empty set while CURRENT is empty (R136). -/
def JobControl.selection (j : JobControl) : BitVec 10 :=
  match j.current with
  | some c => BitVec.ofNat 10 c.job.stopSelection
  | none => 0

/-- A stop cause stands in the stop-cause set. -/
def JobControl.hasStop (j : JobControl) (c : StopCause) : Bool := j.stopCauses.getLsbD c.bit

/-- The cause asserts the stop request when it is handed over: FOIL_OUT does, and a cause of the
selection does (R154). -/
def JobControl.selects (j : JobControl) (c : StopCause) : Bool :=
  c == .foilOut || j.selection.getLsbD c.bit

/-- A stop cause handed to job control (R154). -/
def JobControl.handStop (j : JobControl) (c : StopCause) : JobControl :=
  { j with stopCauses := j.stopCauses ||| BitVec.twoPow 10 c.bit
           stopRequest := j.stopRequest || j.selects c }

/-- A stop cause handed to job control by a block. -/
def State.handStop (s : State) (c : StopCause) : State := s.withJobs (s.jobs.handStop c)

/-- An attention cause set and the stop cause of the same event handed over. -/
def State.raiseStop (s : State) (a : AttnCause) (c : StopCause) : State := (s.raise a).handStop c

end Sys2Proof.Machine
end

