-- ==== Sys2Proof/Machine/Ops.lean ====
section
/-! DEFINITION. The shared operations on the state: one station, channel, generator or row replaced;
where things stand on the web; what a source amount does to a step generator. -/

namespace Sys2Proof.Machine

/-! ## Web -/

/-- The web position: the integer part of the position accumulator (R3). -/
def Wpu.position (w : Wpu) : Pos := w.acc.extractLsb' 16 32

/-- The web position. -/
def State.web (s : State) : Pos := s.wpu.position

/-- A distance covered in `t` ms at planning speed (R11). -/
def State.planned (s : State) (t : Nat) : Nat := ceilDiv (s.wpu.v8p * t) 8

/-! ## Step generators -/

/-- The commanded step position (R13). -/
def StepGen.commanded (g : StepGen) : BitVec 32 := g.acc.extractLsb' 16 32

/-- The owed steps (R13). -/
def StepGen.owed (g : StepGen) : Int := dist g.emitted g.commanded

/-- A source amount of `amount` ticks arrives (R13). -/
def StepGen.deliver (g : StepGen) (amount : Int) : StepGen :=
  { g with acc := g.acc + BitVec.ofInt 48 (amount * g.ratio) }

/-- A generator of the part. -/
def State.gen (s : State) : GenId → StepGen
  | .cylinder st => s.cylGens.get st
  | .foil c => s.foilGens.get c

/-- A generator of the part replaced. -/
def State.setGen (s : State) (i : GenId) (g : StepGen) : State :=
  match i with
  | .cylinder st => s.withCylGens (s.cylGens.set st g)
  | .foil c => s.withFoilGens (s.foilGens.set c g)

/-- The ratio of a generator set (R15, R16). -/
def State.setRatio (s : State) (i : GenId) (r : Nat) : State :=
  s.setGen i { s.gen i with ratio := r }

/-! ## Stations and channels -/

/-- Station `st`. -/
def State.station (s : State) (st : Fin 4) : Station := s.stations.get st

/-- Station `st` replaced. -/
def State.setStation (s : State) (st : Fin 4) (x : Station) : State :=
  s.withStations (s.stations.set st x)

/-- Channel `c`. -/
def State.channel (s : State) (c : Fin 8) : Channel := s.channels.get c

/-- Channel `c` replaced. -/
def State.setChannel (s : State) (c : Fin 8) (x : Channel) : State :=
  s.withChannels (s.channels.set c x)

/-- An action taken for each station in number order. -/
def forStations (f : Fin 4 → State → State) (s : State) : State := f 3 (f 2 (f 1 (f 0 s)))

/-- An action taken for each channel in number order. -/
def forChannels (f : Fin 8 → State → State) (s : State) : State :=
  f 7 (f 6 (f 5 (f 4 (f 3 (f 2 (f 1 (f 0 s)))))))

/-- Station `st` is active in the run: not INACTIVE (R74). -/
def State.activeAt (s : State) (st : Fin 4) : Bool := (s.station st).state != .inactive

/-! ## Rows -/

/-- The context of row `n` on the track (R32). -/
def State.row? (s : State) (n : Word) : Option RowCtx := s.track.find? fun r => r.row == n

/-- The contexts of row `n` changed. -/
def State.mapRow (s : State) (n : Word) (f : RowCtx → RowCtx) : State :=
  s.withTrack (s.track.map fun r => if r.row = n then f r else r)

/-- The entry of one station changed, where the row has one. -/
def RowCtx.mapStation (r : RowCtx) (st : Fin 4) (f : StationEntry → StationEntry) : RowCtx :=
  { r with stations := r.stations.set st ((r.stations.get st).map f) }

/-- The entry of one channel changed, where the row has one. -/
def RowCtx.mapChannel (r : RowCtx) (c : Fin 8) (f : ChannelEntry → ChannelEntry) : RowCtx :=
  { r with channels := r.channels.set c ((r.channels.get c).map f) }

/-- Every entry of station `st` on the track changed. -/
def State.mapEntries (s : State) (st : Fin 4) (f : StationEntry → StationEntry) : State :=
  s.withTrack (s.track.map fun r => r.mapStation st f)

/-- The entry of row `n` at station `st` changed. -/
def State.mapEntry (s : State) (st : Fin 4) (n : Word) (f : StationEntry → StationEntry) : State :=
  s.mapRow n fun r => r.mapStation st f

/-- The entry of row `n` at channel `c` changed. -/
def State.mapCharge (s : State) (c : Fin 8) (n : Word) (f : ChannelEntry → ChannelEntry) : State :=
  s.mapRow n fun r => r.mapChannel c f

/-- The entry of row `n` at station `st`. -/
def State.entry? (s : State) (st : Fin 4) (n : Word) : Option StationEntry :=
  (s.row? n).bind fun r => r.stations.get st

/-- The zone start (R80). -/
def StationEntry.zoneStart (e : StationEntry) : Pos := moved e.face e.zoneStartOff

/-- The zone end (R80). -/
def StationEntry.zoneEnd (e : StationEntry) : Pos := moved e.face e.zoneEndOff

/-- The outcomes under which the cylinder is meant to be on impression (section 5.5). -/
def RowOutcome.strike : RowOutcome → Bool
  | .struck | .struckLate | .struckUnskipped => true
  | _ => false

/-- The entry carries a strike outcome. -/
def StationEntry.struck (e : StationEntry) : Bool :=
  match e.outcome with
  | some o => o.strike
  | none => false

/-- The row carries a strike outcome at station `st`. -/
def RowCtx.struckAt (r : RowCtx) (st : Fin 4) : Bool :=
  match r.stations.get st with
  | some e => e.struck
  | none => false

/-- A row carries a strike outcome at the station and its zone-end event there is to come. -/
def RowCtx.liveStrike (r : RowCtx) (st : Fin 4) : Bool :=
  match r.stations.get st with
  | some e => e.struck && !e.endTaken
  | none => false

/-- The row carries a strike outcome at the station and its zone-end event there has been taken. -/
def RowCtx.endedStrike (r : RowCtx) (st : Fin 4) : Bool :=
  match r.stations.get st with
  | some e => e.struck && e.endTaken
  | none => false

/-- The row before `n` on the track. -/
def before? (n : Word) : List RowCtx → Option RowCtx
  | p :: r :: rest => if r.row = n then some p else before? n (r :: rest)
  | _ => none

/-- The row after `n` on the track. -/
def after? (n : Word) : List RowCtx → Option RowCtx
  | r :: q :: rest => if r.row = n then some q else after? n (q :: rest)
  | _ => none

/-- Row n−1 where it is on the track (R83). -/
def State.before? (s : State) (n : Word) : Option RowCtx := Machine.before? n s.track

/-- Row n+1 where it is on the track (R81). -/
def State.after? (s : State) (n : Word) : Option RowCtx := Machine.after? n s.track

/-- Row n−1, the row opened immediately before row n (overview 4.5), on the track or just retired. -/
def State.previous? (s : State) (n : Word) : Option RowCtx :=
  match s.before? n with
  | some r => some r
  | none =>
    match s.lastRetired with
    | some r => if rowSucc r.row = n then some r else none
    | none => none

end Sys2Proof.Machine
end

