-- ==== Sys2Proof/Machine/Foil.lean ====
section
/-! DEFINITION. The foil saver channels (chapter 6): strokes, ramps, the decision between hop and
merge, foil accounting, withdrawal and the hold. Throughout `h` is the high-water position at which an
action is tested (R110). -/

namespace Sys2Proof.Machine

/-! ## Where strokes lie -/

/-- The die face position of row `n` at the channel's station (R107). -/
def State.chanFace (s : State) (c : Fin 8) (n : Word) : Option Pos :=
  (s.chanStation c).bind fun st => (s.entry? st n).map StationEntry.face

/-- A stroke's sync start (R107). -/
def State.syncStart (s : State) (c : Fin 8) (k : Stroke) : Option Pos :=
  (s.chanFace c k.row).map fun f => moved f k.startOff

/-- A stroke's sync end (R107). -/
def State.syncEnd (s : State) (c : Fin 8) (k : Stroke) : Option Pos :=
  (s.chanFace c k.row).map fun f => moved f k.endOff

/-- A position the channel watches is reached: `h` is at or beyond it (R110). -/
def reachedAt (h : Pos) (x : Option Pos) : Bool :=
  match x with
  | some p => atOrBeyond h p
  | none => false

/-! ## Ramps -/

/-- The ramp length for planning speed `v8p` under parameters `p` (R112). -/
def rampLength (v8p : Nat) (p : FoilParams) : Nat :=
  min (max (2 * ceilDiv (v8p * v8p) (128 * p.accel)) p.minRamp) maxRamp

/-- The ramp length the channel computes now (R112). -/
def State.rampNow (s : State) (c : Fin 8) : Nat := rampLength s.wpu.v8p (s.channel c).params

/-- The foil travel after `k` ticks of a ramp of length `len`, in 1/65,536 tick (R113). -/
def rampTravel (len k : Nat) : Nat := k * k * 32768 / len

/-- The increment of tick `k` of a ramp up (R113). -/
def rampUpIncrement (len k : Nat) : Nat := rampTravel len k - rampTravel len (k - 1)

/-- The increment of tick `k` of a ramp down (R114). -/
def rampDownIncrement (len k : Nat) : Nat := rampTravel len (len - k + 1) - rampTravel len (len - k)

/-- The increment of the channel's next web tick (R111). -/
def Channel.increment (x : Channel) : Nat :=
  match x.state with
  | .idle | .standing => 0
  | .sync => 65536
  | .rampUp => rampUpIncrement x.rampLen (x.rampProgress + 1)
  | .rampDown => rampDownIncrement x.rampLen (x.rampProgress + 1)

/-! ## Accounting -/

/-- The row a foil tick is charged to (R123). -/
def Channel.chargedRow (x : Channel) : Option Word :=
  match x.state with
  | .idle | .standing => none
  | .rampUp | .rampDown => x.current.map Stroke.row
  | .sync =>
    match x.mergingFrom with
    | some k => some k.row
    | none => x.current.map Stroke.row

/-- A foil tick leaves remaining at or below a threshold above 0 with the low-armed flag set (R125). -/
def Channel.crossesLow (x : Channel) : Bool :=
  0 < x.params.threshold && x.remaining - 1 ≤ x.params.threshold && x.lowArmed

/-- A foil tick leaves remaining at 0 with the out flag clear (R126). -/
def Channel.runsOut (x : Channel) : Bool := x.remaining - 1 == 0 && !x.out

/-- The channel's accounts after a foil tick (R123 to R126). -/
def Channel.charge (x : Channel) : Channel :=
  { x with foilTicks := x.foilTicks + 1
           runUsed := satSucc 4294967295 x.runUsed
           remaining := x.remaining - 1
           lowArmed := x.lowArmed && !x.crossesLow
           out := x.out || x.runsOut }

/-- One foil tick: delivered to the generator and accounted for (R111, R123 to R126). -/
def State.foilTick (c : Fin 8) (s : State) : State :=
  let x := s.channel c
  let s := s.setGen (.foil c) ((s.foilGens.get c).deliver 1)
  let s := s.setChannel c x.charge
  let s :=
    match x.chargedRow with
    | some n => s.mapCharge c n fun e => { e with foilUsed := e.foilUsed + 1 }
    | none => s
  let s := if x.crossesLow then s.raise .foilLow else s
  if x.runsOut then s.raiseStop .foilOut .foilOut else s

/-- The foil motion of one web tick (R111). -/
def State.foilMotion (c : Fin 8) (s : State) : State :=
  let x := s.channel c
  let total := x.fraction + x.increment
  let progress :=
    match x.state with
    | .rampUp | .rampDown => x.rampProgress + 1
    | _ => x.rampProgress
  let s := if 65536 ≤ total then s.foilTick c else s
  s.setChannel c { s.channel c with fraction := total % 65536, rampProgress := progress }

/-! ## From standing to sync -/

/-- The stroke a STANDING channel watches, with the ramp length of its ramp-up: the plan's, or the
head stroke's with a length computed now (R115, R121). -/
def State.watched (s : State) (c : Fin 8) : Option Plan :=
  match (s.channel c).plan with
  | some p => some p
  | none => (s.channel c).strokes.head?.map fun k => { stroke := k, len := s.rampNow c }

/-- The start point of a ramp-up (R115, R121). -/
def State.startPoint (s : State) (c : Fin 8) (p : Plan) : Option Pos :=
  (s.syncStart c p.stroke).map fun x => moved x (-(p.len : Int))

/-- The late flag of a row set and FOIL_LATE raised: at a late ramp-up and at a list overflow (R116, R108). -/
def State.markLate (c : Fin 8) (n : Word) (s : State) : State :=
  (s.mapCharge c n fun e => { e with late := true }).raise .foilLate

/-- The ramp-up to a stroke begins: the stroke is engaged and current (R109, R115, R121). -/
def Channel.beginRampUp (x : Channel) (p : Plan) : Channel :=
  { x with state := .rampUp, strokes := x.strokes.erase p.stroke, current := some p.stroke,
           plan := none, rampLen := p.len, rampProgress := 0 }

/-- A STANDING channel takes the ramp-up it watches where its start point is reached; it is late where
the start point is already behind `h` (R115, R116, R121). -/
def State.tryRampUp (c : Fin 8) (h : Pos) (s : State) : State :=
  match (s.channel c).state, s.watched c with
  | .standing, some p =>
    match s.startPoint c p with
    | some x =>
      if atOrBeyond h x then
        let s := s.setChannel c ((s.channel c).beginRampUp p)
        if behind x h then s.markLate c p.stroke.row else s
      else s
    | none => s
  | _, _ => s

/-! ## At a stroke end -/

/-- A ramp-down of length `len` begins; the stroke just ended stays current (R118, R119). -/
def Channel.beginRampDown (x : Channel) (len : Nat) (plan : Option Plan) : Channel :=
  { x with state := .rampDown, rampLen := len, rampProgress := 0, plan := plan, mergingFrom := none }

/-- The gap from the stroke just ended to the next one (R119). -/
def State.gap (s : State) (c : Fin 8) (ended next : Stroke) : Int :=
  match s.syncEnd c ended, s.syncStart c next with
  | some a, some b => dist a b
  | _, _ => 0

/-- The hop from stroke `x` to stroke `y` with ramps of `len` (R119). -/
def State.hop (c : Fin 8) (x y : Stroke) (len : Nat) (s : State) : State :=
  (s.setChannel c ((s.channel c).beginRampDown len (some { stroke := y, len := len }))).mapCharge c
    x.row fun e => { e with hops := satSucc 255 e.hops }

/-- The merge from stroke `x` into stroke `y`: the gap travel is charged to `x`'s row until `h` reaches
`y`'s sync start, so there is none where it has (R120). -/
def State.merge (c : Fin 8) (h : Pos) (x y : Stroke) (s : State) : State :=
  let ch := s.channel c
  let from? := if 0 < s.gap c x y && !reachedAt h (s.syncStart c y) then some x else none
  (s.setChannel c { ch with strokes := ch.strokes.erase y, current := some y, mergingFrom := from? })
    |>.mapCharge c x.row fun e => { e with merges := satSucc 255 e.merges }

/-- The stroke end of stroke `x` (R118): a ramp-down where no stroke is pending, else a hop where the
gap is at least 2L + Dmin, else a merge. -/
def State.strokeEnd (c : Fin 8) (h : Pos) (x : Stroke) (s : State) : State :=
  let ch := s.channel c
  let len := s.rampNow c
  match ch.strokes with
  | [] => s.setChannel c (ch.beginRampDown len none)
  | y :: _ =>
    if (2 * len + ch.params.dmin : Int) ≤ s.gap c x y then s.hop c x y len else s.merge c h x y

/-- The stroke ends due at `h` in SYNC, one after another where a merge engages a stroke whose own end
is already reached (R118, R120). -/
def State.strokeEnds (c : Fin 8) (h : Pos) : Nat → State → State
  | 0, s => s
  | fuel + 1, s =>
    match (s.channel c).state, (s.channel c).current with
    | .sync, some x =>
      if reachedAt h (s.syncEnd c x) then (s.strokeEnd c h x).strokeEnds c h fuel else s
    | _, _ => s

/-- The end of a merge gap (R120). -/
def State.mergeGapEnd (c : Fin 8) (h : Pos) (s : State) : State :=
  let ch := s.channel c
  match ch.current with
  | some y =>
    if reachedAt h (s.syncStart c y) then s.setChannel c { ch with mergingFrom := none } else s
  | none => s

/-- What is due at `h` in SYNC: the end of the merge gap, then stroke ends. -/
def State.syncActions (c : Fin 8) (h : Pos) (s : State) : State :=
  let s := s.mergeGapEnd c h
  s.strokeEnds c h ((s.channel c).strokes.length + 1)

/-- The end of a ramp-up: SYNC in the current stroke (R117). -/
def State.rampUpEnd (c : Fin 8) (h : Pos) (s : State) : State :=
  (s.setChannel c { s.channel c with state := .sync, rampLen := 0, rampProgress := 0 }).syncActions
    c h

/-- The end of a ramp-down: STANDING, then the ramp-up that waits (R122). -/
def State.rampDownEnd (c : Fin 8) (h : Pos) (s : State) : State :=
  (s.setChannel c
      { s.channel c with state := .standing, current := none, rampLen := 0, rampProgress := 0 })
    |>.tryRampUp c h

/-- What is due at `h` after the motion of a web tick (R110). -/
def State.foilActions (c : Fin 8) (h : Pos) (s : State) : State :=
  let x := s.channel c
  match x.state with
  | .idle => s
  | .standing => s.tryRampUp c h
  | .rampUp => if x.rampLen ≤ x.rampProgress then s.rampUpEnd c h else s
  | .sync => s.syncActions c h
  | .rampDown => if x.rampLen ≤ x.rampProgress then s.rampDownEnd c h else s

/-- One web tick at a channel: the motion, then what is due at the new high-water position (R110). -/
def State.webTick (c : Fin 8) (h : Pos) (s : State) : State := (s.foilMotion c).foilActions c h

/-- The `n` web ticks beyond `h`, one at a time (R110). -/
def State.webTicks (c : Fin 8) : Nat → Pos → State → State
  | 0, _, s => s
  | n + 1, h, s => (s.webTick c (h + 1)).webTicks c n (h + 1)

/-- The channel's part in an advance of the high-water position from `h` by `n` (R110). -/
def State.foilAdvance (h : Pos) (n : Nat) (c : Fin 8) (s : State) : State :=
  if (s.channel c).state = .idle then s else s.webTicks c n h

/-- What is due at the channel when strokes have moved or ramp lengths have been computed afresh (R107,
R112, R116): tested against the high-water position as it stands. -/
def State.foilRecheck (c : Fin 8) (s : State) : State :=
  match (s.channel c).state with
  | .standing => s.tryRampUp c s.wpu.highWater
  | .sync => s.syncActions c s.wpu.highWater
  | _ => s

/-! ## Handover and withdrawal -/

/-- The spans of images, widened by lead and trail, with those that meet made one stroke (R106). -/
def joinSpans (row : Word) (p : FoilParams) : List Image → List Stroke
  | [] => []
  | i :: rest =>
    let k : Stroke :=
      { row := row, startOff := (i.start : Int) - p.lead, endOff := (i.start : Int) + i.len + p.trail,
        images := 1 }
    match joinSpans row p rest with
    | y :: ys =>
      if y.startOff ≤ k.endOff then
        { k with endOff := max k.endOff y.endOff, images := y.images + 1 } :: ys
      else k :: y :: ys
    | [] => [k]

/-- The strokes the channel forms for a row (R106). -/
def State.formStrokes (s : State) (c : Fin 8) (row : Word) : List Stroke :=
  joinSpans row (s.channel c).params (s.chanImages c)

/-- A committed strike row handed to the channel (R86, R106, R108). -/
def State.handover (row : Word) (c : Fin 8) (s : State) : State :=
  let x := s.channel c
  let new := s.formStrokes c row
  let room := strokeCapacity - x.strokes.length
  let s := s.setChannel c { x with strokes := x.strokes ++ new.take room }
  let s := if room < new.length then s.markLate c row else s
  if x.strokes.isEmpty && x.plan.isNone then s.tryRampUp c s.wpu.highWater else s

/-- The channel without the pending strokes of a row, and without a plan that names one (R128). -/
def Channel.withoutRow (x : Channel) (row : Word) : Channel :=
  { x with strokes := x.strokes.filter fun k => k.row != row
           plan := x.plan.filter fun p => p.stroke.row != row }

/-- A row handed to the channel for withdrawal (R128). -/
def State.withdraw (row : Word) (c : Fin 8) (s : State) : State :=
  let x := s.channel c
  if x.strokes.any fun k => k.row == row then
    (s.setChannel c (x.withoutRow row)).tryRampUp c s.wpu.highWater
  else s

/-- An action taken at each channel that serves station `st` and is not IDLE. -/
def State.serving (st : Fin 4) (f : Fin 8 → State → State) (s : State) : State :=
  forChannels
    (fun c s => if s.chanStation c = some st ∧ (s.channel c).state ≠ .idle then f c s else s) s

/-! ## Holding rows -/

/-- The channel holds row `n` (R109). -/
def Channel.holds (x : Channel) (n : Word) : Bool :=
  (x.strokes.any fun k => k.row == n) || (x.current.any fun k => k.row == n) ||
    x.mergingFrom.any fun k => k.row == n

/-! ## Start, hold and end of a run -/

/-- The ramp-down a hold begins in RAMP_UP: the last ceil(k × L′ / L) ticks of a ramp of L′ (R129). -/
def Channel.cutRampUp (x : Channel) (len : Nat) : Channel :=
  if x.rampProgress = 0 then { x with state := .standing, rampLen := 0, rampProgress := 0 }
  else
    { x with state := .rampDown, rampLen := len
             rampProgress := len - ceilDiv (x.rampProgress * len) x.rampLen }

/-- The channel at a hold, with the ramp length computed at that moment (R129). -/
def Channel.hold (x : Channel) (len : Nat) : Channel :=
  let y :=
    match x.state with
    | .sync => { x with state := .rampDown, rampLen := len, rampProgress := 0 }
    | .rampUp => x.cutRampUp len
    | _ => x
  { y with strokes := [], plan := none, current := none, mergingFrom := none }

/-- The channel's part in a hold (R129). -/
def State.holdChannel (c : Fin 8) (s : State) : State :=
  if (s.channel c).state = .idle then s else s.setChannel c ((s.channel c).hold (s.rampNow c))

/-- The channel at entry to IDLE (R105). -/
def Channel.toIdle (x : Channel) : Channel :=
  { x with state := .idle, strokes := [], current := none, plan := none, mergingFrom := none,
           rampLen := 0, rampProgress := 0 }

/-- The channel's part in an entry to IDLE (R105). -/
def State.idleChannel (c : Fin 8) (s : State) : State :=
  (s.setChannel c (s.channel c).toIdle).setRatio (.foil c) 0

/-- An assigned channel at START_RUN (R105). -/
def Channel.start (x : Channel) (p : FoilParams) : Channel :=
  { x with state := .standing, strokes := [], current := none, plan := none, rampLen := 0,
           rampProgress := 0, mergingFrom := none, fraction := 0, runUsed := 0, params := p }

/-- The channel's part in START_RUN (R102, R103, R105). -/
def State.startChannel (c : Fin 8) (s : State) : State :=
  if (s.chanBlock c).assigned then
    let p := s.job.channelParams (s.chanBlock c)
    (s.setChannel c ((s.channel c).start p)).setRatio (.foil c) p.fs
  else s

end Sys2Proof.Machine
end

