-- ==== Sys2Proof/Machine/Stations.lean ====
section
/-! DEFINITION. The impression stations (chapters 4 and 5): die faces and zones, drift and shifts,
commit, zone-start and zone-end events, the throw, the dwell lift, and the departures from TRACKING. -/

namespace Sys2Proof.Machine

/-! ## The throw -/

/-- A throw that is CLOSING or ON. -/
def Throw.engaged : Throw → Bool
  | .closing | .on => true
  | _ => false

/-- A throw sent to OPENING from CLOSING or ON, the travel timer loaded afresh and the dwell count at 0
(R91, R92, R93); a throw in any other state goes on as it stands. -/
def Station.openThrow (x : Station) (offTime : Nat) : Station :=
  if x.throw.engaged then { x with throw := .opening, timer := offTime, dwell := 0 } else x

/-- The throw of station `st` opened (R91, R92). -/
def State.openThrow (st : Fin 4) (s : State) : State :=
  s.setStation st ((s.station st).openThrow (s.block st).throwOff)

/-- The run is RUNNING or DRAINING. -/
def State.moving (s : State) : Bool := s.jobs.run == .running || s.jobs.run == .draining

/-- The close distance (section 5.1). -/
def State.closeDistance (s : State) (st : Fin 4) : Nat := s.planned (s.block st).throwOn

/-- The open distance (section 5.1). -/
def State.openDistance (s : State) (st : Fin 4) : Nat := s.planned (s.block st).throwOff

/-- The travel distance (section 5.1). -/
def State.travelDistance (s : State) (st : Fin 4) : Nat :=
  s.planned ((s.block st).throwOn + (s.block st).throwOff)

/-- The station's next strike: the oldest row with a strike outcome whose zone end is to come (R90). -/
def State.nextStrike (s : State) (st : Fin 4) : Option RowCtx :=
  s.track.find? fun r => r.liveStrike st

/-- The web is at or beyond the next strike's close point (R90). -/
def State.closePointReached (s : State) (st : Fin 4) : Bool :=
  match (s.nextStrike st).bind fun r => r.stations.get st with
  | some e => atOrBeyond s.web (moved e.zoneStart (-(s.closeDistance st : Int)))
  | none => false

/-- The close condition (R90). -/
def State.closeDue (s : State) (st : Fin 4) : Bool :=
  (s.station st).state == .tracking && s.moving && (s.station st).throw == .off &&
    s.closePointReached st

/-- The close condition tested (R90). -/
def State.closeTest (st : Fin 4) (s : State) : State :=
  if s.closeDue st then
    s.setStation st { s.station st with throw := .closing, timer := (s.block st).throwOn }
  else s

/-! ## States -/

/-- The outcome that names a station state (R77, R82). -/
def StationState.outcome : StationState → RowOutcome
  | .heatWait => .heatWait
  | .lifted => .lifted
  | .faulted => .faulted
  | _ => .catching

/-- The row is a strike at the station whose zone-start event is to come (R77). -/
def RowCtx.unstartedStrike (r : RowCtx) (st : Fin 4) : Bool :=
  match r.stations.get st with
  | some e => e.struck && !e.startTaken
  | none => false

/-- The strikes whose zones have not started take the name of the state entered (R77). -/
def StationEntry.rename (o : RowOutcome) (e : StationEntry) : StationEntry :=
  if e.struck && !e.startTaken then { e with outcome := some o } else e

/-- Rows handed to the channels serving a station for withdrawal (R77, R85, R128), one after another as
listed. A channel takes the first-stroke rule after each row (R128), so it may engage a stroke of a row
listed later, which that row's own withdrawal then leaves (DESIGN CHOICE, log entry 33). -/
def State.withdrawRows (st : Fin 4) : List Word → State → State
  | [], s => s
  | n :: ns, s => (s.serving st (State.withdraw n)).withdrawRows st ns

/-- What leaving TRACKING for the state `dest` does to the rows (R77). The rule gives the handing over no
order: the model renames every row first and hands the rows over oldest first (DESIGN CHOICE, log entry
33). -/
def State.departure (st : Fin 4) (dest : StationState) (s : State) : State :=
  let rows := (s.track.filter fun r => r.unstartedStrike st).map RowCtx.row
  (s.mapEntries st (StationEntry.rename dest.outcome)).withdrawRows st rows

/-- The station state changed, the dwell count at 0 (R93). -/
def State.setState (st : Fin 4) (dest : StationState) (s : State) : State :=
  s.setStation st { s.station st with state := dest, dwell := 0 }

/-- The station leaves its state for `dest` with its throw forced off, and where it was TRACKING its
unstarted strikes are renamed and withdrawn (R77, R92). -/
def State.leaveFor (st : Fin 4) (dest : StationState) (s : State) : State :=
  let tracking := (s.station st).state == .tracking
  let s := (s.openThrow st).setState st dest
  if tracking then s.departure st dest else s

/-! ## Die faces and zones -/

/-- The position of the kind B + k × `p` nearest `x` (R54). -/
def nearest (base x : Pos) (p : Nat) : Pos := moved x (reduceBy (dist x base) p)

/-- The row's arrival at the station (R61). -/
def State.arrival (s : State) (st : Fin 4) (r : RowCtx) : Pos :=
  moved r.lead (s.block st).distance

/-- The images on the active lanes of the station's plate (R80). -/
def State.zoneImages (s : State) (st : Fin 4) : List Image :=
  ((s.plate st).images.mapIdx fun l xs => if s.job.laneActive l.val then xs else []).toList.flatten

/-- The least start of images; 0 where there is none. -/
def firstStart : List Image → Nat
  | [] => 0
  | [i] => i.start
  | i :: rest => min i.start (firstStart rest)

/-- The greatest end of images; 0 where there is none. -/
def lastEnd : List Image → Nat
  | [] => 0
  | i :: rest => max (i.start + i.len) (lastEnd rest)

/-- The zone start offset (R80). -/
def State.zoneStartOffset (s : State) (st : Fin 4) : Int :=
  (firstStart (s.zoneImages st) : Int) - (s.block st).guard

/-- The zone end offset (R80). -/
def State.zoneEndOffset (s : State) (st : Fin 4) : Int :=
  (lastEnd (s.zoneImages st) : Int) + (s.block st).guard

/-- The commit point: the zone start less the pitch (R80). -/
def State.commitPoint (s : State) (st : Fin 4) (e : StationEntry) : Pos :=
  moved e.zoneStart (-(s.pitch st : Int))

/-- An entry whose web goes from `w` to `w'` while its face goes to `face'`: positions reached by it are
marked due (R5, R62). -/
def StationEntry.advance (w w' face' : Pos) (e : StationEntry) : StationEntry :=
  let e' := { e with face := face' }
  { e' with
    startDue := e.startDue || (!e.startTaken && reaches w e.zoneStart w' e'.zoneStart)
    endDue := e.endDue || (!e.endTaken && reaches w e.zoneEnd w' e'.zoneEnd) }

/-- The entry of one station at a new row (R31, R61, R80). -/
def State.newEntry (s : State) (st : Fin 4) (r : RowCtx) : StationEntry :=
  { committed := false, outcome := none, error := none, trim := 0
    face := nearest (s.station st).base (s.arrival st r) (s.pitch st)
    zoneStartOff := s.zoneStartOffset st, zoneEndOff := s.zoneEndOffset st
    startDue := false, startTaken := false, endDue := false, endTaken := false, commitOwed := false }

/-- The station takes a new row: it is placed on a die face, and B is re-based (R54, R61, R80). -/
def State.placeRow (st : Fin 4) (r : RowCtx) (s : State) : State :=
  let s := s.mapRow r.row fun q => { q with stations := q.stations.set st (some (s.newEntry st r)) }
  s.setStation st
    { s.station st with
      base := nearest (s.station st).base (s.arrival st r) (s.plate st).revolution }

/-! ## Shifts -/

/-- The row's zone-end event at the station is to come (R62). -/
def RowCtx.endToCome (r : RowCtx) (st : Fin 4) : Bool :=
  match r.stations.get st with
  | some e => !e.endTaken
  | none => false

/-- The row's zone end has been reached and its event waits for its turn. -/
def RowCtx.endWaits (r : RowCtx) (st : Fin 4) : Bool :=
  match r.stations.get st with
  | some e => e.endDue && !e.endTaken
  | none => false

/-- The row has been committed at the station. -/
def RowCtx.committedAt (r : RowCtx) (st : Fin 4) : Bool :=
  match r.stations.get st with
  | some e => e.committed
  | none => true

/-- The row's commit at the station fell due earlier in the step, so that the row after it need not wait
for it (R81). -/
def RowCtx.owedAt (r : RowCtx) (st : Fin 4) : Bool :=
  match r.stations.get st with
  | some e => e.commitOwed
  | none => true

/-- The commits that a test of R81 finds due, oldest row first: the row before is `ahead`, off the track,
committed or itself due; the commit point is reached; and a row follows or the run is DRAINING. -/
def latchCommits (st : Fin 4) (reached : StationEntry → Bool) (draining : Bool) :
    Bool → List RowCtx → List RowCtx
  | _, [] => []
  | ahead, r :: rest =>
    let due := ahead && (draining || !rest.isEmpty)
    let r := r.mapStation st fun e =>
      { e with commitOwed := e.commitOwed || (!e.committed && due && reached e) }
    r :: latchCommits st reached draining (r.committedAt st || r.owedAt st) rest

/-- The station tests its rows for their commits, and what is due stays due although a later shift of the
same step moves the commit point beyond the web again (R58, R62, R81). -/
def State.latchCommits (st : Fin 4) (s : State) : State :=
  if s.activeAt st then
    s.withTrack (Machine.latchCommits st (fun e => atOrBeyond s.web (s.commitPoint st e))
      (s.jobs.run == .draining) true s.track)
  else s

/-- A shift of the station's boundaries by `k` ticks, later where positive: B and the rows chosen move,
what this reaches is marked due, commits among it, the channels take what it brings due, and the close
condition is tested (R62, R81, R90, R107). The rules give no order between the zone events a shift makes due and the close
condition it tests: the model tests the condition at the shift and takes the zone events after it
(DESIGN CHOICE, log entry 29). -/
def State.shiftRows (st : Fin 4) (k : Int) (moves : RowCtx → Bool) (s : State) : State :=
  let w := s.web
  let s := s.setStation st { s.station st with base := moved (s.station st).base k }
  let s := s.withTrack (s.track.map fun r =>
    if moves r then r.mapStation st fun e => e.advance w w (moved e.face k) else r)
  ((s.latchCommits st).serving st State.foilRecheck).closeTest st

/-- A shift by `k` ticks, which moves every row whose zone-end event is to come (R62). -/
def State.shift (st : Fin 4) (k : Int) (s : State) : State :=
  s.shiftRows st k fun r => r.endToCome st

/-- One-tick shifts towards `dir`, one after another, in one event (R56). A row whose zone end one of them
reaches is moved by no later one, since its zone-end event falls at that shift (R62, R63); the rows
`waiting`, whose zone end was reached before the first of them, move as in any shift. -/
def State.tickShifts (st : Fin 4) (dir : Int) (waiting : List Word) : Nat → State → State
  | 0, s => s
  | n + 1, s =>
    (s.shiftRows st dir fun r =>
      r.endToCome st && (!r.endWaits st || waiting.contains r.row)).tickShifts st dir waiting n

/-- The magnitude the drift remainder stays below: 65,536 × S (R56). -/
def State.driftModulus (s : State) (st : Fin 4) : Int := 65536 * ((s.block st).steps : Int)

/-- A source amount reaches the drift remainder, with the one-tick shifts it carries, one for each whole
65,536 × S by which the remainder passes its limit (R56). -/
def State.drift (st : Fin 4) (amount : Int) (s : State) : State :=
  let x := s.station st
  let total := x.drift + amount * x.rho
  let k := total.tdiv (s.driftModulus st)
  let s := s.setStation st { x with drift := total - k * s.driftModulus st }
  let waiting := (s.track.filter fun r => r.endWaits st).map RowCtx.row
  s.tickShifts st k.sign waiting k.natAbs

/-- A source amount delivered to the cylinder generator (R15). -/
def State.deliverCylinder (st : Fin 4) (amount : Int) (s : State) : State :=
  s.setGen (.cylinder st) ((s.cylGens.get st).deliver amount)

/-! ## Commit -/

/-- The oldest row not committed at the station (R81). -/
def State.firstUncommitted (s : State) (st : Fin 4) : Option RowCtx :=
  s.track.find? fun r => !r.committedAt st

/-- The row whose commit event is due at the station: it fell due in an earlier test, or the three
conditions hold (R81). -/
def State.commitDue (s : State) (st : Fin 4) : Option RowCtx :=
  match s.firstUncommitted st with
  | some r =>
    match r.stations.get st with
    | some e =>
      if s.activeAt st && (e.commitOwed || atOrBeyond s.web (s.commitPoint st e) &&
          ((s.after? r.row).isSome || s.jobs.run == .draining)) then some r
      else none
    | none => none
  | none => none

/-- The start of a SPLICE row's splice span (R84). -/
def State.spanStart (s : State) (st : Fin 4) (r : RowCtx) : Pos :=
  moved (s.arrival st r) (-((s.block st).guard : Int))

/-- The end of a SPLICE row's splice span (R84). -/
def State.spanEnd (s : State) (st : Fin 4) (r : RowCtx) : Pos :=
  moved (s.arrival st r) ((s.pitch st : Int) + (s.block st).guard)

/-- A row struck before a SPLICE row clears it (R84). -/
def State.clearsBefore (s : State) (st : Fin 4) (e : StationEntry) (splice : RowCtx) : Bool :=
  atOrBeyond (moved (s.spanStart st splice) (-(s.openDistance st : Int))) e.zoneEnd

/-- A row struck after a SPLICE row clears it (R84). -/
def State.clearsAfter (s : State) (st : Fin 4) (e : StationEntry) (splice : RowCtx) : Bool :=
  atOrBeyond e.zoneStart (moved (s.spanEnd st splice) (s.closeDistance st))

/-- The row carries the verdict SPLICE. -/
def isSplice (r : Option RowCtx) : Bool :=
  match r with
  | some r => r.verdict == .splice
  | none => false

/-- The splice clearance test of a STAMP row with the neighbours given passes (R84). -/
def State.clearsSplices (s : State) (st : Fin 4) (e : StationEntry) (prev next : Option RowCtx) :
    Bool :=
  (match next with
    | some q => q.verdict != .splice || s.clearsBefore st e q
    | none => true) &&
  (match prev with
    | some p => p.verdict != .splice || s.clearsAfter st e p
    | none => true)

/-- There is at least the travel distance from the zone end of one row to the zone start of another
(R83). -/
def State.roomBetween (s : State) (st : Fin 4) (a b : Option RowCtx) : Bool :=
  match a.bind fun r => r.stations.get st, b.bind fun r => r.stations.get st with
  | some x, some y => (s.travelDistance st : Int) ≤ dist x.zoneEnd y.zoneStart
  | _, _ => false

/-- A SKIP row's skip is feasible at the station (R83): its predecessor on the track, its successor. -/
def State.skipFeasible (s : State) (st : Fin 4) (n : Word) : Bool :=
  let prev := s.before? n
  let next := s.after? n
  (match prev with
    | some p => !p.struckAt st
    | none => true) ||
  (match next with
    | some q => q.verdict == .skip || q.verdict == .splice
    | none => false) ||
  s.roomBetween st prev next

/-- The outcome a commit decides (R82). -/
def State.decideOutcome (s : State) (st : Fin 4) (r : RowCtx) (e : StationEntry) : RowOutcome :=
  match (s.station st).state with
  | .tracking =>
    match r.verdict with
    | .splice => if (s.station st).risk.contains r.row then .spliceRisk else .spliceCleared
    | .skip => if s.skipFeasible st r.row then .skipped else .struckUnskipped
    | .stamp =>
      if s.clearsSplices st e (s.previous? r.row) (s.after? r.row) then .struck else .sacrificed
  | other => other.outcome

/-- The previous row was struck at the station and its zone-end event there has been taken (R91). -/
def State.previousEnded (s : State) (st : Fin 4) (n : Word) : Bool :=
  match s.previous? n with
  | some p => p.endedStrike st
  | none => false

/-- The commit of a row at a station (R81, R82, R86), with what a strike or no strike calls for at once:
the handover and the close test, or the opening of the throw (R90, R91). -/
def State.commit (st : Fin 4) (r : RowCtx) (s : State) : State :=
  match r.stations.get st with
  | none => s
  | some e =>
    let o := s.decideOutcome st r e
    let s := s.mapEntry st r.row fun e => { e with committed := true, outcome := some o }
    let x := s.station st
    let s := s.setStation st { x with risk := x.risk.filter fun n => n != r.row }
    if o.strike then (s.serving st (State.handover r.row)).closeTest st
    else if s.previousEnded st r.row then s.openThrow st
    else s

/-- The commits due at a station taken one after another (R81, R98). -/
def State.commitAll (st : Fin 4) : Nat → State → State
  | 0, s => s
  | fuel + 1, s =>
    match s.commitDue st with
    | some r => (s.commit st r).commitAll st fuel
    | none => s

/-! ## Zone events -/

/-- STRUCK and STRUCK_UNSKIPPED become STRUCK_LATE where the throw is not ON (R87). -/
def StationEntry.checkStart (throw : Throw) (e : StationEntry) : StationEntry :=
  if throw != .on && (e.outcome == some .struck || e.outcome == some .struckUnskipped) then
    { e with outcome := some .struckLate }
  else e

/-- The zone-start event of row `n` (R81, R87): an overdue commit, then the check of the throw. -/
def State.zoneStartEvent (st : Fin 4) (n : Word) (s : State) : State :=
  let s := s.mapEntry st n fun e => { e with startTaken := true }
  let s :=
    match s.row? n with
    | some r => if r.committedAt st then s else s.commit st r
    | none => s
  s.mapEntry st n (StationEntry.checkStart (s.station st).throw)

/-- A mark status under which a row steers the die (R64, R66). -/
def MarkStatus.steers : MarkStatus → Bool
  | .missing => false
  | _ => true

/-- The registration error of a row at its zone end (R63). -/
def State.measure (s : State) (st : Fin 4) (r : RowCtx) (e : StationEntry) : Option Int :=
  if (s.station st).indexSeen && (s.station st).state != .faulted then
    some (reduceBy (dist (s.arrival st r) e.face) (s.pitch st))
  else none

/-- The trim a station in state `x` decides for a measured error (R64). -/
def StationBlock.trimFor (b : StationBlock) (x : StationState) (error : Int) : Int :=
  match x with
  | .tracking =>
    if error.natAbs ≤ b.deadBand then 0 else clampInt (-(b.trimStep : Int)) b.trimStep error
  | .catching => clampInt (-(b.catchStep : Int)) b.catchStep error
  | _ => 0

/-- The trim of a row at its zone end (R64). -/
def State.decideTrim (s : State) (st : Fin 4) (r : RowCtx) (error : Option Int) : Int :=
  match error with
  | some e => if r.status.steers then (s.block st).trimFor (s.station st).state e else 0
  | none => 0

/-- A trim applied (R65): delivered to the generator, carried to the later rows as a shift, and added to
the trim total; the source amount reaches the drift remainder (R56). A trim of 0 does nothing. The rules
give no order between the shift of −t and the drift shifts its source amount brings: the model shifts by
−t first (DESIGN CHOICE, log entry 6). -/
def State.applyTrim (st : Fin 4) (t : Int) (s : State) : State :=
  if t = 0 then s
  else
    let s := s.deliverCylinder st t
    let x := s.station st
    let s := s.setStation st { x with trimTotal := x.trimTotal + BitVec.ofInt 32 t }
    (s.shift st (-t)).drift st t

/-- The catch band check (R66). -/
def State.bandCheck (st : Fin 4) (r : RowCtx) (error : Option Int) (s : State) : State :=
  match error with
  | none => s
  | some e =>
    if r.status.steers then
      match (s.station st).state with
      | .catching =>
        if e.natAbs ≤ (s.block st).catchBand then (s.setState st .tracking).raise .regCaught else s
      | .tracking =>
        if 2 * (s.block st).catchBand < e.natAbs then (s.leaveFor st .catching).raise .regDrift
        else s
      | _ => s
    else s

/-- The row is on the track committed at the station to an outcome that is no strike. -/
def committedNoStrike (st : Fin 4) (r : Option RowCtx) : Bool :=
  match r.bind fun r => r.stations.get st with
  | some e => e.committed && !e.struck
  | none => false

/-- The opening rule at the zone end of row `n` (R91, first case). -/
def State.openAtEnd (st : Fin 4) (n : Word) (s : State) : State :=
  match s.row? n with
  | some r =>
    if r.struckAt st &&
        (committedNoStrike st (s.after? n) ||
          (s.jobs.run == .draining && n == s.mark.lastOpened)) then s.openThrow st
    else s
  | none => s

/-- The registration written at a zone end: error and trim in the row's entry, error as the last error
(R63, R65). -/
def State.writeRegistration (st : Fin 4) (n : Word) (error : Option Int) (t : Int) (s : State) :
    State :=
  let s := s.mapEntry st n fun e => { e with error := error, trim := t, endTaken := true }
  match error with
  | some e => s.setStation st { s.station st with lastError := some e }
  | none => s

/-- The zone-end event of row `n` (R88): measurement, trim, band check, opening rule. Where the trim's shift brings
a zone start or a zone end of a later row to the web (R62), the rules do not say whether that row's event falls at
the shift or after the band check and the opening rule (R66, R77, R91): the model takes it after them, so a strike
after row `n` whose zone start the shift reaches is still one not started when the band check takes the station
out of TRACKING (DESIGN CHOICE, log entry 29). -/
def State.zoneEndEvent (st : Fin 4) (n : Word) (s : State) : State :=
  match s.row? n with
  | none => s
  | some r =>
    match r.stations.get st with
    | none => s
    | some e =>
      let error := s.measure st r e
      let t := s.decideTrim st r error
      let s := s.writeRegistration st n error t
      let s := s.applyTrim st t
      let s := s.bandCheck st r error
      s.openAtEnd st n

/-- The entry has a zone event due that has not been taken. -/
def StationEntry.eventDue (e : StationEntry) : Bool :=
  (e.startDue && !e.startTaken) || (e.endDue && !e.endTaken)

/-- The row has a zone event due at the station. -/
def RowCtx.eventDueAt (r : RowCtx) (st : Fin 4) : Bool :=
  match r.stations.get st with
  | some e => e.eventDue
  | none => false

/-- The zone events due at a station, oldest row first, a row's zone start before its zone end (R80,
R63). An event may make further ones due by the shift it carries (R62): each is taken
once the event that made it due is done (DESIGN CHOICE, log entry 29). Where one event makes the zone end
of a row and the zone start of the row after it due, the rules give no order: the older row's zone end is
taken first (DESIGN CHOICE, log entry 29). -/
def State.zoneEvents (st : Fin 4) : Nat → State → State
  | 0, s => s
  | fuel + 1, s =>
    match s.track.find? fun r => r.eventDueAt st with
    | none => s
    | some r =>
      let started :=
        match r.stations.get st with
        | some e => e.startTaken
        | none => true
      (if started then s.zoneEndEvent st r.row else s.zoneStartEvent st r.row).zoneEvents st fuel

/-- The zone events due at a station: each row has at most two. -/
def State.runZoneEvents (st : Fin 4) (s : State) : State := s.zoneEvents st (2 * s.track.length)

/-! ## At a web position change -/

/-- The station's part in a web position change from `p` by `delta` ticks (R15, R56, R62, R90): what the
web reaches is marked due, commits among it (R81), the cylinder turns and the boundaries drift, the zone events fall, and the
close condition is tested. -/
def State.stationWeb (p : Pos) (delta : Int) (st : Fin 4) (s : State) : State :=
  if s.activeAt st then
    let s := (s.mapEntries st fun e => e.advance p s.web e.face).latchCommits st
    let s := (s.deliverCylinder st delta).drift st delta
    (s.runZoneEvents st).closeTest st
  else s

/-! ## At a row open -/

/-- An unstarted strike given up to a splice (R85). -/
def State.sacrifice (st : Fin 4) (n : Word) (s : State) : State :=
  let s := s.mapEntry st n fun e => { e with outcome := some .sacrificed }
  let s := s.serving st (State.withdraw n)
  match s.before? n with
  | some p => if p.liveStrike st then s else s.openThrow st
  | none => s.openThrow st

/-- A SPLICE row enters the risk set (R85). -/
def State.addRisk (st : Fin 4) (n : Word) (s : State) : State :=
  if (s.station st).risk.contains n then s
  else
    (s.setStation st { s.station st with risk := (s.station st).risk ++ [n] }).raiseStop .spliceRisk
      .spliceRisk

/-- The strikes still to end that cannot clear the SPLICE row `r`, oldest first (R85). -/
def State.splicedStrikes (st : Fin 4) (r : RowCtx) (s : State) : List Word :=
  (s.track.filter fun q =>
    q.row != r.row && q.liveStrike st &&
      match q.stations.get st with
      | some e => !s.clearsBefore st e r
      | none => false).map RowCtx.row

/-- Each of the rows sacrificed, or where its zone has started the SPLICE row put at risk (R85). The rule
gives the failing rows no order: the model takes them oldest first, so a row finds those before it as they
are after their own sacrifice (DESIGN CHOICE, log entry 32). -/
def State.giveUp (st : Fin 4) (splice : Word) : List Word → State → State
  | [], s => s
  | n :: ns, s =>
    let s :=
      match s.entry? st n with
      | some e => if e.startTaken then s.addRisk st splice else s.sacrifice st n
      | none => s
    s.giveUp st splice ns

/-- The test a station makes at the row open of a SPLICE row (R85). -/
def State.spliceTest (st : Fin 4) (r : RowCtx) (s : State) : State :=
  if r.verdict == .splice && (s.station st).state == .tracking then
    s.giveUp st r.row (s.splicedStrikes st r)
  else s

/-- The station's part in a row open (R28, R61, R85). -/
def State.stationOpen (r : RowCtx) (st : Fin 4) (s : State) : State :=
  if s.activeAt st then (s.placeRow st r).spliceTest st r else s

/-! ## Index events -/

/-- A row's entry re-placed on the new boundaries where its zone has not started (R58). -/
def State.replaceEntry (s : State) (st : Fin 4) (r : RowCtx) : RowCtx :=
  r.mapStation st fun e =>
    if e.startTaken then e
    else e.advance s.web s.web (nearest (s.station st).base (s.arrival st r) (s.pitch st))

/-- The first index after the index-seen flag was cleared (R58). -/
def State.firstIndex (st : Fin 4) (x : Pos) (s : State) : State :=
  let s := s.setStation st { s.station st with base := x, drift := 0, indexSeen := true }
  let s := (s.withTrack (s.track.map fun r => s.replaceEntry st r)).latchCommits st
  ((s.serving st State.foilRecheck).runZoneEvents st).closeTest st

/-- The station faults with CYLINDER_SLIP (R59). -/
def State.slip (st : Fin 4) (s : State) : State :=
  let s := s.leaveFor st .faulted
  (s.setStation st { s.station st with fault := true }).raiseStop .stationFault .stationFault

/-- The deviation of an index from the nearest face-0 boundary (R59). -/
def State.slipOf (s : State) (st : Fin 4) (x : Pos) : Int :=
  reduceBy (dist (s.station st).base x) (s.plate st).revolution

/-- An index event at the position `p` (R58, R59). -/
def State.indexEvent (st : Fin 4) (p : Pos) (s : State) : State :=
  let x := moved p (s.block st).indexOffset
  if (s.station st).indexSeen then
    if (s.block st).slipTol < (s.slipOf st x).natAbs then s.slip st else s
  else s.firstIndex st x

/-- An index edge is taken as an index event (R57). -/
def State.indexTaken (s : State) (st : Fin 4) : Bool :=
  s.activeAt st && (s.station st).state != .faulted && s.wpu.direction == .forward &&
    (s.cylGens.get st).owed == 0

/-! ## Heat, lift and travel -/

/-- The station is of a heated type in the CURRENT job and not INACTIVE. -/
def State.heatedActive (s : State) (st : Fin 4) : Bool := (s.block st).heated && s.activeAt st

/-- The heater-ready input sampled at an expiry (R75): the run of samples of the level not accepted,
held once it is long enough for the change to be accepted. -/
def Station.sampleHeater (x : Station) (level : Bool) : Station :=
  if heaterSamples ≤ x.heaterRun then x
  else { x with heaterRun := if level == x.heaterLevel then 0 else x.heaterRun + 1 }

/-- The other level has been sampled often enough to be accepted (R75). -/
def Station.heaterAccepts (x : Station) : Bool := decide (heaterSamples ≤ x.heaterRun)

/-- The heater-ready level accepted (R75). -/
def Station.acceptHeater (x : Station) (level : Bool) : Station :=
  { x with heaterLevel := level, heaterRun := 0 }

/-- What a heat loss does to a heated station that is not INACTIVE (R78). -/
def State.heatLoss (st : Fin 4) (s : State) : State :=
  let s :=
    match (s.station st).state with
    | .catching | .tracking | .lifted => s.leaveFor st .heatWait
    | _ => s
  s.raiseStop .stationHeat .stationHeat

/-- The station's lift event is due (R93). -/
def State.liftDue (s : State) (st : Fin 4) : Bool :=
  s.heatedActive st && (s.station st).state == .tracking && (s.station st).throw.engaged &&
    decide (s.job.dwellLimit ≤ (s.station st).dwell)

/-- The dwell count at a speed update (R93). -/
def State.countDwell (st : Fin 4) (s : State) : State :=
  let x := s.station st
  if (s.block st).heated && x.state == .tracking && x.throw.engaged && s.wpu.v8 < s.job.crawl then
    s.setStation st { x with dwell := x.dwell + 1 }
  else s.setStation st { x with dwell := 0 }

/-- A LIFTED station finding v8 at or above the resume speed (R95). -/
def State.resumeLifted (st : Fin 4) (s : State) : State :=
  if (s.station st).state == .lifted && (s.job.resume : Int) ≤ s.wpu.v8 then s.setState st .tracking
  else s

/-- The travel of the station's throw is complete (R89). -/
def State.travelDone (s : State) (st : Fin 4) : Bool :=
  (s.station st).timer == 0 &&
    ((s.station st).throw == .closing || (s.station st).throw == .opening)

/-- The completion of the throw's travel (R89): CLOSING becomes ON, OPENING becomes OFF and is then
tested against the close condition. -/
def State.completeTravel (st : Fin 4) (s : State) : State :=
  match (s.station st).throw with
  | .closing => s.setStation st { s.station st with throw := .on }
  | .opening => (s.setStation st { s.station st with throw := .off }).closeTest st
  | _ => s

/-- The station's part in an expiry of the timebase (R75, R89, R90, R93, R95). -/
def State.stationExpiry (heaters : Four Bool) (st : Fin 4) (s : State) : State :=
  let s := s.setStation st ((s.station st).sampleHeater (heaters.get st))
  let s := s.setStation st { s.station st with timer := (s.station st).timer - 1 }
  ((s.countDwell st).resumeLifted st).closeTest st

/-! ## Start, hold and end of a run -/

/-- The station at START_RUN (R55, R72, R76): its ratio residual, and HEAT_WAIT where it is heated and
its heater is not ready. -/
def Station.start (x : Station) (heated : Bool) (rho : Int) : Station :=
  { x with state := if heated && !x.heaterLevel then .heatWait else .catching
           fault := false, indexSeen := false, rho := rho, drift := 0, trimTotal := 0
           lastError := none, throw := .off, timer := 0, dwell := 0, risk := [] }

/-- The cylinder ratio C for `steps` steps per revolution of `r` ticks (R55). -/
def cylinderRatio (steps r : Nat) : Nat := roundHalfUp (steps * 65536) r

/-- The ratio residual (R55). -/
def ratioResidual (steps r : Nat) : Int := 65536 * (steps : Int) - cylinderRatio steps r * r

/-- The station's part in START_RUN (R15, R55, R72, R76); the trim total is 0 for every station (R144). -/
def State.startStation (st : Fin 4) (s : State) : State :=
  let b := s.block st
  let r := (s.plate st).revolution
  if b.active then
    (s.setStation st ((s.station st).start b.heated (ratioResidual b.steps r))).setRatio
      (.cylinder st) (cylinderRatio b.steps r)
  else s.setStation st { s.station st with trimTotal := 0 }

/-- The station at entry to IDLE (R72, R99). -/
def Station.toInactive (x : Station) : Station :=
  { x with state := .inactive, fault := false, indexSeen := false, rho := 0, drift := 0
           trimTotal := 0, lastError := none, throw := .off, timer := 0, dwell := 0, risk := [] }

/-- The station's part in an entry to IDLE (R15, R72, R99). -/
def State.idleStation (st : Fin 4) (s : State) : State :=
  (s.setStation st (s.station st).toInactive).setRatio (.cylinder st) 0

/-- The state a hold leaves a station in (R96). -/
def StationState.held : StationState → StationState
  | .tracking | .lifted => .catching
  | x => x

/-- The station at a hold (R96). -/
def Station.hold (x : Station) (offTime : Nat) : Station :=
  { x.openThrow offTime with state := x.state.held, dwell := 0, risk := [] }

/-- An outcome ABANDONED where the zone-end event is to come (R96, R150). -/
def StationEntry.abandon (e : StationEntry) : StationEntry :=
  if e.endTaken then e else { e with outcome := some .abandoned }

/-- The station's part in a hold (R96): its throw, its state, and the rows it will not finish. -/
def State.holdStation (st : Fin 4) (s : State) : State :=
  if s.activeAt st then
    (s.setStation st ((s.station st).hold (s.block st).throwOff)).mapEntries st
      StationEntry.abandon
  else s

/-- The last row opened was struck at the station and its zone-end event there has been taken. -/
def State.lastEnded (s : State) (st : Fin 4) : Bool :=
  match s.row? s.mark.lastOpened with
  | some r => r.endedStrike st
  | none => false

/-- The station's part in the entry to DRAINING (R91, R98): the commits that waited for a successor, and
the throw opened after the last struck row. -/
def State.drainStation (st : Fin 4) (s : State) : State :=
  if s.activeAt st then
    let s := s.commitAll st s.track.length
    if s.lastEnded st then s.openThrow st else s
  else s

end Sys2Proof.Machine
end

