-- ==== Sys2Proof/Machine/Records.lean ====
section
/-! DEFINITION. The row records (chapter 10 and section 11.8) and the retirement of rows (section 2.7). -/

namespace Sys2Proof.Machine

/-! ## Codes of the row record (R205) -/

/-- The code of a mark status. -/
def MarkStatus.code : MarkStatus → Nat
  | .first => 1
  | .found => 2
  | .missing => 3
  | .recaptured => 4

/-- The code of a verdict (R41). -/
def Verdict.code : Verdict → Nat
  | .stamp => 1
  | .skip => 2
  | .splice => 3

/-- The code of a verdict source. -/
def Source.code : Source → Nat
  | .strip => 1
  | .absent => 2
  | .early => 3
  | .stale => 4
  | .bad => 5

/-- The code of an outcome. -/
def RowOutcome.code : RowOutcome → Nat
  | .struck => 1
  | .struckLate => 2
  | .struckUnskipped => 3
  | .skipped => 4
  | .spliceCleared => 5
  | .spliceRisk => 6
  | .sacrificed => 7
  | .catching => 8
  | .heatWait => 9
  | .lifted => 10
  | .faulted => 11
  | .abandoned => 12

/-- A lane entry: error in bits 13:0, status in bits 15:14. -/
def LaneEntry.encode : LaneEntry → Nat
  | .absent => 0
  | .leading => 1 * 2 ^ 14
  | .found error => satField 14 error + 2 * 2 ^ 14
  | .missing => 3 * 2 ^ 14

/-! ## The bytes of a record (R187 to R190, R205) -/

/-- The 14 bytes of a station entry, given the row's arrival at the station. -/
def StationEntry.encode (st : Nat) (arrival : Pos) (e : StationEntry) : List Byte :=
  let outcome :=
    match e.outcome with
    | some o => o.code
    | none => 0
  leBytes 1 (st + 4 * flagBit e.committed + 8 * flagBit e.error.isSome + 16 * outcome) ++
    leBytes 3 (satField 24 (dist arrival e.face)) ++
    leBytes 5 (satField 18 (e.error.getD 0) + 2 ^ 18 * satField 18 e.trim) ++
    leBytes 5 (satField 20 e.zoneStartOff + 2 ^ 20 * satField 20 e.zoneEndOff)

/-- The 6 bytes of a channel entry. -/
def ChannelEntry.encode (c : Nat) (e : ChannelEntry) : List Byte :=
  leBytes 1 (c + 8 * flagBit e.late) ++ leBytes 3 (min 16777215 e.foilUsed) ++
    leBytes 1 (min 255 e.hops) ++ leBytes 1 (min 255 e.merges)

/-- Bytes padded with zeros to `n`. -/
def padTo (n : Nat) (bs : List Byte) : List Byte := bs ++ List.replicate (n - bs.length) 0

/-- The station entries of a record, in station order (R189). -/
def State.stationEntryBytes (s : State) (r : RowCtx) : List (List Byte) :=
  (r.stations.mapIdx fun st e =>
    e.map fun e => e.encode st.val (s.arrival st r)).toList.filterMap id

/-- The late flag that a row's record shows for a channel. It is clear where the channel's station did not
strike the row (R190), although the list overflowed at its handover (R108), unless a stroke of the row was
run all the same (R109) or a hold retires it with what it had (R150): so it reads R190 beside R108, R131 and
R150 (DEDUCED, log entry 35). -/
def State.lateShown (s : State) (r : RowCtx) (c : Fin 8) (e : ChannelEntry) : Bool :=
  e.late && (decide (0 < e.foilUsed) ||
    match (s.chanStation c).bind fun st => r.stations.get st with
    | some x => x.struck || x.outcome == some .abandoned
    | none => false)

/-- The channel entries of a record, in channel order (R190). -/
def State.channelEntryBytes (s : State) (r : RowCtx) : List (List Byte) :=
  (r.channels.mapIdx fun c e =>
    e.map fun e => { e with late := s.lateShown r c e }.encode c.val).toList.filterMap id

/-- The 128 bytes of a row's record, with the row number field as given. -/
def State.recordBytes (s : State) (r : RowCtx) (rowField : Nat) : List Byte :=
  let sts := s.stationEntryBytes r
  let chs := s.channelEntryBytes r
  leBytes 4 rowField ++ leBytes 4 r.jobTag.toNat ++ leBytes 4 r.lead.toNat ++
    leBytes 1 r.status.code ++ leBytes 1 r.verdict.code ++ leBytes 1 r.source.code ++
    leBytes 1 (sts.length + 16 * chs.length) ++
    (r.lanes.toList.map fun l => leBytes 2 l.encode).flatten ++
    padTo 56 sts.flatten ++ padTo 48 chs.flatten

/-- The slot of row `n` in the record strip (section 10.1). -/
def recordSlot (n : Word) : Nat := recordOffset + 128 * (n.toNat % 128)

/-- The record writer's three stages: the first 8 bytes with row number 0, the other fifteen units in
order, the first 8 bytes again with the row number (R187). -/
def State.writeRecord (s : State) (r : RowCtx) : State :=
  let a := recordSlot r.row
  let bs := s.recordBytes r r.row.toNat
  let m := s.mem.write a ((s.recordBytes r 0).take 8)
  let m := (List.range 15).foldl
    (fun m i => m.write (a + 8 * (i + 1)) ((bs.drop (8 * (i + 1))).take 8)) m
  s.withMem (m.write a (bs.take 8))

/-! ## The record writer's figures -/

/-- The write of row `n`'s record laps the line controller (R191, R192). -/
def State.laps (s : State) (n : Word) : Bool :=
  0 < dist (s.mem.word takenThroughOffset) (n - 128)

/-- Records written through set to `n` and published (R175, R187). -/
def State.setWrittenThrough (n : Word) (s : State) : State :=
  (s.withRecords { s.records with writtenThrough := n }).writeWord 0x0018 n

/-- Oldest intact advanced past the record overwritten and published (R193). -/
def State.advanceOldest (n : Word) (s : State) : State :=
  if 0 < dist s.records.oldestIntact (n - 127) then
    (s.withRecords { s.records with oldestIntact := n - 127 }).writeWord 0x001C (n - 127)
  else s

/-- The tally falls due after the record of row `n` (R195). -/
def State.tallyDue (s : State) (n : Word) : Bool :=
  match s.job.tallyRows with
  | some k => (n - s.jobs.firstRow + 1).toNat % k == 0
  | none => false

/-- The record of a row written, with all that a record write does (R187 to R195). -/
def State.record (r : RowCtx) (s : State) : State :=
  let s := if s.laps r.row then s.raise .recordLapped else s
  let s := s.writeRecord r
  let s := s.setWrittenThrough r.row
  let s := s.advanceOldest r.row
  if s.tallyDue r.row then s.raise .tally else s

/-- Rows retired, oldest first, each with a record of its own (R35, R36, R196): the first list is what
the track holds. -/
def State.retireRows : List RowCtx → State → State
  | [], s => s
  | r :: rest, s => (((s.record r).withTrack rest).withLastRetired (some r)).retireRows rest

/-- The head row retired (R35). -/
def State.retireHead (s : State) : State :=
  match s.track with
  | [] => s
  | r :: rest => ((s.record r).withTrack rest).withLastRetired (some r)

/-! ## Readiness -/

/-- The row's zone end at an active station is behind the web (R34). -/
def State.passed (s : State) (r : RowCtx) (st : Fin 4) : Bool :=
  !s.activeAt st ||
    match r.stations.get st with
    | some e => behind e.zoneEnd s.web
    | none => true

/-- No foil channel holds the row (R34). -/
def State.released (s : State) (n : Word) : Bool := s.channels.toList.all fun x => !x.holds n

/-- The head row is ready to retire (R34). -/
def State.headReady (s : State) : Bool :=
  match s.track with
  | [] => false
  | r :: _ => s.passed r 0 && s.passed r 1 && s.passed r 2 && s.passed r 3 && s.released r.row

end Sys2Proof.Machine
end

