-- ==== Sys2Proof/Machine/Live.lean ====
section
/-! DEFINITION. The live page (section 9.3 and R201). -/

namespace Sys2Proof.Machine

/-- The code of a run state. -/
def RunState.code : RunState → Nat
  | .idle => 0
  | .armed => 1
  | .running => 2
  | .draining => 3
  | .held => 4

/-- The code of a hold cause. -/
def HoldCause.code : HoldCause → Nat
  | .none => 0
  | .host => 1
  | .reverse => 2
  | .encoder => 3
  | .trackFull => 4

/-- The code of a station state. -/
def StationState.code : StationState → Nat
  | .inactive => 0
  | .heatWait => 1
  | .catching => 2
  | .tracking => 3
  | .lifted => 4
  | .faulted => 5

/-- The code of a throw state. -/
def Throw.code : Throw → Nat
  | .off => 0
  | .closing => 1
  | .on => 2
  | .opening => 3

/-- The code of a channel state. -/
def ChannelState.code : ChannelState → Nat
  | .idle => 0
  | .standing => 1
  | .rampUp => 2
  | .sync => 3
  | .rampDown => 4

/-- A station block of the live page (R201). -/
def Station.liveBytes (x : Station) (owed : Int) : List Byte :=
  leBytes 1 x.state.code ++ leBytes 1 (flagBit x.fault) ++ leBytes 1 x.throw.code ++
    leBytes 1 (flagBit x.lastError.isSome) ++ leBytes 4 x.trimTotal.toNat ++
    leBytes 4 (twos 32 (x.lastError.getD 0)) ++ leBytes 4 (twos 32 owed)

/-- A channel block of the live page (R201). -/
def Channel.liveBytes (x : Channel) (owed : Int) : List Byte :=
  leBytes 1 x.state.code ++ leBytes 3 0 ++ leBytes 4 x.remaining ++ leBytes 4 x.runUsed ++
    leBytes 4 (twos 32 owed)

/-- The presence bits of the job slots (R201). -/
def JobControl.presence (j : JobControl) : Nat :=
  flagBit j.next.isSome + 2 * flagBit j.current.isSome

/-- The tag of NEXT; 0 while it is empty (R201). -/
def JobControl.nextTag (j : JobControl) : Nat :=
  match j.next with
  | some x => x.tag.toNat
  | none => 0

/-- The tag of CURRENT; 0 while it is empty (R201). -/
def JobControl.currentTag (j : JobControl) : Nat :=
  match j.current with
  | some x => x.job.tag.toNat
  | none => 0

/-- Every byte of the live page after the generation, as the state stands (R174, R201). -/
def State.liveBytes (s : State) : List Byte :=
  leBytes 1 s.jobs.run.code ++ leBytes 1 s.jobs.holdCause.code ++
    leBytes 1 (flagBit s.jobs.stopRequest) ++ leBytes 1 (flagBit s.mark.search) ++
    leBytes 4 s.web.toNat ++ leBytes 4 s.wpu.highWater.toNat ++ leBytes 2 (twos 16 s.wpu.v8) ++
    leBytes 1 s.mark.missing ++ leBytes 1 s.jobs.presence ++ leBytes 4 s.mark.lastOpened.toNat ++
    leBytes 4 s.records.writtenThrough.toNat ++ leBytes 4 s.records.oldestIntact.toNat ++
    leBytes 2 s.jobs.stopCauses.toNat ++ leBytes 2 0 ++ leBytes 4 s.jobs.nextTag ++
    leBytes 4 s.jobs.currentTag ++ leBytes 20 0 ++
    (s.stations.mapIdx fun st x => x.liveBytes (s.cylGens.get st).owed).toList.flatten ++
    (s.channels.mapIdx fun c x => x.liveBytes (s.foilGens.get c).owed).toList.flatten

/-- The generation advanced by one and written (R174). -/
def State.bumpGeneration (s : State) : State :=
  (s.withGeneration (s.generation + 1)).writeWord 0x0000 (s.generation + 1)

/-- A live page update: an odd generation, every other field, an even generation (R174). -/
def State.liveUpdate (s : State) : State :=
  (s.bumpGeneration.writeMem 0x0004 s.liveBytes).bumpGeneration

end Sys2Proof.Machine
end

