-- ==== Sys2Proof/Machine/Run.lean ====
section
/-! DEFINITION. The run: entry to IDLE, holds, and the commands that move the run once it has begun
(chapter 7). -/

namespace Sys2Proof.Machine

/-- The mark unit with its windows, search and missing count cleared (R36, R38). -/
def MarkUnit.clear (m : MarkUnit) : MarkUnit :=
  { m with expected := none, missing := 0, search := false, held := .all none
           windows := .all none }

/-! ## Entry to IDLE -/

/-- The run enters IDLE, and each block acts for itself (R147: R12, R32, R38, R99, R105). -/
def State.enterIdle (s : State) : State :=
  let s := s.withJobs { s.jobs with run := .idle, holdCause := .none }
  let s := s.raise .runIdle
  let s := s.withMark s.mark.clear
  let s := forStations State.idleStation s
  let s := forChannels State.idleChannel s
  let s := s.withWpu { s.wpu with overspeed := false }
  (s.withTrack []).withLastRetired none

/-! ## Holds -/

/-- The stop cause of a hold cause (R149, R152). -/
def HoldCause.stop : HoldCause → StopCause
  | .reverse => .reverse
  | .encoder => .encoder
  | .trackFull => .trackFull
  | _ => .host

/-- The run can be held: it is ARMED, RUNNING or DRAINING (R148). -/
def RunState.holdable : RunState → Bool
  | .armed | .running | .draining => true
  | _ => false

/-- A hold with its cause (R149): run, attention and stop cause, then stations, channels and mark unit,
and last the rows of the track with a record each. -/
def State.hold (cause : HoldCause) (s : State) : State :=
  let s := s.withJobs { s.jobs with run := .held, holdCause := cause }
  let s := s.raiseStop .runHeld cause.stop
  let s := forStations State.holdStation s
  let s := forChannels State.holdChannel s
  let s := s.withMark s.mark.clear
  (s.retireRows s.track).withLastRetired none

/-- A hold cause reaching job control (R148). -/
def State.handHold (cause : HoldCause) (s : State) : State :=
  if s.jobs.run.holdable then s.hold cause else s

/-! ## Commands on a run under way -/

/-- The entry of the run to DRAINING (R36, R98). -/
def State.enterDraining (s : State) : State :=
  let s := s.withJobs { s.jobs with run := .draining }
  let s := s.withMark { s.mark with expected := none }
  forStations State.drainStation s

/-- END_RUN (R146). -/
def State.endRun (s : State) : State × CmdResult :=
  match s.jobs.run with
  | .idle | .draining => (s, .badState)
  | .armed | .held => (s.enterIdle, .ok)
  | .running => if s.track.isEmpty then (s.enterIdle, .ok) else (s.enterDraining, .ok)

/-- HOLD_RUN (R148). -/
def State.holdRun (s : State) : State × CmdResult :=
  if s.jobs.run.holdable then (s.hold .host, .ok) else (s, .badState)

/-- RESUME_RUN (R151). -/
def State.resumeRun (s : State) : State × CmdResult :=
  match s.jobs.run with
  | .held =>
    ((s.withJobs { s.jobs with run := .armed, holdCause := .none }).withWpu
      { s.wpu with highWater := s.web }, .ok)
  | _ => (s, .badState)

/-- The state REARM_STATION puts a station in (R69). -/
def Station.rearm (x : Station) (heated : Bool) : Station :=
  { x with state := if heated && !x.heaterLevel then .heatWait else .catching
           fault := false, indexSeen := false, dwell := 0 }

/-- REARM_STATION (R69). -/
def State.rearmStation (arg : BitVec 16) (s : State) : State × CmdResult :=
  match fin4 arg.toNat with
  | none => (s, .badArg)
  | some st =>
    if (s.station st).state = .faulted then
      (s.setStation st ((s.station st).rearm (s.block st).heated), .ok)
    else (s, .badState)

/-- REFILL_FOIL (R127): the refill length is read from the host page. -/
def State.refillFoil (arg : BitVec 16) (s : State) : State × CmdResult :=
  match fin8 arg.toNat with
  | none => (s, .badArg)
  | some c =>
    let len := s.mem.nat 4 refillLengthOffset
    if len = 0 then (s, .badArg)
    else
      (s.setChannel c { s.channel c with remaining := len, lowArmed := true, out := false }, .ok)

/-- The condition of a stop cause still stands (R155). -/
def State.persists (s : State) : StopCause → Bool
  | .foilOut =>
    (s.channels.mapIdx fun c x => (s.chanBlock c).assigned && x.out).toList.any id
  | .stationFault => s.stations.toList.any fun x => x.state == .faulted
  | .stationHeat =>
    (s.stations.mapIdx fun st x => (s.block st).heated && x.state == .heatWait).toList.any id
  | .regLost => s.mark.search
  | .overspeed => s.wpu.overspeed
  | _ => false

/-- The stop-cause set less the causes that do not persist (R155). -/
def State.persisting (s : State) : BitVec 10 :=
  StopCause.list.foldl
    (fun acc c =>
      if s.jobs.hasStop c && s.persists c then acc ||| BitVec.twoPow 10 c.bit else acc) 0

/-- ACK_STOP (R155). -/
def State.ackStop (s : State) : State × CmdResult :=
  let j := { s.jobs with stopCauses := s.persisting }
  if StopCause.list.any fun c => j.hasStop c && j.selects c then (s.withJobs j, .stopPersists)
  else (s.withJobs { j with stopRequest := false }, .ok)

end Sys2Proof.Machine
end

