-- ==== Sys2Proof/Machine/Marks.lean ====
section
/-! DEFINITION. The mark unit (chapter 2) and the verdict read of the row open (chapter 3). -/

namespace Sys2Proof.Machine

/-! ## Verdicts -/

/-- The STALE test (R45). -/
def staleTest (stamp n : Word) : Bool :=
  1 ≤ dist stamp n && dist stamp n ≤ 1024 && stamp.toNat % 256 == n.toNat % 256

/-- An entry resolved for row `n`, the first case that matches (R44). -/
def resolveVerdict (stamp n : Word) (code : Nat) (default : Verdict) : Verdict × Source :=
  if stamp = 0 then (default, .absent)
  else if stamp = n then
    match verdictOfCode code with
    | some v => (v, .strip)
    | none => (default, .bad)
  else if 0 < dist n stamp then (default, .early)
  else if staleTest stamp n then (default, .stale)
  else (default, .absent)

/-- The offset of row `n`'s verdict entry (R42, R200). -/
def verdictEntry (n : Word) : Nat := verdictOffset + 8 * (n.toNat % 256)

/-- The verdict and source of row `n`, from its entry as it stands (R43, R46). -/
def State.readVerdict (s : State) (n : Word) : Verdict × Source :=
  resolveVerdict (s.mem.word (verdictEntry n)) n (s.mem.nat 1 (verdictEntry n + 4)) s.job.default

/-- The sources that set VERDICT_DEFAULTED (R47). -/
def Source.defaulted : Source → Bool
  | .bad | .early | .stale => true
  | _ => false

/-! ## Row open -/

/-- The entry a lane begins with (R31). -/
def State.firstLane (s : State) (l : Fin 4) : LaneEntry :=
  if s.job.leadingLane = l.val ∧ s.job.laneActive l.val then .leading else .absent

/-- A channel's entry in a new row, where it is assigned (R31). -/
def State.firstCharge (s : State) (c : Fin 8) : Option ChannelEntry :=
  if (s.chanBlock c).assigned then some { foilUsed := 0, hops := 0, merges := 0, late := false }
  else none

/-- The context of the next row, before the stations place it (R28, R31). -/
def State.newRow (s : State) (status : MarkStatus) (lead : Pos) : RowCtx :=
  let n := s.mark.nextRow
  { row := n, jobTag := s.job.tag, lead := lead, status := status
    lanes := (Four.all ()).mapIdx fun l _ => s.firstLane l
    verdict := (s.readVerdict n).1, source := (s.readVerdict n).2
    stations := .all none
    channels := (Eight.all ()).mapIdx fun c _ => s.firstCharge c }

/-- A non-leading active lane (R20). -/
def State.followsLane (s : State) (l : Fin 4) : Bool :=
  s.job.laneActive l.val && s.job.leadingLane != l.val

/-- The mark offset of the leading lane (R29). -/
def State.leadingOffset (s : State) : Int :=
  match fin4 s.job.leadingLane with
  | some l => s.job.laneOffsets.get l
  | none => 0

/-- The centre of a lane's window for a row (R29). -/
def State.laneCentre (s : State) (l : Fin 4) (lead : Pos) : Pos :=
  moved lead (s.job.laneOffsets.get l - s.leadingOffset)

/-- A lane's result written into a row (R29, R30). -/
def State.setLane (l : Fin 4) (n : Word) (e : LaneEntry) (s : State) : State :=
  s.mapRow n fun r => { r with lanes := r.lanes.set l e }

/-- A lane's pending window replaced. -/
def State.setWindow (l : Fin 4) (w : Option LaneWindow) (s : State) : State :=
  s.withMark { s.mark with windows := s.mark.windows.set l w }

/-- A lane's held edge replaced. -/
def State.setHeld (l : Fin 4) (p : Option Pos) (s : State) : State :=
  s.withMark { s.mark with held := s.mark.held.set l p }

/-- A mark position lies in a window (R29). -/
def State.inLaneWindow (s : State) (centre p : Pos) : Bool :=
  (dist centre p).natAbs ≤ s.job.window

/-- A mark found in a lane's pending window (R29). -/
def State.laneFound (l : Fin 4) (w : LaneWindow) (p : Pos) (s : State) : State :=
  (s.setLane l w.row (.found (dist w.centre p))).setWindow l none

/-- A lane window closed without a mark (R30). -/
def State.laneMissing (l : Fin 4) (w : LaneWindow) (s : State) : State :=
  (s.setLane l w.row .missing).setWindow l none

/-- The end of a lane's window: c + W (R30). -/
def State.laneEnd (s : State) (w : LaneWindow) : Pos := moved w.centre s.job.window

/-- A lane at the row open of row `n`: its window becomes this row's, the held edge is tested against it
and spent, and a window whose end is already behind the web closes (R28, R29, R30). -/
def State.openLane (n : Word) (lead : Pos) (l : Fin 4) (s : State) : State :=
  if s.followsLane l then
    let w : LaneWindow := { row := n, centre := s.laneCentre l lead }
    let held := s.mark.held.get l
    let s := (s.setWindow l (some w)).setHeld l none
    match held with
    | some p =>
      if s.inLaneWindow w.centre p then s.laneFound l w p
      else if behind (s.laneEnd w) s.web then s.laneMissing l w
      else s
    | none => if behind (s.laneEnd w) s.web then s.laneMissing l w else s
  else s

/-- An action taken for each lane in number order. -/
def forLanes (f : Fin 4 → State → State) (s : State) : State := f 3 (f 2 (f 1 (f 0 s)))

/-- The missing count, the search flag and the causes of a row open by its mark status (R21 to R25). -/
def State.noteStatus (status : MarkStatus) (s : State) : State :=
  match status with
  | .first => s
  | .found => s.withMark { s.mark with missing := 0 }
  | .recaptured => (s.withMark { s.mark with missing := 0, search := false }).raise .regFound
  | .missing =>
    let k := satSucc 255 s.mark.missing
    let s := s.withMark { s.mark with missing := k }
    if !s.mark.search && k == s.job.missingLimit then
      (s.withMark { s.mark with search := true }).raiseStop .regLost .regLost
    else s

/-- The context appended, its verdict's attention cause, and the row numbers advanced and published
(R27, R28, R47, R48). -/
def State.appendRow (r : RowCtx) (s : State) : State :=
  let s := if r.source.defaulted then s.raise .verdictDefaulted else s
  let s := s.withTrack (s.track ++ [r])
  let s := s.withMark { s.mark with lastOpened := r.row, nextRow := rowSucc r.row }
  s.writeWord 0x0014 r.row

/-- A FIRST row open takes the run to RUNNING (R145). -/
def State.noteFirst (status : MarkStatus) (s : State) : State :=
  if status = .first then s.withJobs { s.jobs with run := .running } else s

/-- A row open (R28), or a full track (R33). -/
def State.openRow (status : MarkStatus) (lead : Pos) (s : State) : State :=
  if trackCapacity ≤ s.track.length then s.handHold .trackFull
  else
    let r := s.newRow status lead
    let s := s.appendRow r
    let s := forLanes (State.openLane r.row lead) s
    let s := s.withMark { s.mark with expected := some (moved lead s.jobPitch) }
    let s := (s.noteStatus status).noteFirst status
    forStations (State.stationOpen r) s

/-! ## Windows -/

/-- The position at which the open leading or search window closes (R23, R25). -/
def State.windowEnd (s : State) (e : Pos) : Pos :=
  if s.mark.search then moved (moved e (-((s.jobPitch / 2 : Nat) : Int))) s.jobPitch
  else moved e s.job.window

/-- The position at which the open leading or search window begins (R22, R25). -/
def State.windowStart (s : State) (e : Pos) : Pos :=
  if s.mark.search then moved e (-((s.jobPitch / 2 : Nat) : Int)) else moved e (-(s.job.window : Int))

/-- A mark position lies beyond the open window: at or beyond a search window's end, or beyond a leading
window's (R23, R25). -/
def State.beyondWindow (s : State) (e p : Pos) : Bool :=
  if s.mark.search then atOrBeyond p (s.windowEnd e) else behind (s.windowEnd e) p

/-- A leading-lane mark edge in RUNNING (R22, R23, R25): ignored behind the window, a row open in it, and
beyond it the window is closed first and the edge tested against the next. -/
def State.leadingEdge (p : Pos) : Nat → State → State
  | 0, s => s
  | fuel + 1, s =>
    match s.jobs.run, s.mark.expected with
    | .running, some e =>
      if behind p (s.windowStart e) then s
      else if s.beyondWindow e p then (s.openRow .missing e).leadingEdge p fuel
      else s.openRow (if s.mark.search then .recaptured else .found) p
    | _, _ => s

/-- A non-leading mark edge against the lane's pending window, else held (R29). -/
def State.laneEdge (l : Fin 4) (p : Pos) (s : State) : State :=
  match s.mark.windows.get l with
  | some w => if s.inLaneWindow w.centre p then s.laneFound l w p else s.setHeld l (some p)
  | none => s.setHeld l (some p)

/-- A mark edge as the run state and the lane take it (R20). -/
def State.takeMark (l : Fin 4) (p : Pos) (s : State) : State :=
  if s.job.laneActive l.val then
    if s.job.leadingLane = l.val then
      match s.jobs.run with
      | .armed => s.openRow .first p
      | .running => s.leadingEdge p (trackCapacity + 2)
      | _ => s
    else
      match s.jobs.run with
      | .armed => s.setHeld l (some p)
      | .running | .draining => s.laneEdge l p
      | _ => s
  else s

/-- A lane window the web reaches the end of (R30). One whose end stood exactly at the web when a mark edge
opened its row is not reached by a web that only goes on forward, since it was not behind it before (R5): no
rule closes it, so it stays pending until the next row open replaces it, and the lane's result stays ABSENT
(DESIGN CHOICE, log entry 37). -/
def State.closeLane (p : Pos) (l : Fin 4) (s : State) : State :=
  match s.mark.windows.get l with
  | some w =>
    if s.moving && reaches p (s.laneEnd w) s.web (s.laneEnd w) then s.laneMissing l w else s
  | none => s

/-- The leading or search window the web reaches the end of (R23, R25). -/
def State.closeLeading (p : Pos) (s : State) : State :=
  match s.jobs.run, s.mark.expected with
  | .running, some e =>
    if reaches p (s.windowEnd e) s.web (s.windowEnd e) then s.openRow .missing e else s
  | _, _ => s

/-- The mark unit's part in a web position change from `p` (R20). The lanes are tested again after the
window close, since the row that it opens may have a lane window whose end the change has just reached
(R30). -/
def State.markWeb (p : Pos) (s : State) : State :=
  forLanes (State.closeLane p) ((forLanes (State.closeLane p) s).closeLeading p)

/-- The accepted level of a mark input (R19). -/
def State.setMarkLevel (l : Fin 4) (level : Bool) (s : State) : State :=
  s.withMark { s.mark with levels := s.mark.levels.set l level }

/-- MARK_EDGE (R19): an accepted change from low to high is a mark edge, taken while the direction of last
movement is FORWARD; an accepted change from high to low changes the accepted level alone. -/
def execMarkEdge (lane : Fin 4) (level : Bool) (position : Pos) (s : State) :
    Host.Outcome State Fault Refusal :=
  if s.mark.levels.get lane = level then .next s
  else
    let s := s.setMarkLevel lane level
    if level && s.wpu.direction == .forward then .next (s.takeMark lane position) else .next s

end Sys2Proof.Machine
end

