-- ==== Sys2Proof/Machine/Web.lean ====
section
/-! DEFINITION. The encoder, the timebase and the step generators' output (chapter 1). -/

namespace Sys2Proof.Machine

/-! ## The encoder -/

/-- What a change of the sampled pair means (section 1.1). -/
inductive Transition where
  | same
  | forward
  | reverse
  | illegal
  deriving DecidableEq, Repr

/-- The table of section 1.1: previous pair (A, B), next pair (A, B). -/
def transition : Bool × Bool → Bool × Bool → Transition
  | (false, false), (true, false) => .forward
  | (true, false), (true, true) => .forward
  | (true, true), (false, true) => .forward
  | (false, true), (false, false) => .forward
  | (false, false), (false, true) => .reverse
  | (false, true), (true, true) => .reverse
  | (true, true), (true, false) => .reverse
  | (true, false), (false, false) => .reverse
  | (false, false), (true, true) => .illegal
  | (true, true), (false, false) => .illegal
  | (true, false), (false, true) => .illegal
  | (false, true), (true, false) => .illegal
  | _, _ => .same

/-- The pair taken as the previous pair for the next comparison (R1, R2). -/
def State.setPair (s : State) (a b : Bool) : State := s.withWpu { s.wpu with pair := some (a, b) }

/-- The high-water position after a change to the web position (R7). -/
def Wpu.advanceHighWater (w : Wpu) : Wpu :=
  if 0 < dist w.highWater w.position then { w with highWater := w.position } else w

/-- The reverse check (R8). -/
def State.reverseCheck (s : State) : State :=
  if s.jobs.run.holdable && (s.job.reverseTol : Int) < dist s.web s.wpu.highWater then
    s.hold .reverse
  else s

/-- A web position change from `p` (R5): the high-water position, the foil channels over its advance, the
stations, the mark unit, and the reverse check, in this order (DESIGN CHOICE, log entry 4). A head row that
the change makes ready retires in a step of its own after it, so after a row open of the same change, which
may find the track full (R33, R34; DESIGN CHOICE, log entry 36). -/
def State.webChange (p : Pos) (s : State) : State :=
  let h := s.wpu.highWater
  let delta := dist p s.web
  let s := s.withWpu s.wpu.advanceHighWater
  let n := (dist h s.wpu.highWater).toNat
  let s := forChannels (State.foilAdvance h n) s
  let s := forStations (State.stationWeb p delta) s
  (s.markWeb p).reverseCheck

/-- A count applied to the position accumulator (R1, R3). -/
def Wpu.count (w : Wpu) (d : Direction) : Wpu :=
  match d with
  | .forward => { w with direction := .forward, acc := w.acc + BitVec.ofNat 48 w.scaleQ }
  | .reverse => { w with direction := .reverse, acc := w.acc - BitVec.ofNat 48 w.scaleQ }

/-- A count, and the web position change it makes where it alters the integer part (R3, R5). -/
def State.count (d : Direction) (s : State) : State :=
  let p := s.web
  let s := s.withWpu (s.wpu.count d)
  if s.web = p then s else s.webChange p

/-- ENCODER_COUNT (R1, R3, R5). The first sample after a reset becomes the previous pair without a count. -/
def execEncoderCount (a b : Bool) (s : State) : Host.Outcome State Fault Refusal :=
  match s.wpu.pair with
  | none => .next (s.setPair a b)
  | some prev =>
    match transition prev (a, b) with
    | .forward => .next ((s.setPair a b).count .forward)
    | .reverse => .next ((s.setPair a b).count .reverse)
    | _ => .next s

/-- ENCODER_FAULT (R2): no count, the direction as it was, the new pair the previous pair, and the hold
cause ENCODER handed to job control. -/
def execEncoderFault (a b : Bool) (s : State) : Host.Outcome State Fault Refusal :=
  match s.wpu.pair with
  | none => .next (s.setPair a b)
  | some prev =>
    match transition prev (a, b) with
    | .illegal => .next ((s.setPair a b).handHold .encoder)
    | _ => .next s

/-! ## The timebase -/

/-- The new v8 and the position ring after it (R10). -/
def Wpu.updateSpeed (w : Wpu) : Wpu :=
  let r := w.ring
  { w with
    v8 := clampInt (-32768) 32767 (dist r.a0 w.position)
    ring := ⟨r.a1, r.a2, r.a3, r.a4, r.a5, r.a6, r.a7, w.position⟩ }

/-- The planning speed from v8 and the headroom in force (R11). -/
def Wpu.updatePlanning (w : Wpu) : Wpu :=
  { w with v8p := ceilDiv (w.v8.toNat * (256 + w.headroom)) 256 }

/-- The overspeed check (R12). -/
def State.overspeedCheck (s : State) : State :=
  if s.jobs.run = .idle then s
  else if (s.job.v8Max : Int) < s.wpu.v8 then
    if s.wpu.overspeed then s
    else (s.withWpu { s.wpu with overspeed := true }).raiseStop .overspeed .overspeed
  else s.withWpu { s.wpu with overspeed := false }

/-- The speed update (R10, R11, R12). -/
def State.speedUpdate (s : State) : State :=
  (s.withWpu s.wpu.updateSpeed.updatePlanning).overspeedCheck

/-- A channel's part in a speed update (R112, R116). -/
def State.channelExpiry (c : Fin 8) (s : State) : State :=
  if (s.channel c).state = .standing then s.tryRampUp c s.wpu.highWater else s

/-- TIMEBASE_EXPIRY (R9): the speed update, the stations' timers, dwell counts and heater samples, the
channels' ramp lengths, and the live page update, in this order. The completion of a travel, a lift event
and an accepted heater level of the same expiry are steps of their own after it and reach the next update
(DESIGN CHOICE, log entry 5). -/
def execTimebaseExpiry (heaters : Four Bool) (s : State) : Host.Outcome State Fault Refusal :=
  let s := s.speedUpdate
  let s := forStations (State.stationExpiry heaters) s
  let s := forChannels State.channelExpiry s
  .next s.liveUpdate

/-! ## Step generators -/

/-- One step emitted towards the commanded position (R13, R14). -/
def StepGen.emit (g : StepGen) : StepGen :=
  if 0 < g.owed then { g with emitted := g.emitted + 1, dirHigh := true }
  else { g with emitted := g.emitted - 1, dirHigh := false }

/-- STEP_EMIT (R14): one owed step goes out where 250 ns have passed since the output's previous step; a
step whose turn comes sooner is held. -/
def execStepEmit (g : GenId) (sinceNs : Nat) (s : State) : Host.Outcome State Fault Refusal :=
  if (s.gen g).owed ≠ 0 ∧ stepGapNs ≤ sinceNs then .next (s.setGen g (s.gen g).emit) else .next s

end Sys2Proof.Machine
end

