-- ==== Sys2Proof/Machine/Events.lean ====
section
/-! DEFINITION. The part's own events at the stations and at the head of the row track, as steps: each
takes effect where it is due and changes nothing elsewhere. -/

namespace Sys2Proof.Machine

/-- LIFT_EVENT (R94): a station whose dwell count has reached the dwell limit is lifted. -/
def execLiftEvent (st : Fin 4) (s : State) : Host.Outcome State Fault Refusal :=
  if s.liftDue st then .next ((s.leaveFor st .lifted).raise .stationLift) else .next s

/-- THROW_TRAVEL_COMPLETE (R89): the travel of a throw whose timer has reached 0 is complete. -/
def execThrowTravelComplete (st : Fin 4) (s : State) : Host.Outcome State Fault Refusal :=
  if s.travelDone st then .next (s.completeTravel st) else .next s

/-- COMMIT_EVENT (R81, R82): the oldest row not committed at the station is committed where its commit
is due. A commit that a web position change, a shift or a row open makes due is a step of its own after
the whole step that made it due (DESIGN CHOICE, log entry 34). -/
def execCommitEvent (st : Fin 4) (s : State) : Host.Outcome State Fault Refusal :=
  match s.commitDue st with
  | some r => .next (s.commit st r)
  | none => .next s

/-- The retirement of the head row, which ends a drained run when it empties the track (R35, R147). -/
def State.retire (s : State) : State :=
  let s := s.retireHead
  if s.jobs.run = .draining ∧ s.track = [] then s.enterIdle else s

/-- RETIREMENT_EVENT (R35): the head row is retired where it is ready. -/
def execRetirementEvent (s : State) : Host.Outcome State Fault Refusal :=
  if s.headReady then .next s.retire else .next s

/-- The accepted level of an index input (R57). -/
def State.setIndexLevel (st : Fin 4) (level : Bool) (s : State) : State :=
  s.setStation st { s.station st with indexLevel := level }

/-- INDEX_EDGE (R57): an accepted change from low to high is an index edge, taken as an index event where
R57 lets it be; an accepted change from high to low changes the accepted level alone. -/
def execIndexEdge (st : Fin 4) (level : Bool) (position : Pos) (s : State) :
    Host.Outcome State Fault Refusal :=
  if (s.station st).indexLevel = level then .next s
  else
    let s := s.setIndexLevel st level
    if level && s.indexTaken st then .next (s.indexEvent st position) else .next s

/-- HEAT_LOSS_EVENT (R75, R78): the accepted heater-ready level goes from high to low. -/
def execHeatLossEvent (st : Fin 4) (s : State) : Host.Outcome State Fault Refusal :=
  if (s.station st).heaterLevel && (s.station st).heaterAccepts then
    let s := s.setStation st ((s.station st).acceptHeater false)
    if s.heatedActive st then .next (s.heatLoss st) else .next s
  else .next s

/-- HEAT_READY_EVENT (R75, R79): the accepted heater-ready level goes from low to high. -/
def execHeatReadyEvent (st : Fin 4) (s : State) : Host.Outcome State Fault Refusal :=
  if !(s.station st).heaterLevel && (s.station st).heaterAccepts then
    let s := s.setStation st ((s.station st).acceptHeater true)
    if s.heatedActive st && (s.station st).state == .heatWait then .next (s.setState st .catching)
    else .next s
  else .next s

end Sys2Proof.Machine
end

