-- ==== Sys2Proof/Machine/Jobs.lean ====
section
/-! DEFINITION. The checks of a job (section 7.3.1, R138 to R142), the job check report, and the start of
a run (R143, R144). -/

namespace Sys2Proof.Machine

/-! ## Failures -/

/-- The scope of a report entry (R202). -/
inductive Scope where
  | job
  | lane
  | station
  | channel
  deriving DecidableEq, Repr

/-- The errors of a job check (R202). -/
inductive JobError where
  | badRange
  | leadingInactive
  | crawlResume
  | noStation
  | blankPlate
  | pitchMismatch
  | laneCount
  | laneSpread
  | channelUnheated
  | channelLaneInactive
  | channelDuplicate
  | unservedLane
  | distanceShort
  | trackDepth
  | throwSlow
  | cylinderRate
  | foilRate
  deriving DecidableEq, Repr

/-- A failure: the field it names by scope, number and offset within the job record, the error, and for
UNSERVED_LANE the lane (R142, R202). -/
structure Failure where
  scope : Scope
  number : Nat
  field : Nat
  error : JobError
  lane : Nat
  deriving DecidableEq, Repr

/-- What the checks read: a job, and for each active station the plate in the store (R137, R143). -/
structure Candidate where
  job : Job
  plates : Four (Option Plate)
  deriving DecidableEq, Repr

/-- Some failure names the field. -/
def names (fs : List Failure) (scope : Scope) (number field : Nat) : Bool :=
  fs.any fun f => f.scope == scope && f.number == number && f.field == field

/-- One failure where the check does not hold. -/
def require (ok : Bool) (scope : Scope) (number field : Nat) (e : JobError) : List Failure :=
  if ok then [] else [{ scope := scope, number := number, field := field, error := e, lane := 0 }]

/-- `x` lies from `lo` to `hi`. -/
def within (lo hi x : Nat) : Bool := decide (lo ≤ x) && decide (x ≤ hi)

/-- The offset of a field of station block `s` (R203). -/
def stationField (s off : Nat) : Nat := stationBlockOffset s + off

/-- The offset of a field of channel block `c` (R203). -/
def channelField (c off : Nat) : Nat := channelBlockOffset c + off

/-- The failures of a check made for each of the four stations, in order. -/
def eachStation (f : Fin 4 → List Failure) : List Failure := f 0 ++ f 1 ++ f 2 ++ f 3

/-- The failures of a check made for each of the eight channels, in order. -/
def eachChannel (f : Fin 8 → List Failure) : List Failure :=
  f 0 ++ f 1 ++ f 2 ++ f 3 ++ f 4 ++ f 5 ++ f 6 ++ f 7

/-! ## What a check may read: fields and plates that no earlier check has failed -/

/-- A job-wide field has passed. -/
def jobOk (fs : List Failure) (field : Nat) : Bool := !names fs .job 0 field

/-- A field of a station block has passed. -/
def stationOk (fs : List Failure) (st : Fin 4) (off : Nat) : Bool :=
  !names fs .station st.val (stationField st.val off)

/-- A field of a channel block has passed. -/
def channelOk (fs : List Failure) (c : Fin 8) (off : Nat) : Bool :=
  !names fs .channel c.val (channelField c.val off)

/-- The mark offset of a lane has passed. -/
def laneOk (fs : List Failure) (l : Fin 4) : Bool := !names fs .lane l.val (0x008 + 4 * l.val)

/-- An active station whose type has passed. -/
def Candidate.active (k : Candidate) (st : Fin 4) : Bool := (k.job.stations.get st).active

/-- The plate of an active station, where no failure so far names the plate slot field of the station. An
UNSERVED_LANE of check 12 names that field too, so the plate counts as failed from then on and check 16 does
not read it: the model's reading (DEDUCED, log entry 14). -/
def Candidate.plate (k : Candidate) (fs : List Failure) (st : Fin 4) : Option Plate :=
  if k.active st && stationOk fs st 0x01 then k.plates.get st else none

/-- The plates that have passed, in station order. -/
def Candidate.passedPlates (k : Candidate) (fs : List Failure) : List Plate :=
  (((Four.all ()).mapIdx fun st _ => k.plate fs st).toList).filterMap id

/-- The job pitch, where the plate checks have found a single one (R139). -/
def Candidate.pitch (k : Candidate) (fs : List Failure) : Option Nat :=
  if fs.any fun f => f.error == .pitchMismatch then none
  else (k.plates.mapIdx fun st p => if k.active st then p else none).toList.filterMap id
    |>.head?.map Plate.pitch

/-- The highest-numbered active lane. -/
def Job.highestLane (j : Job) : Nat :=
  if j.laneActive 3 then 3 else if j.laneActive 2 then 2 else if j.laneActive 1 then 1 else 0

/-! ## The checks, in the order of section 7.3.1 -/

/-- Check 1: the job-wide ranges that do not depend on the pitch (R133). -/
def check1 (k : Candidate) (_ : List Failure) : List Failure :=
  let j := k.job
  let range (ok : Bool) (field : Nat) := require ok .job 0 field .badRange
  range (within 1 15 j.laneSet) 0x004 ++ range (within 0 3 j.leadingLane) 0x005 ++
    (((Four.all ()).mapIdx fun l _ =>
      require ((j.laneOffsets.get l).natAbs ≤ 20000) .lane l.val (0x008 + 4 * l.val)
        .badRange).toList.flatten) ++
    range (within 50 4000 j.window) 0x018 ++ range (within 1 15 j.missingLimit) 0x006 ++
    range (within 4096 4194304 j.scaleQ) 0x01C ++ range (within 0 20000 j.reverseTol) 0x020 ++
    range (within 1 32767 j.v8Max) 0x022 ++ range (within 0 32767 j.crawl) 0x024 ++
    range (within 1 32767 j.resume) 0x026 ++ range (within 20 2000 j.dwellLimit) 0x028 ++
    range (within 0 64 j.headroom) 0x01A ++ range (within 1 2 j.defaultVerdict) 0x007 ++
    range (within 0 3 j.tallyCode) 0x01B

/-- Check 2: the leading lane is in the active lane set. -/
def check2 (k : Candidate) (fs : List Failure) : List Failure :=
  if jobOk fs 0x004 && jobOk fs 0x005 then
    require (k.job.laneActive k.job.leadingLane) .job 0 0x005 .leadingInactive
  else []

/-- Check 3: the crawl speed is below the resume speed. -/
def check3 (k : Candidate) (fs : List Failure) : List Failure :=
  if jobOk fs 0x024 && jobOk fs 0x026 then
    require (k.job.crawl < k.job.resume) .job 0 0x024 .crawlResume
  else []

/-- The ranges of foil parameters that lie at offset `base` of the job record (R103, R138). -/
def foilRanges (p : FoilParams) (scope : Scope) (number base : Nat) : List Failure :=
  let range (ok : Bool) (off : Nat) := require ok scope number (base + off) .badRange
  range (within 0 2000 p.lead) 0x00 ++ range (within 0 2000 p.trail) 0x02 ++
    range (within 0 20000 p.dmin) 0x04 ++ range (within 1 1000 p.accel) 0x06 ++
    range (within 2 20000 p.minRamp && p.minRamp % 2 == 0) 0x08 ++
    range (within 1 16777215 p.fs) 0x0C

/-- The ranges of a station block that do not depend on the pitch (R134, R138). -/
def stationRanges (b : StationBlock) (st : Fin 4) : List Failure :=
  let range (ok : Bool) (off : Nat) :=
    require ok .station st.val (stationField st.val off) .badRange
  if b.active then
    range (within 0 15 b.plateSlot) 0x01 ++ range (within 1 2000000 b.distance) 0x04 ++
      range (within 1000 10000000 b.steps) 0x08 ++
      range (b.indexOffset.natAbs ≤ 320000) 0x0C ++ range (within 5 250 b.throwOn) 0x02 ++
      range (within 5 250 b.throwOff) 0x03 ++ range (within 0 1000 b.guard) 0x10 ++
      range (within 0 200 b.deadBand) 0x12 ++ range (within 1 400 b.trimStep) 0x14 ++
      range (decide (1 ≤ b.catchStep)) 0x16 ++ range (within 20 2000 b.catchBand) 0x18 ++
      range (within 10 2000 b.slipTol) 0x1A ++
      if b.heated then foilRanges b.foil .station st.val (stationField st.val 0x20) else []
  else range (decide (b.typeCode = 0)) 0x00

/-- Check 4: the station block ranges, stations 0 to 3. -/
def check4 (k : Candidate) (_ : List Failure) : List Failure :=
  eachStation fun st => stationRanges (k.job.stations.get st) st

/-- The ranges of a channel block (R135, R138). -/
def channelRanges (b : ChannelBlock) (c : Fin 8) : List Failure :=
  let range (ok : Bool) (off : Nat) :=
    require ok .channel c.val (channelField c.val off) .badRange
  if b.assigned then
    range (within 0 3 b.station) 0x01 ++ range (within 0 3 b.lane) 0x02 ++
      range (within 0 1 b.override) 0x03 ++
      if b.override = 1 then foilRanges b.own .channel c.val (channelField c.val 0x10) else []
  else range (decide (b.useCode = 0)) 0x00

/-- Check 5: the channel block ranges, channels 0 to 7. -/
def check5 (k : Candidate) (_ : List Failure) : List Failure :=
  eachChannel fun c => channelRanges (k.job.channels.get c) c

/-- The type field of every station has passed. -/
def typesOk (fs : List Failure) : Bool :=
  stationOk fs 0 0 && stationOk fs 1 0 && stationOk fs 2 0 && stationOk fs 3 0

/-- Check 6: at least one station of a type other than NONE. -/
def check6 (k : Candidate) (fs : List Failure) : List Failure :=
  if typesOk fs then
    require (k.job.stations.toList.any StationBlock.active) .job 0 0x0040 .noStation
  else []

/-- Check 7: each active station's plate is not BLANK (R139). -/
def check7 (k : Candidate) (fs : List Failure) : List Failure :=
  eachStation fun st =>
    if k.active st && stationOk fs st 0x01 then
      require (k.plates.get st).isSome .station st.val (stationField st.val 0x01) .blankPlate
    else []

/-- Check 8: all active stations' plates are of one pitch, that of the lowest-numbered (R139). -/
def check8 (k : Candidate) (fs : List Failure) : List Failure :=
  match (k.passedPlates fs).head? with
  | none => []
  | some p =>
    eachStation fun st =>
      match k.plate fs st with
      | some q => require (q.pitch == p.pitch) .station st.val (stationField st.val 0x01)
          .pitchMismatch
      | none => []

/-- Check 9: each plate's lane count is above the highest active lane (R139). -/
def check9 (k : Candidate) (fs : List Failure) : List Failure :=
  if jobOk fs 0x004 then
    eachStation fun st =>
      match k.plate fs st with
      | some p => require (k.job.highestLane < p.laneCount) .station st.val
          (stationField st.val 0x01) .laneCount
      | none => []
  else []

/-- The lane spread of check 10: an active non-leading lane's offset lies within a quarter pitch of the
leading lane's (R138). -/
def laneSpread (j : Job) (fs : List Failure) (pitch : Nat) (l : Fin 4) : List Failure :=
  match fin4 j.leadingLane with
  | none => []
  | some m =>
    if jobOk fs 0x004 && jobOk fs 0x005 && laneOk fs l && laneOk fs m && j.laneActive l.val &&
        l != m then
      require (4 * (j.laneOffsets.get l - j.laneOffsets.get m).natAbs ≤ pitch) .lane l.val
        (0x008 + 4 * l.val) .laneSpread
    else []

/-- The pitch-dependent ranges of an active station: catch step and index offset (R138). -/
def stationPitchRanges (k : Candidate) (fs : List Failure) (pitch : Nat) (st : Fin 4) :
    List Failure :=
  let b := k.job.stations.get st
  if b.active then
    (if stationOk fs st 0x16 then
      require (2 * b.catchStep ≤ pitch) .station st.val (stationField st.val 0x16) .badRange
    else []) ++
    match k.plate fs st with
    | some p =>
      if stationOk fs st 0x0C then
        require (b.indexOffset.natAbs ≤ p.revolution) .station st.val (stationField st.val 0x0C)
          .badRange
      else []
    | none => []
  else []

/-- Check 10: the ranges that depend on the pitch (R138). -/
def check10 (k : Candidate) (fs : List Failure) : List Failure :=
  match k.pitch fs with
  | none => []
  | some pitch =>
    (if jobOk fs 0x018 then require (8 * k.job.window ≤ pitch) .job 0 0x018 .badRange else []) ++
      ((Four.all ()).mapIdx fun l _ => laneSpread k.job fs pitch l).toList.flatten ++
      eachStation (stationPitchRanges k fs pitch)

/-- What check 11 reads of a channel has passed: its station and lane, the active lane set, the type of the
station it names, and the station types that check 6 tests together (section 7.3.1). -/
def channelReadable (k : Candidate) (fs : List Failure) (c : Fin 8) : Bool :=
  let b := k.job.channels.get c
  b.assigned && channelOk fs c 0x01 && channelOk fs c 0x02 && jobOk fs 0x004 && jobOk fs 0x0040 &&
    match fin4 b.station with
    | some st => stationOk fs st 0x00
    | none => false

/-- The first failure of check 11 for a channel, given the assignments of the channels before it that
passed (R140). -/
def assignmentError (k : Candidate) (taken : List (Nat × Nat)) (b : ChannelBlock) :
    Option (Nat × JobError) :=
  match fin4 b.station with
  | none => none
  | some st =>
    if !(k.job.stations.get st).heated then some (0x01, .channelUnheated)
    else if !k.job.laneActive b.lane then some (0x02, .channelLaneInactive)
    else if taken.contains (b.station, b.lane) then some (0x01, .channelDuplicate)
    else none

/-- Check 11 over channels in order, carrying the assignments that passed (R140). -/
def assignmentChecks (k : Candidate) (fs : List Failure) :
    List (Fin 8) → List (Nat × Nat) → List Failure
  | [], _ => []
  | c :: cs, taken =>
    let b := k.job.channels.get c
    if channelReadable k fs c then
      match assignmentError k taken b with
      | some (off, e) =>
        require false .channel c.val (channelField c.val off) e ++ assignmentChecks k fs cs taken
      | none => assignmentChecks k fs cs ((b.station, b.lane) :: taken)
    else assignmentChecks k fs cs taken

/-- Check 11: the channel assignments (R140). -/
def check11 (k : Candidate) (fs : List Failure) : List Failure :=
  assignmentChecks k fs [0, 1, 2, 3, 4, 5, 6, 7] []

/-- Every channel's assignment has passed, so that it can be read who serves a lane. -/
def assignmentsOk (k : Candidate) (fs : List Failure) : Bool :=
  ((Eight.all ()).mapIdx fun c _ =>
    channelOk fs c 0x00 &&
      (!(k.job.channels.get c).assigned || (channelOk fs c 0x01 && channelOk fs c 0x02))).toList.all
    id

/-- Some ASSIGNED channel serves the lane of the station (R140). -/
def Job.served (j : Job) (st l : Nat) : Bool :=
  j.channels.toList.any fun b => b.assigned && b.station == st && b.lane == l

/-- Check 12: every imaged active lane of each FOIL station is served (R140). -/
def check12 (k : Candidate) (fs : List Failure) : List Failure :=
  if jobOk fs 0x004 && assignmentsOk k fs then
    eachStation fun st =>
      if (k.job.stations.get st).typeCode = 1 then
        match k.plate fs st with
        | some p =>
          (p.images.mapIdx fun l xs =>
            if k.job.laneActive l.val && !xs.isEmpty && !k.job.served st.val l.val then
              [({ scope := .station, number := st.val, field := stationField st.val 0x01,
                  error := .unservedLane, lane := l.val } : Failure)]
            else []).toList.flatten
        | none => []
      else []
  else []

/-- Check 13: each station distance is at least 2 × pitch + W (R141). -/
def check13 (k : Candidate) (fs : List Failure) : List Failure :=
  match k.pitch fs with
  | none => []
  | some pitch =>
    if jobOk fs 0x018 then
      eachStation fun st =>
        if k.active st && stationOk fs st 0x04 then
          require (2 * pitch + k.job.window ≤ (k.job.stations.get st).distance) .station st.val
            (stationField st.val 0x04) .distanceShort
        else []
    else []

/-- The largest distance among the active stations (R141). -/
def Job.maxDistance (j : Job) : Nat :=
  ((j.stations.toList.filter StationBlock.active).map StationBlock.distance).foldl max 0

/-- Check 14: the depth of the row track, once, naming the lowest-numbered station at D max (R141). -/
def check14 (k : Candidate) (fs : List Failure) : List Failure :=
  match k.pitch fs with
  | none => []
  | some pitch =>
    let readable := ((Four.all ()).mapIdx fun st _ =>
      stationOk fs st 0x00 && stationOk fs st 0x04).toList.all id
    if readable && decide (trackCapacity < k.job.maxDistance / pitch + 3) then
      (eachStation fun st =>
        require (!(k.active st && (k.job.stations.get st).distance == k.job.maxDistance)) .station
          st.val (stationField st.val 0x04) .trackDepth).take 1
    else []

/-- The planning speed at v8 max (R141). -/
def Job.plannedMax (j : Job) : Nat := ceilDiv (j.v8Max * (256 + j.headroom)) 256

/-- Check 15: the throw travel at v8 max lies within the pitch (R141). -/
def check15 (k : Candidate) (fs : List Failure) : List Failure :=
  match k.pitch fs with
  | none => []
  | some pitch =>
    if jobOk fs 0x022 && jobOk fs 0x01A then
      eachStation fun st =>
        let b := k.job.stations.get st
        if b.active && stationOk fs st 0x02 && stationOk fs st 0x03 then
          require (ceilDiv (k.job.plannedMax * (b.throwOn + b.throwOff)) 8 ≤ pitch) .station st.val
            (stationField st.val 0x02) .throwSlow
        else []
    else []

/-- A ratio keeps within the step rate at v8 max (R141). -/
def Job.rateOk (j : Job) (ratio : Nat) : Bool :=
  decide (ratio * j.v8Max * 125 ≤ stepRate * 65536)

/-- Check 16: the cylinder step rate (R141). It is not made for a station with an UNSERVED_LANE, whose plate
counts as failed (DEDUCED, log entry 14). -/
def check16 (k : Candidate) (fs : List Failure) : List Failure :=
  if (k.pitch fs).isSome && jobOk fs 0x022 then
    eachStation fun st =>
      match k.plate fs st with
      | some p =>
        if stationOk fs st 0x08 then
          require (k.job.rateOk (cylinderRatio (k.job.stations.get st).steps p.revolution)) .station
            st.val (stationField st.val 0x08) .cylinderRate
        else []
      | none => []
  else []

/-- The offset of the foil step ratio a channel would run with, where what it is read from has passed
(R141, R202). -/
def ratioField (k : Candidate) (fs : List Failure) (c : Fin 8) : Option Nat :=
  let b := k.job.channels.get c
  if b.assigned && channelOk fs c 0x03 then
    if b.override = 1 then
      if channelOk fs c 0x1C then some (channelField c.val 0x1C) else none
    else
      match fin4 b.station with
      | some st =>
        if channelOk fs c 0x01 && (k.job.stations.get st).heated && stationOk fs st 0x2C then
          some (stationField st.val 0x2C)
        else none
      | none => none
  else none

/-- Check 17: the foil step rate (R141). -/
def check17 (k : Candidate) (fs : List Failure) : List Failure :=
  if jobOk fs 0x022 then
    eachChannel fun c =>
      match ratioField k fs c with
      | some field =>
        require (k.job.rateOk (k.job.channelParams (k.job.channels.get c)).fs) .channel c.val field
          .foilRate
      | none => []
  else []

/-- The failures found by checks made in order, each seeing those of the checks before it. -/
def runChecks (k : Candidate) (checks : List (Candidate → List Failure → List Failure)) :
    List Failure :=
  checks.foldl (fun fs check => fs ++ check k fs) []

/-- Checks 7 to 17, which START_RUN makes again (R143). -/
def plateChecks : List (Candidate → List Failure → List Failure) :=
  [check7, check8, check9, check10, check11, check12, check13, check14, check15, check16, check17]

/-- All the checks of LOAD_JOB (R137). -/
def jobChecks : List (Candidate → List Failure → List Failure) :=
  [check1, check2, check3, check4, check5, check6] ++ plateChecks

/-- A job with the plates its active stations reference, as the store holds them (R137, R166). -/
def State.candidate (s : State) (j : Job) : Candidate :=
  { job := j
    plates := j.stations.mapIdx fun _ b =>
      if b.active && decide (b.plateSlot < plateSlots) then s.readSlot b.plateSlot else none }

/-! ## The job check report (R142, R202) -/

/-- The code of a scope. -/
def Scope.code : Scope → Nat
  | .job => 1
  | .lane => 2
  | .station => 3
  | .channel => 4

/-- The code of an error. -/
def JobError.code : JobError → Nat
  | .badRange => 1
  | .leadingInactive => 2
  | .crawlResume => 3
  | .noStation => 4
  | .blankPlate => 5
  | .pitchMismatch => 6
  | .laneCount => 7
  | .laneSpread => 8
  | .channelUnheated => 9
  | .channelLaneInactive => 10
  | .channelDuplicate => 11
  | .unservedLane => 12
  | .distanceShort => 13
  | .trackDepth => 14
  | .throwSlow => 15
  | .cylinderRate => 16
  | .foilRate => 17

/-- The 8 bytes of a report entry. -/
def Failure.encode (f : Failure) : List Byte :=
  leBytes 1 f.scope.code ++ leBytes 1 f.number ++ leBytes 2 f.field ++ leBytes 1 f.error.code ++
    leBytes 1 f.lane ++ leBytes 2 0

/-- The 72 bytes of the report of a list of failures. -/
def reportBytes (fs : List Failure) : List Byte :=
  padTo 72 (leBytes 1 (min 255 fs.length) ++ leBytes 7 0 ++ ((fs.take 8).map Failure.encode).flatten)

/-- The job check report written (R142, R177). -/
def State.writeReport (fs : List Failure) (s : State) : State :=
  s.writeMem reportOffset (reportBytes fs)

/-! ## The end of LOAD_JOB -/

/-- The validation of LOAD_JOB's working copy (R137). -/
def State.validateJob (j : Job) (s : State) : State × CmdResult :=
  let fs := runChecks (s.candidate j) jobChecks
  if fs = [] then
    ((s.withJobs { s.jobs with next := some j }).writeReport fs, .ok)
  else (s.writeReport fs, .jobInvalid)

/-! ## START_RUN -/

/-- The candidate job of START_RUN: NEXT's, or CURRENT's where NEXT is empty (R143). -/
def JobControl.candidate (j : JobControl) : Option Job :=
  match j.next with
  | some x => some x
  | none => j.current.map Current.job

/-- A first row word START_RUN takes (R143). -/
def firstRowOk (n : Word) : Bool := n != 0 && decide (n.toNat ≤ 4294967040)

/-- The mark unit at START_RUN (R20). -/
def MarkUnit.start (m : MarkUnit) (first : Word) : MarkUnit :=
  { m.clear with nextRow := first, lastOpened := first - 1 }

/-- The run begun with a job, its plates and its first row (R144, R193, R194). -/
def State.beginRun (c : Current) (first : Word) (s : State) : State :=
  let s := s.withJobs
    { s.jobs with next := none, current := some c, run := .armed, holdCause := .none
                  firstRow := first }
  let s := s.withWpu
    { s.wpu with scaleQ := c.job.scaleQ, headroom := c.job.headroom, highWater := s.web
                 overspeed := false }
  let s := s.withMark (s.mark.start first)
  let s := (s.withTrack []).withLastRetired none
  let s := s.withRecords { writtenThrough := first - 1, oldestIntact := first }
  forChannels State.startChannel (forStations State.startStation s)

/-- START_RUN (R143, R144). -/
def State.startRun (s : State) : State × CmdResult :=
  let first := s.mem.word firstRowOffset
  if s.jobs.run ≠ .idle then (s, .badState)
  else
    match s.jobs.candidate with
    | none => (s, .noJob)
    | some j =>
      if firstRowOk first then
        let k := s.candidate j
        let fs := runChecks k plateChecks
        if fs = [] then
          ((s.beginRun { job := k.job, plates := k.plates } first).writeReport [], .ok)
        else (s.writeReport fs, .jobInvalid)
      else (s, .badArg)

end Sys2Proof.Machine
end

