-- ==== Sys2Proof/Machine/Plates.lean ====
section
/-! DEFINITION. The plate store (chapter 8): the CRC, the geometry checks, PLATE_SAVE and PLATE_READ. -/

namespace Sys2Proof.Machine

/-! ## The CRC (R160) -/

/-- One bit of the CRC register: shifted left, and divided by x^16 + x^12 + x^5 + 1. -/
def crcShift (c : Nat) : Nat :=
  if 0x8000 ≤ c then Nat.xor (2 * c % 0x10000) 0x1021 else 2 * c

/-- The CRC register after `n` bits. -/
def crcShifts : Nat → Nat → Nat
  | 0, c => c
  | n + 1, c => crcShifts n (crcShift c)

/-- The CRC register after one more byte, most significant bit first. -/
def crcByte (c : Nat) (b : Byte) : Nat := crcShifts 8 (Nat.xor c (256 * b.toNat))

/-- The CRC of bytes taken in order, from 0xFFFF, not inverted. -/
def crc16 (bs : List Byte) : Nat := bs.foldl crcByte 0xFFFF

/-- The CRC of a plate record: over every byte but those of the CRC field (R160, R204). -/
def plateCrc (m : Memory) : Nat := crc16 (m.bytes 0 0x1FE)

/-- A record passes its CRC (R160). -/
def passesCrc (m : Memory) : Bool := plateCrc m == m.nat 2 0x1FE

/-- A record with its CRC written into its CRC field (R160, R204). -/
def withCrc (m : Memory) : Memory := m.write 0x1FE (leBytes 2 (plateCrc m))

/-! ## The geometry checks (R159, R161) -/

/-- The checks a plate fault names (R202). -/
inductive PlateCheck where
  | label
  | pitch
  | faces
  | laneCount
  | imageCount
  | imageLength
  | imageBound
  | imageOrder
  deriving DecidableEq, Repr

/-- The code of a plate fault (R202). -/
def PlateCheck.code : PlateCheck → Nat
  | .label => 1
  | .pitch => 2
  | .faces => 3
  | .laneCount => 4
  | .imageCount => 5
  | .imageLength => 6
  | .imageBound => 7
  | .imageOrder => 8

/-- A plate fault: the check that failed, and the lane and image it concerns (R161). -/
structure PlateFault where
  check : PlateCheck
  lane : Option Nat
  image : Option Nat
  deriving DecidableEq, Repr

/-- Each byte printable or 0, and 0 after the first 0 (R159). -/
def labelOk : List Byte → Bool
  | [] => true
  | b :: bs =>
    if b = 0 then bs.all fun c => c == 0
    else 0x20 ≤ b.toNat && b.toNat ≤ 0x7E && labelOk bs

/-- The images of a lane from image `i` on, `from?` the end of the image before it (R161, 6 to 8). -/
def imagesFault (lane pitch : Nat) : Nat → Nat → List Image → Option PlateFault
  | _, _, [] => none
  | i, prevEnd, x :: xs =>
    if x.len = 0 then some { check := .imageLength, lane := some lane, image := some i }
    else if pitch < x.start + x.len then
      some { check := .imageBound, lane := some lane, image := some i }
    else if x.start < prevEnd then
      some { check := .imageOrder, lane := some lane, image := some i }
    else imagesFault lane pitch (i + 1) (x.start + x.len) xs

/-- A lane's image list (R161, 5 to 8). -/
def laneFault (m : Memory) (pitch lane : Nat) : Option PlateFault :=
  if 12 < m.nat 1 (imageListOffset lane) then
    some { check := .imageCount, lane := some lane, image := none }
  else imagesFault lane pitch 0 0 (readImages m (imageListOffset lane))

/-- The first failing check of a record, where there is one (R161). -/
def plateFault (m : Memory) : Option PlateFault :=
  let p := readPlate m
  let whole (c : PlateCheck) : Option PlateFault := some { check := c, lane := none, image := none }
  if !labelOk (m.bytes 0 24) then whole .label
  else if !within 4000 80000 p.pitch then whole .pitch
  else if !within 1 4 p.faces then whole .faces
  else if !within 1 4 p.laneCount then whole .laneCount
  else (List.range p.laneCount).findSome? (laneFault m p.pitch)

/-- A lane or image index of a plate fault; 0xFF where it concerns none (R202). -/
def indexByte (i : Option Nat) : Nat := i.getD 0xFF

/-- The plate fault written to the command result area (R161, R177, R202). -/
def State.writePlateFault (f : PlateFault) (s : State) : State :=
  s.writeMem plateFaultOffset
    (leBytes 1 f.check.code ++ leBytes 1 (indexByte f.lane) ++ leBytes 1 (indexByte f.image) ++
      leBytes 5 0)

/-! ## PLATE_SAVE and PLATE_READ -/

/-- A slot of the store replaced. -/
def State.setSlot (s : State) (n : Nat) (x : PlateSlot) : State := s.withStore (s.store.set n x)

/-- The slot is in CURRENT's list of referenced plate slots (R136). -/
def JobControl.currentReferences (j : JobControl) (slot : Nat) : Bool :=
  match j.current with
  | some c => c.job.referenced.contains slot
  | none => false

/-- NEXT made empty where its job references the slot (R164, step 2). -/
def JobControl.dropNext (j : JobControl) (slot : Nat) : JobControl :=
  match j.next with
  | some x => if x.referenced.contains slot then { j with next := none } else j
  | none => j

/-- The start of a program cycle of a slot (R164, steps 1 and 2). -/
def State.startCycle (slot : Nat) (working : Memory) (s : State) : State :=
  let s := s.setSlot slot { s.slot slot with marker := false, valid := false }
  let s := s.withJobs (s.jobs.dropNext slot)
  s.withEngine { s.engine with executing := some (.plateSave slot working) }

/-- PLATE_SAVE at its acceptance (R162, R163): its result, or none where a program cycle runs. -/
def State.plateSave (arg : BitVec 16) (s : State) : State × Option CmdResult :=
  let slot := arg.toNat
  let staged := s.mem.copyOut plateOffset plateBytes
  if plateSlots ≤ slot then (s, some .badArg)
  else if s.jobs.currentReferences slot && s.jobs.run != .idle then (s, some .plateInUse)
  else
    match plateFault staged with
    | some f => (s.writePlateFault f, some .badPlate)
    | none =>
      let working := withCrc staged
      if (s.slot slot).valid && (s.slot slot).record == working then (s, some .unchanged)
      else (s.startCycle slot working, none)

/-- What a slot holds after a program cycle: the working copy, but for the bytes misread. -/
def programmed (working : Memory) (misread : List (Nat × Byte)) : Memory :=
  (misread.filter fun c => c.1 < plateBytes).foldl (fun m c => m.write c.1 [c.2]) working

/-- The verify that ends a program cycle (R164, steps 3 to 6). -/
def State.endCycle (slot : Nat) (working : Memory) (misread : List (Nat × Byte)) (s : State) :
    State × CmdResult :=
  let back := programmed working misread
  let ok := back == working && passesCrc back
  (s.setSlot slot { record := back, marker := ok, valid := ok }, if ok then .ok else .storeFault)

/-- PLATE_READ (R165). -/
def State.plateRead (arg : BitVec 16) (s : State) : State × CmdResult :=
  let slot := arg.toNat
  if plateSlots ≤ slot then (s, .badArg)
  else if (s.slot slot).valid then
    (s.withMem (s.mem.copyIn plateOffset plateBytes (s.slot slot).record), .ok)
  else (s.withMem (s.mem.copyIn plateOffset plateBytes []), .plateBlank)

end Sys2Proof.Machine
end

