-- ==== Sys2Proof/Machine/Command.lean ====
section
/-! DEFINITION. The command engine (section 9.6): writes to CMD, acceptance, execution and completion,
and the rows of the table that a write to CMD gives. -/

namespace Sys2Proof.Machine

/-! ## The engine -/

/-- A command that ends at its acceptance, with its result. -/
def ends (r : State × CmdResult) : State × Option CmdResult := (r.1, some r.2)

/-- LOAD_JOB at its acceptance: the job staging area copied (R137). -/
def State.loadJob (s : State) : State × Option CmdResult :=
  (s.withEngine { s.engine with executing := some (.loadJob (readJob s.mem jobOffset)) }, none)

/-- The command a code names, begun with its argument: its result, or none where it goes on executing
(R181). -/
def State.begin (code : BitVec 8) (arg : BitVec 16) (s : State) : State × Option CmdResult :=
  match code.toNat with
  | 0x01 => s.loadJob
  | 0x02 => ends s.startRun
  | 0x03 => ends s.endRun
  | 0x04 => ends s.holdRun
  | 0x05 => ends s.resumeRun
  | 0x06 => ends (s.rearmStation arg)
  | 0x07 => ends (s.refillFoil arg)
  | 0x08 => s.plateSave arg
  | 0x09 => ends (s.plateRead arg)
  | 0x0A => ends s.ackStop
  | _ => (s, some .badCode)

/-- CMD_STATUS and CMD at an acceptance (R179). -/
def Engine.accept (e : Engine) : Engine :=
  { e with pend := false, statusCode := e.code, seq := e.seq + 1, result := .none
           phase := .executing }

/-- CMD_STATUS at a completion (R180). -/
def Engine.complete (e : Engine) (r : CmdResult) : Engine :=
  { e with result := r, phase := .done, executing := none }

/-- A completion: CMD_STATUS, then CMD_DONE (R180). -/
def State.complete (r : CmdResult) (s : State) : State :=
  (s.withEngine (s.engine.complete r)).raise .cmdDone

/-- The acceptance of the command in CMD, and its completion where it ends there (R179, R180). -/
def State.accept (s : State) : State :=
  let s := s.withEngine s.engine.accept
  match s.begin s.engine.statusCode s.engine.arg with
  | (s, some r) => s.complete r
  | (s, none) => s

/-- A pending command accepted where none is executing (R179). -/
def State.serveEngine (s : State) : State :=
  if s.engine.pend && s.engine.executing.isNone then s.accept else s

/-- A 4-byte write to CMD (R178): code and argument replaced, PEND as written, and the command accepted
where the engine is free. -/
def State.writeCmd (value : Word) (s : State) : State :=
  (s.withEngine
    { s.engine with code := value.extractLsb' 0 8, arg := value.extractLsb' 8 16
                    pend := value.getLsbD 31 }).serveEngine

/-- The CMD word of a code and an argument with PEND set (R199). -/
def cmdWord (code : BitVec 8) (arg : BitVec 16) : Word := 0x80#8 ++ arg ++ code

/-! ## The rows -/

/-- LOAD_JOB (R137). -/
def execLoadJob (arg : BitVec 16) (s : State) : Host.Outcome State Fault Refusal :=
  .next (s.writeCmd (cmdWord 0x01 arg))

/-- LOAD_JOB_COMPLETE (R137, R180): the validation under way ends, and a pending command is accepted. -/
def execLoadJobComplete (s : State) : Host.Outcome State Fault Refusal :=
  match s.engine.executing with
  | some (.loadJob j) =>
    let r := s.validateJob j
    .next (r.1.complete r.2).serveEngine
  | _ => .next s

/-- START_RUN (R143, R144). -/
def execStartRun (arg : BitVec 16) (s : State) : Host.Outcome State Fault Refusal :=
  .next (s.writeCmd (cmdWord 0x02 arg))

/-- END_RUN (R146). -/
def execEndRun (arg : BitVec 16) (s : State) : Host.Outcome State Fault Refusal :=
  .next (s.writeCmd (cmdWord 0x03 arg))

/-- HOLD_RUN (R148). -/
def execHoldRun (arg : BitVec 16) (s : State) : Host.Outcome State Fault Refusal :=
  .next (s.writeCmd (cmdWord 0x04 arg))

/-- RESUME_RUN (R151). -/
def execResumeRun (arg : BitVec 16) (s : State) : Host.Outcome State Fault Refusal :=
  .next (s.writeCmd (cmdWord 0x05 arg))

/-- REARM_STATION (R69). -/
def execRearmStation (arg : BitVec 16) (s : State) : Host.Outcome State Fault Refusal :=
  .next (s.writeCmd (cmdWord 0x06 arg))

/-- REFILL_FOIL (R127). -/
def execRefillFoil (arg : BitVec 16) (s : State) : Host.Outcome State Fault Refusal :=
  .next (s.writeCmd (cmdWord 0x07 arg))

/-- PLATE_SAVE (R162 to R164). -/
def execPlateSave (arg : BitVec 16) (s : State) : Host.Outcome State Fault Refusal :=
  .next (s.writeCmd (cmdWord 0x08 arg))

/-- PLATE_SAVE_COMPLETE (R164, R180): the program cycle under way ends, and a pending command is
accepted. -/
def execPlateSaveComplete (misread : List (Nat × Byte)) (s : State) :
    Host.Outcome State Fault Refusal :=
  match s.engine.executing with
  | some (.plateSave slot working) =>
    let r := s.endCycle slot working misread
    .next (r.1.complete r.2).serveEngine
  | _ => .next s

/-- PLATE_READ (R165). -/
def execPlateRead (arg : BitVec 16) (s : State) : Host.Outcome State Fault Refusal :=
  .next (s.writeCmd (cmdWord 0x09 arg))

/-- ACK_STOP (R155). -/
def execAckStop (arg : BitVec 16) (s : State) : Host.Outcome State Fault Refusal :=
  .next (s.writeCmd (cmdWord 0x0A arg))

/-- UNKNOWN_COMMAND (R181). -/
def execUnknownCommand (code : BitVec 8) (arg : BitVec 16) (s : State) :
    Host.Outcome State Fault Refusal :=
  .next (s.writeCmd (cmdWord code arg))

/-- CMD_WITHDRAW (R178). -/
def execCmdWithdraw (value : Word) (s : State) : Host.Outcome State Fault Refusal :=
  .next (s.writeCmd value)

/-- CMD_PEND_WRITE (R178). -/
def execCmdPendWrite (value : Word) (s : State) : Host.Outcome State Fault Refusal :=
  .next (s.writeCmd value)

end Sys2Proof.Machine
end

