-- ==== Sys2Proof/Machine/Window.lean ====
section
/-! DEFINITION. The memory window as the line controller meets it (chapter 9): register writes, exchange
memory writes, configuration space, what a read returns, the output pins, and the two resets. -/

namespace Sys2Proof.Machine

/-! ## Registers -/

/-- The code of a result in CMD_STATUS (R199). -/
def CmdResult.code : CmdResult → Nat
  | .none => 0
  | .ok => 1
  | .unchanged => 2
  | .badCode => 3
  | .badState => 4
  | .badArg => 5
  | .noJob => 6
  | .jobInvalid => 7
  | .plateInUse => 8
  | .badPlate => 9
  | .plateBlank => 10
  | .storeFault => 11
  | .stopPersists => 12

/-- The code of the state field of CMD_STATUS (R199). -/
def CmdPhase.code : CmdPhase → Nat
  | .idle => 0
  | .executing => 1
  | .done => 2

/-- CMD as read (R178, R199). -/
def Engine.cmd (e : Engine) : Word :=
  BitVec.ofNat 32 (e.code.toNat + 2 ^ 8 * e.arg.toNat + 2 ^ 31 * flagBit e.pend)

/-- CMD_STATUS as read (R199). -/
def Engine.status (e : Engine) : Word :=
  BitVec.ofNat 32
    (e.statusCode.toNat + 2 ^ 8 * e.seq.toNat + 2 ^ 16 * e.result.code + 2 ^ 24 * e.phase.code)

/-- The register at an offset of the register page, where there is one (R172). -/
def State.register (s : State) (offset : Nat) : Option Word :=
  if offset = 0x8000 then some s.engine.cmd
  else if offset = 0x8004 then some s.engine.status
  else if offset = 0x8008 then some (s.attn.causes.zeroExtend 32)
  else if offset = 0x800C then some (s.attn.enables.zeroExtend 32)
  else if offset = 0x8010 then some partId
  else none

/-- The byte a read of the window returns (R171, R172): 0xFF beyond the registers. -/
def State.readByte (s : State) (offset : Nat) : Byte :=
  if offset < exchangeBytes then s.mem.read offset
  else
    match s.register (offset / 4 * 4) with
    | some w => w.extractLsb' (8 * (offset % 4)) 8
    | none => 0xFF

/-- An aligned 4-byte write at an offset of the register page (R172, R178, R183, R184). -/
def State.writeRegister (offset : Nat) (w : Word) (s : State) : State :=
  if offset = 0x8000 then s.writeCmd w
  else if offset = 0x8008 then s.withAttn (s.attn.clear w)
  else if offset = 0x800C then s.withAttn (s.attn.setEnables w)
  else s

/-- The word of the four bytes from `i` of a write. -/
def wordOf (bytes : List Byte) (i : Nat) : Word := BitVec.ofNat 32 (ofLeBytes ((bytes.drop i).take 4))

/-- A write into the register page (R172): an aligned 4-byte write acts on its register, an aligned 8-byte
write is two 4-byte writes, the lower first, and a narrower or unaligned write is ignored. -/
def State.registerPageWrite (offset : Nat) (bytes : List Byte) (s : State) : State :=
  if bytes.length = 4 ∧ offset % 4 = 0 then s.writeRegister offset (wordOf bytes 0)
  else if bytes.length = 8 ∧ offset % 8 = 0 then
    (s.writeRegister offset (wordOf bytes 0)).writeRegister (offset + 4) (wordOf bytes 4)
  else s

/-- One write access to the memory window (R171, R172). Bytes below 0x8000 are stored. An access that lies in
the register page is taken as R172 gives; of one that begins below it and runs on into it, which is not
aligned, the bytes there are single-byte writes and are ignored. -/
def State.windowAccess (offset : Nat) (bytes : List Byte) (s : State) : State :=
  if exchangeBytes ≤ offset then s.registerPageWrite offset bytes
  else s.writeMem offset (bytes.take (exchangeBytes - offset))

/-- The size of the next access of a link request of more than 8 bytes of which `left` bytes are to come at
`offset`: 8 where an aligned access of 8 is left, and 1 at an unaligned start or end (R171). -/
def requestAccess (offset left : Nat) : Nat := if offset % 8 = 0 ∧ 8 ≤ left then 8 else 1

/-- The accesses that carry out a link request of more than 8 bytes, in order of increasing offset: aligned
8-byte accesses, with single-byte accesses at an unaligned start or end (R171). The first argument bounds their
number. -/
def linkAccesses : Nat → Nat → List Byte → List (Nat × List Byte)
  | 0, _, _ => []
  | fuel + 1, offset, bytes =>
    if bytes = [] then []
    else
      (offset, bytes.take (requestAccess offset bytes.length)) ::
        linkAccesses fuel (offset + requestAccess offset bytes.length)
          (bytes.drop (requestAccess offset bytes.length))

/-- A write of the memory window: one access, or the sequence of accesses of a link request of more than 8
bytes (R171). The accesses of one request stand in one step; the sender may put them on the queue one by one
instead, with steps of the part between them (log entry 23). -/
def State.windowWrite (offset : Nat) (bytes : List Byte) (s : State) : State :=
  if bytes.length ≤ 8 then s.windowAccess offset bytes
  else (linkAccesses bytes.length offset bytes).foldl (fun s a => s.windowAccess a.1 a.2) s

/-- A write of the line controller: what it does in the window, and a stop where a byte of it lies at no
offset of the window, 0x0000 to 0xFFFF (R171, R172). -/
def State.hostWrite (offset : Nat) (bytes : List Byte) (s : State) :
    Host.Outcome State Fault Refusal :=
  if offset + bytes.length ≤ windowBytes then .next (s.windowWrite offset bytes)
  else .fault .noSuchAddress

/-- ATTN_WRITE (R183). -/
def execAttnWrite (value : Word) (s : State) : Host.Outcome State Fault Refusal :=
  .next (s.writeRegister 0x8008 value)

/-- ATTN_ENABLE_WRITE (R184). -/
def execAttnEnableWrite (value : Word) (s : State) : Host.Outcome State Fault Refusal :=
  .next (s.writeRegister 0x800C value)

/-- REGISTER_WRITE_IGNORED (R172). -/
def execRegisterWriteIgnored (offset : Nat) (bytes : List Byte) (s : State) :
    Host.Outcome State Fault Refusal :=
  s.hostWrite offset bytes

/-! ## Exchange memory and configuration space -/

/-- EXCHANGE_MEMORY_WRITE (R170 to R172). -/
def execExchangeMemoryWrite (offset : Nat) (bytes : List Byte) (s : State) :
    Host.Outcome State Fault Refusal :=
  s.hostWrite offset bytes

/-- CONFIG_SPACE_WRITE (R185). -/
def execConfigSpaceWrite (config : PciConfig) (s : State) : Host.Outcome State Fault Refusal :=
  .next (s.withAttn (s.attn.setConfig config))

/-! ## Output pins -/

/-- The valve output of a station is energised (R89). -/
def State.valve (s : State) (st : Fin 4) : Bool := (s.station st).throw.engaged

/-- The level of the stop-request output (R153). -/
def State.stopOutput (s : State) : Bool := s.jobs.stopRequest

/-- The level of a generator's direction line between steps (R14). -/
def State.directionLine (s : State) (g : GenId) : Bool := (s.gen g).dirHigh

/-- The INTx line is asserted (R185). -/
def State.intxLine (s : State) : Bool := s.attn.intx

/-! ## Resets -/

/-- What a program cycle cut short leaves in its slot: a free value (R168). -/
def cutRecord (count : Nat) : Memory :=
  (List.range plateBytes).filterMap fun i =>
    if Config.cutByte count i = 0 then none else some (i, Config.cutByte count i)

/-- The store after a program cycle under way is abandoned: marker clear, entry BLANK (R168). -/
def State.abandonCycle (s : State) : State :=
  match s.engine.executing with
  | some (.plateSave slot _) =>
    (s.setSlot slot { record := cutRecord s.freeCount, marker := false, valid := false })
      |>.withFreeCount (s.freeCount + 1)
  | _ => s

/-- Every block at its reset values and exchange memory zero; the store, the model's count of free values
and the queue as they stand (R18, R40, R73, R101, R132, R157, R186, R197). -/
def State.clearBlocks (s : State) : State :=
  ((State.reset.withStore s.store).withFreeCount s.freeCount).withPending s.pending

/-- The entry a slot gets at power-on (R167). -/
def PlateSlot.powerOn (x : PlateSlot) : PlateSlot :=
  { x with valid := x.marker && passesCrc x.record }

/-- A slot whose record holds other bytes than were programmed, as the power finds it (R167). -/
def PlateSlot.decay (slot : Nat) (decayed : List (Nat × Nat × Byte)) (x : PlateSlot) : PlateSlot :=
  { x with
    record := (decayed.filter fun c => c.1 == slot && decide (c.2.1 < plateBytes)).foldl
      (fun m c => m.write c.2.1 [c.2.2]) x.record }

/-- The store as the power finds it, with the entries its check gives the slots (R167). -/
def State.powerOnStore (s : State) (decayed : List (Nat × Nat × Byte)) : List PlateSlot :=
  s.store.mapIdx fun n x => (x.decay n decayed).powerOn

/-- LINK_RESET (R168, R182, R186). -/
def execLinkReset (s : State) : Host.Outcome State Fault Refusal := .next s.abandonCycle.clearBlocks

/-- POWER_ON_RESET (R167, R186). -/
def execPowerOnReset (s : State) (decayed : List (Nat × Nat × Byte) := []) :
    Host.Outcome State Fault Refusal :=
  let s := s.abandonCycle.clearBlocks
  .next (s.withStore (s.powerOnStore decayed))

end Sys2Proof.Machine
end

