-- ==== Sys2Proof/Machine/Dispatch.lean ====
section
/-! DEFINITION. The meaning of each step of the part, one arm per row of the table. -/

namespace Sys2Proof.Machine

/-- The effect of a step on everything but the queue. -/
def exec (i : Instr) (s : State) : Host.Outcome State Fault Refusal :=
  match i with
  | .powerOnReset decayed => Sys2Proof.Machine.execPowerOnReset s decayed
  | .linkReset => Sys2Proof.Machine.execLinkReset s
  | .encoderCount a b => Sys2Proof.Machine.execEncoderCount a b s
  | .encoderFault a b => Sys2Proof.Machine.execEncoderFault a b s
  | .timebaseExpiry heaters => Sys2Proof.Machine.execTimebaseExpiry heaters s
  | .liftEvent st => Sys2Proof.Machine.execLiftEvent st s
  | .throwTravelComplete st => Sys2Proof.Machine.execThrowTravelComplete st s
  | .stepEmit g sinceNs => Sys2Proof.Machine.execStepEmit g sinceNs s
  | .markEdge lane level position => Sys2Proof.Machine.execMarkEdge lane level position s
  | .commitEvent st => Sys2Proof.Machine.execCommitEvent st s
  | .retirementEvent => Sys2Proof.Machine.execRetirementEvent s
  | .indexEdge st level position => Sys2Proof.Machine.execIndexEdge st level position s
  | .heatLossEvent st => Sys2Proof.Machine.execHeatLossEvent st s
  | .heatReadyEvent st => Sys2Proof.Machine.execHeatReadyEvent st s
  | .loadJob arg => Sys2Proof.Machine.execLoadJob arg s
  | .loadJobComplete => Sys2Proof.Machine.execLoadJobComplete s
  | .startRun arg => Sys2Proof.Machine.execStartRun arg s
  | .endRun arg => Sys2Proof.Machine.execEndRun arg s
  | .holdRun arg => Sys2Proof.Machine.execHoldRun arg s
  | .resumeRun arg => Sys2Proof.Machine.execResumeRun arg s
  | .rearmStation arg => Sys2Proof.Machine.execRearmStation arg s
  | .refillFoil arg => Sys2Proof.Machine.execRefillFoil arg s
  | .plateSave arg => Sys2Proof.Machine.execPlateSave arg s
  | .plateSaveComplete misread => Sys2Proof.Machine.execPlateSaveComplete misread s
  | .plateRead arg => Sys2Proof.Machine.execPlateRead arg s
  | .ackStop arg => Sys2Proof.Machine.execAckStop arg s
  | .unknownCommand code arg => Sys2Proof.Machine.execUnknownCommand code arg s
  | .cmdWithdraw value => Sys2Proof.Machine.execCmdWithdraw value s
  | .attnWrite value => Sys2Proof.Machine.execAttnWrite value s
  | .attnEnableWrite value => Sys2Proof.Machine.execAttnEnableWrite value s
  | .registerWriteIgnored offset bytes => Sys2Proof.Machine.execRegisterWriteIgnored offset bytes s
  | .exchangeMemoryWrite offset bytes => Sys2Proof.Machine.execExchangeMemoryWrite offset bytes s
  | .configSpaceWrite config => Sys2Proof.Machine.execConfigSpaceWrite config s
  | .cmdPendWrite value => Sys2Proof.Machine.execCmdPendWrite value s

end Sys2Proof.Machine
end

