-- ==== Sys2Proof/WellFormed.lean ====
section
/-! DEFINITION. Which steps are well formed: the operands a step can arrive with on the link or from the
mechanism. Steps whose operands are all in range by their type need no check. -/

namespace Sys2Proof

/-- A size the window accepts as one access (R171). -/
def accessSize (n : Nat) : Bool := n == 1 || n == 2 || n == 4 || n == 8

/-- A code that names a command of the table of R181. -/
def knownCode (code : BitVec 8) : Bool := 1 ≤ code.toNat && code.toNat ≤ 10

/-- A write into the register page that reaches no register that takes writes (R172): it is narrow, not
aligned, at CMD_STATUS, or at PART_ID and beyond. -/
def ignoredRegisterWrite (offset size : Nat) : Bool :=
  size < 4 || offset % size != 0 || (size == 4 && offset == 0x8004) || 0x8010 ≤ offset

/-- A link request of more than 8 bytes that lies in the register page and acts on no register: each access it
is carried out as is ignored. One that has an aligned 8-byte access below 0x8010 acts on a register (R171,
R172). -/
def ignoredRequest (offset size : Nat) : Bool :=
  0x8010 ≤ offset + 7 || offset + size < (offset + 7) / 8 * 8 + 8

/-- The check of a step's operands. -/
def Instr.wellFormed : Instr → Bool
  | .plateSaveComplete misread => misread.all fun c => c.1 < Machine.plateBytes
  | .unknownCommand code _ => !knownCode code
  | .cmdWithdraw value => !value.getLsbD 31
  | .cmdPendWrite value => value.getLsbD 31
  | .registerWriteIgnored offset bytes =>
    Machine.exchangeBytes ≤ offset && offset + bytes.length ≤ Machine.windowBytes &&
      (accessSize bytes.length && ignoredRegisterWrite offset bytes.length ||
        8 < bytes.length && ignoredRequest offset bytes.length)
  | .exchangeMemoryWrite offset bytes =>
    offset < Machine.exchangeBytes &&
      (accessSize bytes.length ||
        8 < bytes.length && offset + bytes.length ≤ Machine.exchangeBytes)
  | .powerOnReset decayed => decayed.all fun c => c.1 < Machine.plateSlots && c.2.1 < Machine.plateBytes
  | .linkReset => true
  | .encoderCount _ _ => true
  | .encoderFault _ _ => true
  | .timebaseExpiry _ => true
  | .liftEvent _ => true
  | .throwTravelComplete _ => true
  | .stepEmit _ _ => true
  | .markEdge _ _ _ => true
  | .commitEvent _ => true
  | .retirementEvent => true
  | .indexEdge _ _ _ => true
  | .heatLossEvent _ => true
  | .heatReadyEvent _ => true
  | .loadJob _ => true
  | .loadJobComplete => true
  | .startRun _ => true
  | .endRun _ => true
  | .holdRun _ => true
  | .resumeRun _ => true
  | .rearmStation _ => true
  | .refillFoil _ => true
  | .plateSave _ => true
  | .plateRead _ => true
  | .ackStop _ => true
  | .attnWrite _ => true
  | .attnEnableWrite _ => true
  | .configSpaceWrite _ => true

end Sys2Proof
end

