-- ==== Sys2Proof/Safety.lean ====
section
/-! DEFINITION. What counts as a safe run, in the terms the statements use: the events the part owes at a
state, the facts a state is meant to keep, and the parts of a state a step may leave alone. -/

namespace Sys2Proof.Machine

/-! ## Events the part owes -/

/-- The events due at a station: its travel, its lift, its heater and its commit. -/
def State.stationDue (s : State) (st : Fin 4) : List Instr :=
  (if s.travelDone st then [.throwTravelComplete st] else []) ++
    (if s.liftDue st then [.liftEvent st] else []) ++
    (if (s.station st).heaterAccepts then
      [if (s.station st).heaterLevel then .heatLossEvent st else .heatReadyEvent st] else []) ++
    if (s.commitDue st).isSome then [.commitEvent st] else []

/-- The events the part owes at a state: each is a step of the table that the part takes by itself before
the mechanism or the line controller does anything more. -/
def State.dueEvents (s : State) : List Instr :=
  s.stationDue 0 ++ s.stationDue 1 ++ s.stationDue 2 ++ s.stationDue 3 ++
    if s.headReady then [.retirementEvent] else []

/-- Nothing is owed. -/
def State.settled (s : State) : Bool := s.dueEvents.isEmpty

/-- The queue is prompt: the step at its front is one the part owes, or nothing is owed. The part itself
is always prompt; the model also answers queues that are not. -/
def State.prompt (s : State) : Bool :=
  s.settled || s.pending.head?.any fun c => s.dueEvents.contains c

/-! ## Facts every reachable state keeps -/

/-- Every cell lies below `n`. -/
def Memory.below (m : Memory) (n : Nat) : Prop := ∀ c ∈ m, c.1 < n

/-- Exchange memory and every plate record are in canonical form and within their sizes, the store holds
its sixteen slots, and a save under way names one of them (R158, R170). -/
def State.storageOk (s : State) : Prop :=
  s.mem.wf = true ∧ s.mem.below exchangeBytes ∧ s.store.length = plateSlots ∧
    (∀ x ∈ s.store, x.record.wf = true ∧ x.record.below plateBytes) ∧
    ∀ slot w, s.engine.executing = some (.plateSave slot w) →
      slot < plateSlots ∧ w.wf = true ∧ w.below plateBytes

/-- Every VALID slot, and every slot with its marker set, holds a record that is well formed and passes its
CRC, and so does the working copy of a program cycle under way (R158, R161, R164, R166). -/
def State.platesOk (s : State) : Prop :=
  (∀ x ∈ s.store, x.valid = true ∨ x.marker = true →
      plateFault x.record = none ∧ passesCrc x.record = true) ∧
    ∀ slot w, s.engine.executing = some (.plateSave slot w) →
      plateFault w = none ∧ passesCrc w = true

/-- Every VALID slot holds a record that passes its CRC (R158, R167). -/
def State.crcOk (s : State) : Prop := ∀ x ∈ s.store, x.valid = true → passesCrc x.record = true

/-- Row numbers are none 0 and each the successor of the one before, up to the last row opened `last`
and the next row number `next` (R27, R32). -/
def numbered (last next : Word) : List RowCtx → Prop
  | [] => True
  | [r] => r.row ≠ 0 ∧ r.row = last ∧ next = rowSucc r.row
  | r :: q :: rest => r.row ≠ 0 ∧ q.row = rowSucc r.row ∧ numbered last next (q :: rest)

/-- The row track holds at most 32 rows, numbered consecutively up to the last row opened, and row number
0 is never next (R27, R32). -/
def State.trackOk (s : State) : Prop :=
  s.track.length ≤ trackCapacity ∧ s.mark.nextRow ≠ 0 ∧
    numbered s.mark.lastOpened s.mark.nextRow s.track

/-- A station at rest, as every station is in IDLE (R99). -/
def Station.resting (x : Station) : Prop :=
  x.state = .inactive ∧ x.fault = false ∧ x.throw = .off ∧ x.timer = 0 ∧ x.dwell = 0 ∧ x.risk = [] ∧
    x.indexSeen = false ∧ x.drift = 0 ∧ x.rho = 0 ∧ x.trimTotal = 0 ∧ x.lastError = none

/-- A channel at rest, as every channel is in IDLE (R105). -/
def Channel.resting (x : Channel) : Prop :=
  x.state = .idle ∧ x.strokes = [] ∧ x.current = none ∧ x.plan = none ∧ x.mergingFrom = none

/-- In IDLE every station and channel is at rest, every generator ratio is 0 and the overspeed flag is
clear; in IDLE, ARMED and HELD no row is on the track and no mark is expected; and the hold cause is NONE
outside HELD and names a cause in it (R12, R32, R38, R99, R105, R147 to R151). -/
def State.runOk (s : State) : Prop :=
  (s.jobs.run = .idle →
    (∀ st, (s.station st).resting ∧ (s.cylGens.get st).ratio = 0) ∧
    (∀ c, (s.channel c).resting ∧ (s.foilGens.get c).ratio = 0) ∧ s.wpu.overspeed = false) ∧
  (s.jobs.run = .idle ∨ s.jobs.run = .armed ∨ s.jobs.run = .held →
    s.track = [] ∧ s.mark.expected = none) ∧
  (s.jobs.holdCause ≠ .none ↔ s.jobs.run = .held)

/-- A throw is CLOSING or ON only at a station that is TRACKING while the run is RUNNING or DRAINING
(R92). -/
def State.throwsOk (s : State) : Prop :=
  ∀ st, (s.station st).throw.engaged = true →
    (s.station st).state = .tracking ∧ (s.jobs.run = .running ∨ s.jobs.run = .draining)

/-- No row whose applied verdict is SPLICE has a strike outcome at any station (R82). -/
def State.splicesOk (s : State) : Prop :=
  ∀ r ∈ s.track, r.verdict = .splice → ∀ st, r.struckAt st = false

/-- A command is pending only while another executes, CMD_STATUS shows EXECUTING exactly while one does,
and its result reads NONE meanwhile (R178 to R180). -/
def State.engineOk (s : State) : Prop :=
  (s.engine.pend = true → s.engine.executing.isSome = true) ∧
    (s.engine.executing.isSome = true ↔ s.engine.phase = .executing) ∧
    (s.engine.phase = .executing → s.engine.result = .none)

/-- A slot being programmed is referenced by CURRENT only in IDLE (R162). -/
def State.cycleOk (s : State) : Prop :=
  ∀ slot w, s.engine.executing = some (.plateSave slot w) →
    s.jobs.run = .idle ∨ s.jobs.currentReferences slot = false

/-- Each channel keeps what R104, R108 and R121 say of it: a current stroke in RAMP_UP and SYNC, none in
STANDING and IDLE, a pending stroke list within its capacity, a fraction below one tick, and a plan only in
RAMP_DOWN and STANDING, to a stroke that is pending. -/
def State.channelsOk (s : State) : Prop :=
  ∀ c, (s.channel c).strokes.length ≤ strokeCapacity ∧ (s.channel c).fraction < 65536 ∧
    ((s.channel c).state = .rampUp ∨ (s.channel c).state = .sync → (s.channel c).current ≠ none) ∧
    ((s.channel c).state = .standing ∨ (s.channel c).state = .idle → (s.channel c).current = none) ∧
    ∀ p, (s.channel c).plan = some p → p.stroke ∈ (s.channel c).strokes ∧
      ((s.channel c).state = .rampDown ∨ (s.channel c).state = .standing)

/-- Foil parameters lie in their ranges (R103, R138). -/
def FoilParams.inRange (p : FoilParams) : Prop :=
  p.lead ≤ 2000 ∧ p.trail ≤ 2000 ∧ p.dmin ≤ 20000 ∧ 1 ≤ p.accel ∧ p.accel ≤ 1000 ∧ 2 ≤ p.minRamp ∧
    p.minRamp ≤ 20000 ∧ p.minRamp % 2 = 0 ∧ 1 ≤ p.fs ∧ p.fs ≤ 16777215

/-- A station block names a type; the fields of an active one lie in their ranges that do not depend on the
pitch, and so do the foil parameters of a heated one (R74, R134). -/
def StationBlock.inRange (b : StationBlock) : Prop :=
  b.typeCode ≤ 3 ∧
  (b.active = true →
    b.plateSlot ≤ 15 ∧ 1 ≤ b.distance ∧ b.distance ≤ 2000000 ∧ 1000 ≤ b.steps ∧
    b.steps ≤ 10000000 ∧ b.indexOffset.natAbs ≤ 320000 ∧ 5 ≤ b.throwOn ∧ b.throwOn ≤ 250 ∧
    5 ≤ b.throwOff ∧ b.throwOff ≤ 250 ∧ b.guard ≤ 1000 ∧ b.deadBand ≤ 200 ∧ 1 ≤ b.trimStep ∧
    b.trimStep ≤ 400 ∧ 1 ≤ b.catchStep ∧ 20 ≤ b.catchBand ∧ b.catchBand ≤ 2000 ∧
    10 ≤ b.slipTol ∧ b.slipTol ≤ 2000) ∧
  (b.heated = true → b.foil.inRange)

/-- A channel block names a use; one that is ASSIGNED names a station and a lane, and its own foil parameters
lie in their ranges where it overrides the station's (R102, R135). -/
def ChannelBlock.inRange (b : ChannelBlock) : Prop :=
  b.useCode ≤ 1 ∧
  (b.assigned = true →
    b.station ≤ 3 ∧ b.lane ≤ 3 ∧ b.override ≤ 1 ∧ (b.override = 1 → b.own.inRange))

/-- The fields of a job lie in their ranges that do not depend on the pitch, and the job names at least
one active station (R133 to R135, R138). -/
def Job.inRange (j : Job) : Prop :=
  1 ≤ j.laneSet ∧ j.laneSet ≤ 15 ∧ j.laneActive j.leadingLane = true ∧ j.leadingLane ≤ 3 ∧
    (∀ l, (j.laneOffsets.get l).natAbs ≤ 20000) ∧ 50 ≤ j.window ∧ j.window ≤ 4000 ∧
    1 ≤ j.missingLimit ∧ j.missingLimit ≤ 15 ∧ 4096 ≤ j.scaleQ ∧ j.scaleQ ≤ 4194304 ∧
    j.reverseTol ≤ 20000 ∧ 1 ≤ j.v8Max ∧ j.v8Max ≤ 32767 ∧ j.crawl < j.resume ∧
    j.resume ≤ 32767 ∧ 20 ≤ j.dwellLimit ∧ j.dwellLimit ≤ 2000 ∧ j.headroom ≤ 64 ∧
    (j.defaultVerdict = 1 ∨ j.defaultVerdict = 2) ∧ j.tallyCode ≤ 3 ∧
    (∀ st, (j.stations.get st).inRange) ∧ (∃ st, (j.stations.get st).active = true) ∧
    ∀ c, (j.channels.get c).inRange

/-- Every job in a job slot is in range, and the scale and the headroom in force are (R4, R11, R133). -/
def State.jobsOk (s : State) : Prop :=
  (∀ j, s.jobs.next = some j → j.inRange) ∧ (∀ c, s.jobs.current = some c → c.job.inRange) ∧
    4096 ≤ s.wpu.scaleQ ∧ s.wpu.scaleQ ≤ 4194304 ∧ s.wpu.headroom ≤ 64

/-! ## Commands -/

/-- CMD and CMD_STATUS after a command that a free engine accepted and that ended at its acceptance
(R178 to R180, R199). -/
def Engine.done (e : Engine) (code : BitVec 8) (arg : BitVec 16) (r : CmdResult) : Engine :=
  { code := code, arg := arg, pend := false, statusCode := code, seq := e.seq + 1, result := r
    phase := .done, executing := none }

/-- CMD and CMD_STATUS after a command that a free engine accepted and that goes on executing. -/
def Engine.running (e : Engine) (code : BitVec 8) (arg : BitVec 16) (x : Executing) : Engine :=
  { code := code, arg := arg, pend := false, statusCode := code, seq := e.seq + 1, result := .none
    phase := .executing, executing := some x }

/-- CMD after a write with PEND set while a command executes: the command waits. -/
def Engine.waiting (e : Engine) (code : BitVec 8) (arg : BitVec 16) : Engine :=
  { e with code := code, arg := arg, pend := true }

/-! ## What a step leaves alone -/

/-- The two states have the same memory and records. -/
def sameMemory (s t : State) : Prop := t.mem = s.mem ∧ t.records = s.records

/-- The two states agree on the command engine, the plate store, the live page generation, the enables
and the configuration space, the model's count of free values, and the queue. -/
def sameOutside (s t : State) : Prop :=
  t.engine = s.engine ∧ t.store = s.store ∧ t.generation = s.generation ∧
    t.attn.enables = s.attn.enables ∧ t.attn.config = s.attn.config ∧
    t.freeCount = s.freeCount ∧ t.pending = s.pending

/-- The two states agree on the job slots and the run's first row. -/
def sameSlots (s t : State) : Prop :=
  t.jobs.next = s.jobs.next ∧ t.jobs.current = s.jobs.current ∧ t.jobs.firstRow = s.jobs.firstRow

/-- The two states agree on the run state, the hold cause, the job slots and the run's first row. -/
def sameRun (s t : State) : Prop :=
  t.jobs.run = s.jobs.run ∧ t.jobs.holdCause = s.jobs.holdCause ∧ sameSlots s t

/-- A memory changed at no address but those of `[a, b)`. -/
def changedWithin (m k : Memory) (a b : Nat) : Prop :=
  ∀ x, x < a ∨ b ≤ x → k.read x = m.read x

/-- A memory changed at no address but records written through and oldest intact on the live page and the
record strip: the bytes a retirement stores (R175, R187). -/
def changedByRecords (m k : Memory) : Prop :=
  ∀ x, x < 0x18 ∨ (0x20 ≤ x ∧ x < recordOffset) ∨ exchangeBytes ≤ x → k.read x = m.read x

/-! ## What a read of the window shows -/

/-- The 4-byte value that a read at `a` of the memory window returns, least significant byte first (R171, R172,
R198). -/
def State.read4 (s : State) (a : Nat) : Nat := ofLeBytes ((List.range 4).map fun i => s.readByte (a + i))

/-- A read of CMD shows the code, the argument and PEND as CMD holds them, and 0 in its unused bits (R172, R178,
R199). -/
def State.cmdShown (s : State) : Prop :=
  let w := s.read4 0x8000
  w % 2 ^ 8 = s.engine.code.toNat ∧ w / 2 ^ 8 % 2 ^ 16 = s.engine.arg.toNat ∧
    w / 2 ^ 24 % 2 ^ 7 = 0 ∧ (w / 2 ^ 31 = 1 ↔ s.engine.pend = true)

/-- The results of CMD_STATUS with their codes (R199). -/
def resultCodes : List (CmdResult × Nat) :=
  [(.none, 0), (.ok, 1), (.unchanged, 2), (.badCode, 3), (.badState, 4), (.badArg, 5), (.noJob, 6),
    (.jobInvalid, 7), (.plateInUse, 8), (.badPlate, 9), (.plateBlank, 10), (.storeFault, 11),
    (.stopPersists, 12)]

/-- A read of CMD_STATUS shows the code, the sequence number, the result and the state of the command last
accepted, with the codes of R199, and 0 in its unused bits (R172, R199). -/
def State.statusShown (s : State) : Prop :=
  let w := s.read4 0x8004
  w % 2 ^ 8 = s.engine.statusCode.toNat ∧ w / 2 ^ 8 % 2 ^ 8 = s.engine.seq.toNat ∧
    (∀ p ∈ resultCodes, s.engine.result = p.1 → w / 2 ^ 16 % 2 ^ 8 = p.2) ∧
    (∀ p ∈ [(CmdPhase.idle, 0), (.executing, 1), (.done, 2)], s.engine.phase = p.1 →
      w / 2 ^ 24 = p.2)

/-- The word of the attention registers with bit k the flag numbered k, and 0 in bits 31:18 (R199). -/
def flagsShown (w : Nat) (flags : BitVec 18) : Prop :=
  ∀ k, w.testBit k = true ↔ k < 18 ∧ flags.getLsbD k = true

/-! ## What the live page shows -/

/-- The hold causes with their codes (R201). -/
def holdCauseCodes : List (HoldCause × Nat) :=
  [(.none, 0), (.host, 1), (.reverse, 2), (.encoder, 3), (.trackFull, 4)]

/-- The station states with their codes (R201). -/
def stationStateCodes : List (StationState × Nat) :=
  [(.inactive, 0), (.heatWait, 1), (.catching, 2), (.tracking, 3), (.lifted, 4), (.faulted, 5)]

/-- The throw states with their codes (R201). -/
def throwCodes : List (Throw × Nat) := [(.off, 0), (.closing, 1), (.on, 2), (.opening, 3)]

/-- The channel states with their codes (R201). -/
def channelStateCodes : List (ChannelState × Nat) :=
  [(.idle, 0), (.standing, 1), (.rampUp, 2), (.sync, 3), (.rampDown, 4)]

/-- The stop causes with their bits in the stop-cause set (R201). -/
def stopCauseBits : List (StopCause × Nat) :=
  [(.host, 0), (.reverse, 1), (.encoder, 2), (.trackFull, 3), (.regLost, 4), (.stationFault, 5),
    (.stationHeat, 6), (.spliceRisk, 7), (.overspeed, 8), (.foilOut, 9)]

/-! ## What a record shows -/

/-- `x` fits a signed field of `n` bits. -/
def fits (n : Nat) (x : Int) : Prop := -(2 ^ (n - 1)) ≤ x ∧ x < 2 ^ (n - 1)

/-- How many of `l` are present. -/
def present {α : Type} (l : List (Option α)) : Nat := (l.filter Option.isSome).length

/-- The outcomes with their codes (R205). -/
def outcomeCodes : List (RowOutcome × Nat) :=
  [(.struck, 1), (.struckLate, 2), (.struckUnskipped, 3), (.skipped, 4), (.spliceCleared, 5),
    (.spliceRisk, 6), (.sacrificed, 7), (.catching, 8), (.heatWait, 9), (.lifted, 10), (.faulted, 11),
    (.abandoned, 12)]

/-- The 2 bytes at `a` show a lane entry: the signed error in bits 13:0, 0 but for FOUND, and the status in bits
15:14 (R205). -/
def laneShown (m : Memory) (a : Nat) (x : LaneEntry) : Prop :=
  let w := m.nat 2 a
  (x = .absent → w = 0) ∧ (x = .leading → w = 1 * 2 ^ 14) ∧ (x = .missing → w = 3 * 2 ^ 14) ∧
    ∀ d, x = .found d → w / 2 ^ 14 = 2 ∧ (fits 14 d → ofTwos 14 (w % 2 ^ 14) = d)

/-- The 14 bytes at `a` show the entry of station `st` of a row whose arrival there is `arrival`: the station,
the committed flag, whether the error is present, and the outcome; the die face offset, saturated to 24 bits;
the error, 0 when absent, and the trim; and the zone start and end offsets (R189, R205). -/
def stationShown (m : Memory) (a : Nat) (st : Fin 4) (arrival : Pos) (e : StationEntry) : Prop :=
  let b := m.nat 1 a
  let g := m.nat 5 (a + 4)
  let z := m.nat 5 (a + 9)
  b % 4 = st ∧ (b / 4 % 2 = 1 ↔ e.committed = true) ∧ (b / 8 % 2 = 1 ↔ e.error ≠ none) ∧
    (∀ p ∈ outcomeCodes, e.outcome = some p.1 → b / 16 = p.2) ∧
    m.int 3 (a + 1) = max (-8388608) (min 8388607 (dist arrival e.face)) ∧
    (e.error = none → g % 2 ^ 18 = 0) ∧
    (∀ x, e.error = some x → fits 18 x → ofTwos 18 (g % 2 ^ 18) = x) ∧
    (fits 18 e.trim → ofTwos 18 (g / 2 ^ 18 % 2 ^ 18) = e.trim) ∧ g / 2 ^ 36 = 0 ∧
    (fits 20 e.zoneStartOff → ofTwos 20 (z % 2 ^ 20) = e.zoneStartOff) ∧
    (fits 20 e.zoneEndOff → ofTwos 20 (z / 2 ^ 20) = e.zoneEndOff)

/-- The late bit that row `r` shows for channel `c`: the flag, but clear where no foil was used and the
channel's station neither struck the row nor gave it up at a hold. That it is so is the model's reading of R190
beside R108, R131 and R150 (log entry 35). -/
def State.showsLate (s : State) (r : RowCtx) (c : Fin 8) (e : ChannelEntry) : Prop :=
  e.late = true ∧ (0 < e.foilUsed ∨ ∃ st x o, s.chanStation c = some st ∧
    r.stations.get st = some x ∧ x.outcome = some o ∧
    o ∈ [.struck, .struckLate, .struckUnskipped, .abandoned])

/-- The 6 bytes at `a` show the entry of channel `c`: the channel and the late bit, foil used saturated at
16,777,215, and the counts of hops and of merges (R190, R205). -/
def State.channelShown (s : State) (m : Memory) (a : Nat) (r : RowCtx) (c : Fin 8) (e : ChannelEntry) : Prop :=
  let b := m.nat 1 a
  b % 8 = c ∧ (b / 8 = 1 ↔ s.showsLate r c e) ∧ b < 16 ∧ m.nat 3 (a + 1) = min 16777215 e.foilUsed ∧
    m.nat 1 (a + 4) = min 255 e.hops ∧ m.nat 1 (a + 5) = min 255 e.merges

/-- The slot of row `r` in the record strip of `m` shows its record whole, with the row number in place: the
fields of the row; a station entry for each station the row has an entry for, in station order from 0x18; a
channel entry for each channel likewise from 0x50; and 0 beyond them (R187 to R190, R205). -/
def State.recordShown (s : State) (m : Memory) (r : RowCtx) : Prop :=
  let a := 0x4000 + 128 * (r.row.toNat % 128)
  let n := present r.stations.toList
  let k := present r.channels.toList
  m.word a = r.row ∧ m.word (a + 4) = r.jobTag ∧ m.word (a + 8) = r.lead ∧
    (∀ p ∈ [(MarkStatus.first, 1), (.found, 2), (.missing, 3), (.recaptured, 4)], r.status = p.1 →
      m.nat 1 (a + 0x0C) = p.2) ∧
    (∀ p ∈ [(Verdict.stamp, 1), (.skip, 2), (.splice, 3)], r.verdict = p.1 →
      m.nat 1 (a + 0x0D) = p.2) ∧
    (∀ p ∈ [(Source.strip, 1), (.absent, 2), (.early, 3), (.stale, 4), (.bad, 5)], r.source = p.1 →
      m.nat 1 (a + 0x0E) = p.2) ∧
    m.nat 1 (a + 0x0F) = n + 16 * k ∧
    (∀ l : Fin 4, laneShown m (a + 0x10 + 2 * l) (r.lanes.get l)) ∧
    (∀ st e, r.stations.get st = some e →
      stationShown m (a + 0x18 + 14 * present (r.stations.toList.take st)) st
        (moved r.lead (s.block st).distance) e) ∧
    (∀ c e, r.channels.get c = some e →
      s.channelShown m (a + 0x50 + 6 * present (r.channels.toList.take c)) r c e) ∧
    ∀ x, 0x18 + 14 * n ≤ x ∧ x < 0x50 ∨ 0x50 + 6 * k ≤ x ∧ x < 0x80 → m.read (a + x) = 0

/-- From `s` to `t` the attention causes that `p` names were set, and no other cause was set or cleared
(R183). -/
def causesSet (s t : State) (p : AttnCause → Prop) : Prop :=
  ∀ k, t.attn.has k = true ↔ s.attn.has k = true ∨ p k

/-- The record of row `n` overwrites one that the line controller has not taken (R191, R192). -/
def State.lapped (s : State) (n : Word) : Prop := 0 < (n - 128 - s.mem.word 0x100).toInt

/-- Oldest intact beside its word of the live page, from what they were to what the record of row `n` makes them:
both take n − 127 where that lies beyond oldest intact, and both stay otherwise (R175, R193). -/
def oldestAfter (p : Word × Word) (n : Word) : Word × Word :=
  if 0 < (n - 127 - p.1).toInt then (n - 127, n - 127) else p

/-- The record of row `n` is one of those at which the tally falls due (R195). -/
def State.tallied (s : State) (n : Word) : Prop :=
  ∃ k, s.job.tallyRows = some k ∧ (n - s.jobs.firstRow + 1).toNat % k = 0

/-! ## The job check report -/

/-- The scopes with their codes (R202). -/
def scopeCodes : List (Scope × Nat) := [(.job, 1), (.lane, 2), (.station, 3), (.channel, 4)]

/-- The errors with their codes (R202). -/
def errorCodes : List (JobError × Nat) :=
  [(.badRange, 1), (.leadingInactive, 2), (.crawlResume, 3), (.noStation, 4), (.blankPlate, 5),
    (.pitchMismatch, 6), (.laneCount, 7), (.laneSpread, 8), (.channelUnheated, 9),
    (.channelLaneInactive, 10), (.channelDuplicate, 11), (.unservedLane, 12), (.distanceShort, 13),
    (.trackDepth, 14), (.throwSlow, 15), (.cylinderRate, 16), (.foilRate, 17)]

/-- The report entry at `a` shows a failure: scope, number, field, error and lane (R202). -/
def entryShown (m : Memory) (a : Nat) (f : Failure) : Prop :=
  (∀ p ∈ scopeCodes, f.scope = p.1 → m.nat 1 a = p.2) ∧ m.nat 1 (a + 1) = f.number % 256 ∧
    m.nat 2 (a + 2) = f.field % 65536 ∧ (∀ p ∈ errorCodes, f.error = p.1 → m.nat 1 (a + 4) = p.2) ∧
    m.nat 1 (a + 5) = f.lane % 256 ∧ m.nat 2 (a + 6) = 0

/-- The job check report shows a list of failures: the total count to 255 at most, the first eight as
entries in their order, and zeros in every other byte (R142, R202). -/
def reportShown (m : Memory) (fs : List Failure) : Prop :=
  m.nat 1 0x200 = min 255 fs.length ∧ (∀ x, 0x201 ≤ x → x < 0x208 → m.read x = 0) ∧
    ∀ i, i < 8 →
      (∀ f, fs[i]? = some f → entryShown m (0x208 + 8 * i) f) ∧
        (fs[i]? = none → ∀ x, x < 8 → m.read (0x208 + 8 * i + x) = 0)

/-! ## Plate records -/

/-- The label of a plate record is as R159 gives: each byte printable or 0, and every byte after the first 0 also
0. -/
def labelWellFormed (m : Memory) : Prop :=
  ∀ i, i < 24 → (m.read i = 0 ∨ 0x20 ≤ (m.read i).toNat ∧ (m.read i).toNat ≤ 0x7E) ∧
    (m.read i = 0 → ∀ k, i ≤ k → k < 24 → m.read k = 0)

/-- The image count of lane `l` of a plate record (R204). -/
def imageCount (m : Memory) (l : Nat) : Nat := m.nat 1 (0x020 + 104 * l)

/-- The start offset of image `i` of lane `l` (R204). -/
def imageStart (m : Memory) (l i : Nat) : Nat := m.nat 4 (0x020 + 104 * l + 0x08 + 8 * i)

/-- The length of image `i` of lane `l` (R204). -/
def imageLength (m : Memory) (l i : Nat) : Nat := m.nat 4 (0x020 + 104 * l + 0x0C + 8 * i)

/-- An image after the first of its lane starts at or beyond the end of the image before it (R159). -/
def imageOrdered (m : Memory) (l i : Nat) : Prop :=
  ∀ k, k + 1 = i → imageStart m l k + imageLength m l k ≤ imageStart m l i

/-- An image is of length at least 1, ends within the pitch, and starts in order (R159). -/
def imageWellFormed (m : Memory) (l i : Nat) : Prop :=
  1 ≤ imageLength m l i ∧ imageStart m l i + imageLength m l i ≤ m.nat 4 0x018 ∧ imageOrdered m l i

/-- An image list has at most twelve images, each well formed (R159). -/
def laneWellFormed (m : Memory) (l : Nat) : Prop :=
  imageCount m l ≤ 12 ∧ ∀ i, i < imageCount m l → imageWellFormed m l i

/-- The first check of R161, in its order, that a plate record fails has the code `code` of R202 and concerns
`lane` and `image`, none where it concerns no lane or no image: 1 the label, 2 the pitch, 3 the faces around, 4 the
lane count; and of the first lane that is not well formed 5 its image count, or of its first such image 6 the
length, 7 the end beyond the pitch, 8 the order. -/
def firstFault (m : Memory) (code : Nat) (lane image : Option Nat) : Prop :=
  let whole (c : Nat) : Prop := code = c ∧ lane = none ∧ image = none
  let pitch := m.nat 4 0x018
  let pitchOk := 4000 ≤ pitch ∧ pitch ≤ 80000
  let facesOk := 1 ≤ m.nat 1 0x01C ∧ m.nat 1 0x01C ≤ 4
  let lanesOk := 1 ≤ m.nat 1 0x01D ∧ m.nat 1 0x01D ≤ 4
  whole 1 ∧ ¬ labelWellFormed m ∨
  labelWellFormed m ∧ (whole 2 ∧ ¬ pitchOk ∨
  pitchOk ∧ (whole 3 ∧ ¬ facesOk ∨
  facesOk ∧ (whole 4 ∧ ¬ lanesOk ∨
  lanesOk ∧ ∃ l, lane = some l ∧ l < m.nat 1 0x01D ∧ (∀ k, k < l → laneWellFormed m k) ∧
    (code = 5 ∧ image = none ∧ 12 < imageCount m l ∨
    imageCount m l ≤ 12 ∧ ∃ i, image = some i ∧ i < imageCount m l ∧
      (∀ k, k < i → imageWellFormed m l k) ∧
      (code = 6 ∧ imageLength m l i = 0 ∨
      1 ≤ imageLength m l i ∧ (code = 7 ∧ pitch < imageStart m l i + imageLength m l i ∨
      imageStart m l i + imageLength m l i ≤ pitch ∧ code = 8 ∧ ¬ imageOrdered m l i))))))

/-! ## The parts of a channel -/

/-- The part of a channel that its motion and its strokes make up (R104). -/
def Channel.motion (x : Channel) :
    ChannelState × List Stroke × Option Stroke × Option Plan × Nat × Nat × Option Stroke :=
  (x.state, x.strokes, x.current, x.plan, x.rampLen, x.rampProgress, x.mergingFrom)

/-- The rest of a channel: its position, its accounts and its parameters (R104). -/
def Channel.accounts (x : Channel) : Nat × Nat × Nat × Nat × Bool × Bool × FoilParams :=
  (x.foilTicks, x.fraction, x.remaining, x.runUsed, x.lowArmed, x.out, x.params)

/-! ## Holds -/

/-- A row as a hold leaves it: ABANDONED at every active station whose zone-end event for it has not been
taken (R96, R150). -/
def State.abandoned (s : State) (r : RowCtx) : RowCtx :=
  { r with stations := r.stations.mapIdx fun st e =>
      if (s.station st).state = .inactive then e
      else e.map fun e => if e.endTaken = true then e else { e with outcome := some .abandoned } }

/-- Every row on the track of `s` has its record, as a hold leaves the row, in its slot of `t`; records written
through stands at the last of them, and its word of the live page shows it; and oldest intact and its word stand as
the records, oldest first, make them (R35, R150, R175, R193, R196). -/
def recordsOfAHold (s t : State) : Prop :=
  (s.trackOk → ∀ r ∈ s.track, s.recordShown t.mem (s.abandoned r) ∧ ∀ x, x < 128 →
    t.mem.read (0x4000 + 128 * (r.row.toNat % 128) + x) =
      (s.recordBytes (s.abandoned r) r.row.toNat).getD x 0) ∧
  (∀ r, s.track.getLast? = some r → t.records.writtenThrough = r.row ∧ t.mem.word 0x18 = r.row) ∧
  (t.records.oldestIntact, t.mem.word 0x1C) =
    (s.track.map RowCtx.row).foldl oldestAfter (s.records.oldestIntact, s.mem.word 0x1C) ∧
  (s.track = [] → sameMemory s t) ∧ changedByRecords s.mem t.mem

/-- From `s` to `t` a hold acted on the stations: each that is not INACTIVE forces its throw off, leaves TRACKING
or LIFTED for CATCHING, and empties its dwell count and its risk set; the rest of it stays (R92, R96). -/
def stationsHeld (s t : State) : Prop :=
  ∀ st,
    let x := s.station st
    let on := x.throw = .closing ∨ x.throw = .on
    (x.state = .inactive → t.station st = x) ∧
    (x.state ≠ .inactive →
      t.station st =
        { x with
          state := if x.state = .tracking ∨ x.state = .lifted then .catching else x.state
          throw := if on then .opening else x.throw
          timer := if on then (s.block st).throwOff else x.timer
          dwell := 0, risk := [] })

/-- From `s` to `t` a hold acted on the channels: each that is not IDLE loses its strokes, its plan, its current
stroke and its merge marker, keeps its accounts, and ramps down by its state: from SYNC with a ramp computed at
that moment, from RAMP_UP with the last part of one, from RAMP_DOWN as it was; one that stands, or whose ramp up
had not begun, stands (R129). -/
def channelsHeld (s t : State) : Prop :=
  ∀ c,
    let x := s.channel c
    let y := t.channel c
    let len := rampLength s.wpu.v8p x.params
    (x.state = .idle → y = x) ∧
    (x.state ≠ .idle →
      y.strokes = [] ∧ y.plan = none ∧ y.current = none ∧ y.mergingFrom = none ∧
      y.accounts = x.accounts ∧ (x.state = .standing → y.state = .standing) ∧
      (x.state = .sync → y.state = .rampDown ∧ y.rampLen = len ∧ y.rampProgress = 0) ∧
      (x.state = .rampDown →
        y.state = .rampDown ∧ y.rampLen = x.rampLen ∧ y.rampProgress = x.rampProgress) ∧
      (x.state = .rampUp → x.rampProgress = 0 → y.state = .standing) ∧
      (x.state = .rampUp → x.rampProgress ≠ 0 →
        y.state = .rampDown ∧ y.rampLen = len ∧
          y.rampProgress = len - ceilDiv (x.rampProgress * len) x.rampLen))

/-- From `s` to `t` a hold acted on the blocks: the stations, the channels, the mark unit, which forgets its
windows and its search, and the row track, which retires every row with its record; no generator moves (R36, R96,
R129, R149, R150, R196). -/
def blocksHeld (s t : State) : Prop :=
  stationsHeld s t ∧ channelsHeld s t ∧
    t.mark = { s.mark with expected := none, missing := 0, search := false, held := .all none
                           windows := .all none } ∧
    t.track = [] ∧ recordsOfAHold s t ∧ t.wpu = s.wpu ∧ t.cylGens = s.cylGens ∧
    t.foilGens = s.foilGens

/-- From `s` to `t` the run's entry to IDLE acted on the blocks: the overspeed flag and the mark unit's windows and
search are clear, the track is empty, every station and channel is at rest with what IDLE leaves it, and every
generator ratio is 0 (R12, R15, R16, R38, R99, R105, R147). -/
def idleEntered (s t : State) : Prop :=
  t.wpu = { s.wpu with overspeed := false } ∧
    t.mark = { s.mark with expected := none, missing := 0, search := false, held := .all none
                           windows := .all none } ∧
    t.track = [] ∧
    (∀ st, (t.station st).resting ∧ (t.station st).base = (s.station st).base ∧
      (t.station st).heaterLevel = (s.station st).heaterLevel ∧
      (t.station st).indexLevel = (s.station st).indexLevel ∧
      t.cylGens.get st = { s.cylGens.get st with ratio := 0 }) ∧
    ∀ c, (t.channel c).resting ∧ (t.channel c).remaining = (s.channel c).remaining ∧
      (t.channel c).runUsed = (s.channel c).runUsed ∧ (t.channel c).lowArmed = (s.channel c).lowArmed ∧
      (t.channel c).out = (s.channel c).out ∧ (t.channel c).params = (s.channel c).params ∧
      t.foilGens.get c = { s.foilGens.get c with ratio := 0 }

/-- The causes a hold sets: RUN_HELD, and RECORD_LAPPED and TALLY where a record of one of its rows sets them
(R149, R192, R195). -/
def State.holdSets (s : State) (k : AttnCause) : Prop :=
  k = .runHeld ∨ k = .recordLapped ∧ (∃ r ∈ s.track, s.lapped r.row) ∨
    k = .tally ∧ ∃ r ∈ s.track, s.tallied r.row

/-! ## Foil motion and withdrawal -/

/-- The foil travel after `k` ticks of a ramp of `len`, in 1/65,536 tick: T(k) of R113. -/
def travel (len k : Nat) : Nat := k * k * 32768 / len

/-- The stroke a STANDING channel `x` watches at planning speed `v8p`, with the length of the ramp up to it:
the plan's, or the first pending stroke's with a length computed afresh (R115, R121). -/
def Channel.watches (x : Channel) (v8p : Nat) (k : Stroke) (len : Nat) : Prop :=
  x.plan = some { stroke := k, len := len } ∨
    x.plan = none ∧ x.strokes.head? = some k ∧ len = rampLength v8p x.params

/-- The channel `x` in the ramp of `len` up to stroke `k`, `progress` ticks into it: the stroke is engaged and
current, and there is no plan (R109, R115, R121). -/
def Channel.ramping (x : Channel) (k : Stroke) (len progress : Nat) : Channel :=
  { x with state := .rampUp, strokes := x.strokes.erase k, current := some k, plan := none
           rampLen := len, rampProgress := progress }

/-- In `t` channel `c`, which stood as `x` with its strokes where `s` has them, has taken the ramp up that
waits: where the start point of the stroke it watches is reached it ramps up to it, late where the start point
is already behind the high-water position, and otherwise it stands as it was (R115, R116, R121, R122). -/
def rampTaken (s t : State) (c : Fin 8) (x : Channel) : Prop :=
  (x.plan = none → x.strokes = [] → (t.channel c).motion = x.motion) ∧
  ∀ k len f, x.watches t.wpu.v8p k len → s.chanFace c k.row = some f →
    let past := dist (moved (moved f k.startOff) (-(len : Int))) t.wpu.highWater
    (past < 0 → (t.channel c).motion = x.motion) ∧
    (0 ≤ past → (t.channel c).motion = (x.ramping k len 0).motion) ∧
    (0 < past → t.attn.has .foilLate = true ∧
      ∀ r ∈ t.track, r.row = k.row → ∀ e, r.channels.get c = some e → e.late = true)

/-- From `s` to `t` the web brought station `st` no drift shift and no zone event. -/
def stationQuiet (s t : State) (st : Fin 4) : Prop :=
  ((s.station st).drift + dist s.web t.web * (s.station st).rho).natAbs <
      65536 * (s.block st).steps ∧
    t.track.map (fun r => (r.stations.get st).map fun e => (e.startTaken, e.endTaken)) =
      s.track.map fun r => (r.stations.get st).map fun e => (e.startTaken, e.endTaken)

/-- From `s` to `t` no row but `n` had a zone event at station `st`. -/
def zonesTakenAlone (s t : State) (st : Fin 4) (n : Word) : Prop :=
  ∀ q ∈ s.track, q.row ≠ n →
    (t.entry? st q.row).map (fun e => (e.startTaken, e.endTaken)) =
      (q.stations.get st).map fun e => (e.startTaken, e.endTaken)

/-- From `s` to `t` nothing but the advance of the high-water position acted on channel `c`: no row opened,
the run was not held, and at the channel's station the web brought no drift shift and no zone event. -/
def undisturbed (s t : State) (c : Fin 8) : Prop :=
  t.mark.nextRow = s.mark.nextRow ∧ (t.jobs.run ≠ .held ∨ s.jobs.run = .held) ∧
    ∀ st, s.chanStation c = some st → (s.station st).state ≠ .inactive → stationQuiet s t st

/-- Row `n` is a strike at the station whose zone has not started: one that a departure from TRACKING takes
(R77). -/
def State.losesStrike (s : State) (st : Fin 4) (n : Word) : Bool :=
  s.track.any fun r => r.row == n && (r.stations.get st).any fun e => e.struck && !e.startTaken

/-- From `s` to `t` channel `c` was handed the rows that `lost` names for withdrawal. A channel with no stroke
of those rows pending stays; one in motion loses the pending strokes of those rows and a plan that names one;
and one that stands, where one of those rows alone has strokes pending, then takes the ramp up that waits
(R116, R128). -/
def strokesWithdrawn (s t : State) (c : Fin 8) (lost : Word → Bool) : Prop :=
  let x := s.channel c
  (x.state = .idle ∨ (∀ k ∈ x.strokes, lost k.row = false) → t.channel c = x) ∧
  (x.state ≠ .idle → (∀ p, x.plan = some p → p.stroke ∈ x.strokes) →
    (x.state ≠ .standing →
      t.channel c = { x with strokes := x.strokes.filter fun k => !lost k.row
                             plan := x.plan.filter fun p => !lost p.stroke.row }) ∧
    (x.state = .standing → ∀ n, lost n = true → (∃ k ∈ x.strokes, k.row = n) →
      (∀ k ∈ x.strokes, lost k.row = true → k.row = n) →
      (t.channel c).accounts = x.accounts ∧
        rampTaken s t c { x with strokes := x.strokes.filter fun k => k.row != n
                                 plan := x.plan.filter fun p => p.stroke.row != n }))

/-- From `s` to `t` the strikes that station `st` loses on leaving TRACKING were withdrawn from the channels
that serve it, and every other channel stayed (R77, R128). -/
def withdrawn (s t : State) (st : Fin 4) : Prop :=
  ∀ c, (s.chanStation c ≠ some st → t.channel c = s.channel c) ∧
    (s.chanStation c = some st → strokesWithdrawn s t c (s.losesStrike st))

/-! ## Row opens -/

/-- `f` is the position of the kind `base` + k × `p` nearest `a`, in (−`p`/2, `p`/2] from it (R54, R61). -/
def placedOn (base : Pos) (p : Nat) (a f : Pos) : Prop :=
  ∃ d k : Int, dist a base = d + k * p ∧ -(p : Int) < 2 * d ∧ 2 * d ≤ p ∧ f = moved a d

/-- The entry's zone runs from the first image start to the last image end of the active lanes, a guard
beyond either; where the active lanes have no image both offsets start from 0 (R80). -/
def State.zoned (s : State) (st : Fin 4) (e : StationEntry) : Prop :=
  let imaged (i : Image) := ∃ l : Fin 4, s.job.laneActive l = true ∧ i ∈ (s.plate st).images.get l
  let g : Int := (s.block st).guard
  (∀ i, imaged i → e.zoneStartOff ≤ i.start - g ∧ (i.start : Int) + i.len + g ≤ e.zoneEndOff) ∧
    ((∃ i, imaged i) → (∃ i, imaged i ∧ e.zoneStartOff = i.start - g) ∧
      ∃ i, imaged i ∧ e.zoneEndOff = (i.start : Int) + i.len + g) ∧
    ((∀ i, ¬ imaged i) → e.zoneStartOff = -g ∧ e.zoneEndOff = g)

/-- A new row `r` of the run in state `s` as the stations of `t` place it: no entry at an INACTIVE station;
at each other one an uncommitted entry on the die face nearest the row's arrival, with its zone, and the
base re-based by whole revolutions (R31, R54, R61, R80). -/
def rowPlaced (s t : State) (r : RowCtx) : Prop :=
  ∀ st,
    ((s.station st).state = .inactive →
      r.stations.get st = none ∧ (t.station st).base = (s.station st).base) ∧
    ((s.station st).state ≠ .inactive →
      let a := moved r.lead (s.block st).distance
      (∃ e, r.stations.get st = some e ∧ e.committed = false ∧ e.outcome = none ∧ e.error = none ∧
        e.trim = 0 ∧ e.startTaken = false ∧ e.endTaken = false ∧ s.zoned st e ∧
        (0 < s.pitch st → placedOn (s.station st).base (s.pitch st) a e.face)) ∧
      (0 < (s.plate st).faces * s.pitch st →
        placedOn (s.station st).base ((s.plate st).faces * s.pitch st) a (t.station st).base))

/-- A strike of `s` still to end that cannot clear a SPLICE row whose leading mark stands at `lead` (R84,
R85). -/
def State.fouled (s : State) (st : Fin 4) (lead : Pos) (e : StationEntry) : Bool :=
  e.struck && !e.endTaken &&
    !decide (0 ≤ dist e.zoneEnd
      (moved (moved (moved lead (s.block st).distance) (-((s.block st).guard : Int)))
        (-(((s.wpu.v8p * (s.block st).throwOff + 7) / 8 : Nat) : Int))))

/-- From `s` to `t` the stations made their test of a new row `r` (R85). At a TRACKING station, for a SPLICE
row, each strike on the track that cannot clear it is SACRIFICED where its zone has not started; where the
zone of one has started the row is put at risk, with the cause SPLICE_RISK; and the throw opens for a row
sacrificed whose predecessor is no live strike; and the strokes of the rows sacrificed are withdrawn from the
station's channels (R128). Elsewhere, and for any other row, the rows on the track, the throw and the channels
stay as they were. That the predecessor of a sacrificed row may itself have been sacrificed just
before it is the model's choice of order (log entry 32). -/
def spliceTested (s t : State) (r : RowCtx) : Prop :=
  (∀ c, s.chanStation c = none → t.channel c = s.channel c) ∧
  ∀ st,
    let tests := r.verdict = .splice ∧ (s.station st).state = .tracking
    let fails (e : StationEntry) : Bool := s.fouled st r.lead e
    let x := s.station st
    let y := t.station st
    let givenUp (q : RowCtx) : Prop :=
      ∃ e, q.stations.get st = some e ∧ fails e = true ∧ e.startTaken = false
    let opens := (∃ q ∈ s.track, givenUp q ∧
        ∀ p, s.before? q.row = some p → p.liveStrike st = false ∨ givenUp p) ∧
      (x.throw = .closing ∨ x.throw = .on)
    let atRisk := ∃ q ∈ s.track, ∃ e, q.stations.get st = some e ∧ fails e = true ∧
      e.startTaken = true
    let sacrificed (n : Word) : Bool :=
      s.track.any fun q => q.row == n && (q.stations.get st).any fun e => fails e && !e.startTaken
    y.state = x.state ∧
    (¬ tests →
      t.track.dropLast.map (fun q => (q.row, q.stations.get st)) =
        s.track.map (fun q => (q.row, q.stations.get st)) ∧
      y.throw = x.throw ∧ y.timer = x.timer ∧ y.risk = x.risk ∧
      ∀ c, s.chanStation c = some st → t.channel c = s.channel c) ∧
    (tests →
      t.track.dropLast.map (fun q => (q.row, q.stations.get st)) =
        s.track.map (fun q => (q.row, (q.stations.get st).map fun e =>
          if fails e = true ∧ e.startTaken = false then { e with outcome := some .sacrificed }
          else e)) ∧
      (opens → y.throw = .opening ∧ y.timer = (s.block st).throwOff) ∧
      (¬ opens → y.throw = x.throw ∧ y.timer = x.timer) ∧
      (∀ n, n ∈ y.risk ↔ n ∈ x.risk ∨ n = r.row ∧ atRisk) ∧
      (atRisk → r.row ∉ x.risk →
        t.attn.has .spliceRisk = true ∧ t.jobs.hasStop .spliceRisk = true) ∧
      ∀ c, s.chanStation c = some st → strokesWithdrawn s t c sacrificed)

/-- The lanes of a new row `r` that the run of `s` opened with the mark unit and the row as `t` holds them. An
inactive lane is ABSENT and the leading lane LEADING, and neither has its window or its held edge touched. At
each other lane the held edge is spent: where it lies in the row's window the lane is FOUND with its signed
error; otherwise the lane is MISSING where the end of the window is behind the web, and else its window is
pending for this row (R28 to R31). -/
def lanesOpened (s t : State) (r : RowCtx) : Prop :=
  ∀ l m : Fin 4, s.job.leadingLane = m →
    let follows := s.job.laneActive l = true ∧ l ≠ m
    let centre := moved r.lead (s.job.laneOffsets.get l - s.job.laneOffsets.get m)
    let stop := moved centre s.job.window
    let caught (p : Pos) := s.mark.held.get l = some p ∧ (dist centre p).natAbs ≤ s.job.window
    (¬ follows → t.mark.windows.get l = s.mark.windows.get l ∧
      t.mark.held.get l = s.mark.held.get l ∧
      r.lanes.get l = if s.job.laneActive l = true then .leading else .absent) ∧
    (follows → t.mark.held.get l = none ∧
      (∀ p, caught p → t.mark.windows.get l = none ∧ r.lanes.get l = .found (dist centre p)) ∧
      ((∀ p, ¬ caught p) → dist s.web stop < 0 →
        t.mark.windows.get l = none ∧ r.lanes.get l = .missing) ∧
      ((∀ p, ¬ caught p) → 0 ≤ dist s.web stop →
        t.mark.windows.get l = some { row := r.row, centre := centre } ∧ r.lanes.get l = .absent))

/-- From `s` to `t` the next row opened with a status and a leading mark position: the row numbers moved
on, the row with its verdict at the tail of the track and on a die face of each active station, its lanes
opened, the test against a splice made, the expected position a pitch on, and verdicts read through published, with the other
blocks' rows, records and memory as they were (R27 to R31, R43, R54, R61, R80, R85). -/
def rowOpened (s t : State) (status : MarkStatus) (lead : Pos) : Prop :=
  (∃ r, t.track.getLast? = some r ∧ r.row = s.mark.nextRow ∧ r.jobTag = s.job.tag ∧ r.lead = lead ∧
      r.status = status ∧ (r.verdict, r.source) = s.readVerdict s.mark.nextRow ∧
      lanesOpened s t r ∧ (s.trackOk → rowPlaced s t r ∧ spliceTested s t r)) ∧
    t.track.map RowCtx.row = s.track.map RowCtx.row ++ [s.mark.nextRow] ∧
    t.mark.lastOpened = s.mark.nextRow ∧ t.mark.nextRow = rowSucc s.mark.nextRow ∧
    t.mark.expected = some (moved lead s.jobPitch) ∧
    t.mem.word 0x14 = s.mark.nextRow ∧ changedWithin s.mem t.mem 0x14 0x18 ∧
    ((s.readVerdict s.mark.nextRow).2.defaulted = true →
      t.attn.has .verdictDefaulted = true) ∧
    t.cylGens = s.cylGens ∧ t.foilGens = s.foilGens ∧ t.records = s.records ∧
    t.lastRetired = s.lastRetired ∧ sameOutside s t ∧ sameSlots s t

/-! ## Commits -/

/-- The commit point of an entry: its zone start less the pitch (R80). -/
def State.commitReached (s : State) (st : Fin 4) (e : StationEntry) : Prop :=
  0 ≤ dist (moved e.face (e.zoneStartOff - s.pitch st)) s.web

/-- `o` is the outcome that a commit of row `r` with entry `e` decides at a station: the state's name outside
TRACKING; SPLICE_RISK or SPLICE_CLEARED for a SPLICE row; SKIPPED or STRUCK_UNSKIPPED for a SKIP row by the
feasibility of its skip; STRUCK or SACRIFICED for a STAMP row by the clearance of its neighbours, the row before
it the one just retired where it is not on the track (R82; log entry 7, the model's reading). -/
def State.decides (s : State) (st : Fin 4) (r : RowCtx) (e : StationEntry) (o : RowOutcome) : Prop :=
  ((s.station st).state = .heatWait → o = .heatWait) ∧
  ((s.station st).state = .catching → o = .catching) ∧
  ((s.station st).state = .lifted → o = .lifted) ∧
  ((s.station st).state = .faulted → o = .faulted) ∧
  ((s.station st).state = .tracking → r.verdict = .splice →
    o = if r.row ∈ (s.station st).risk then .spliceRisk else .spliceCleared) ∧
  ((s.station st).state = .tracking → r.verdict = .skip →
    o = if s.skipFeasible st r.row = true then .skipped else .struckUnskipped) ∧
  ((s.station st).state = .tracking → r.verdict = .stamp →
    o = if s.clearsSplices st e (s.previous? r.row) (s.after? r.row) = true then .struck
      else .sacrificed)

/-- From `s` to `t` channel `c` was handed row `n`, committed at station `st` to the outcome `o` with its face
at `face`, and the row's entry for the channel went from `before` to `later`. Of a row struck a channel that
serves the station appends the strokes it forms, as far as its list has room, and begins the ramp up to the
first at once where it stands with nothing pending and its start point is reached, late where the start point
is behind; any other channel stays (R86, R106, R108, R115, R116). -/
def handedOver (s t : State) (st : Fin 4) (n : Word) (face : Pos) (o : RowOutcome) (c : Fin 8)
    (before later : Option ChannelEntry) : Prop :=
  let x := s.channel c
  let strikes := (o = .struck ∨ o = .struckUnskipped) ∧ s.chanStation c = some st ∧ x.state ≠ .idle
  let new := s.formStrokes c n
  let kept := new.take (24 - x.strokes.length)
  let len := rampLength s.wpu.v8p x.params
  let start (k : Stroke) : Pos := moved (moved face k.startOff) (-(len : Int))
  let begins := x.strokes = [] ∧ x.plan = none ∧ x.state = .standing ∧
    ∃ k, kept.head? = some k ∧ 0 ≤ dist (start k) s.wpu.highWater
  let late := 24 - x.strokes.length < new.length ∨
    begins ∧ ∃ k, kept.head? = some k ∧ 0 < dist (start k) s.wpu.highWater
  (¬ strikes → t.channel c = x ∧ later = before) ∧
  (strikes → ¬ begins → t.channel c = { x with strokes := x.strokes ++ kept }) ∧
  (strikes → begins → ∀ k, kept.head? = some k →
    t.channel c = { x with state := .rampUp, strokes := kept.tail, current := some k
                           rampLen := len, rampProgress := 0 }) ∧
  (strikes → late → t.attn.has .foilLate = true ∧
    later = before.map fun f => { f with late := true }) ∧
  (strikes → ¬ late → later = before)

/-- From `s` to `t` station `st` committed row `n` to the outcome `o`. The row leaves the risk set; the throw
closes for a row struck where the close condition holds; and at a row not struck it opens where the row before
was struck and its zone end has been taken, on the track or just retired (R85, R90, R91; log entry 7, the
model's reading). -/
def committedThrow (s t : State) (st : Fin 4) (n : Word) (o : RowOutcome) : Prop :=
  let x := s.station st
  let strike := o = .struck ∨ o = .struckUnskipped
  let closes := strike ∧ (s.jobs.run = .running ∨ s.jobs.run = .draining) ∧ x.throw = .off ∧
    t.closePointReached st = true
  let opens := ¬ strike ∧ (∃ p, s.previous? n = some p ∧ p.endedStrike st = true) ∧
    (x.throw = .closing ∨ x.throw = .on)
  (∀ m, m ∈ (t.station st).risk ↔ m ∈ x.risk ∧ m ≠ n) ∧
  (closes → t.station st = { x with risk := (t.station st).risk, throw := .closing
                                    timer := (s.block st).throwOn }) ∧
  (opens → t.station st = { x with risk := (t.station st).risk, throw := .opening
                                   timer := (s.block st).throwOff, dwell := 0 }) ∧
  (¬ closes → ¬ opens → t.station st = { x with risk := (t.station st).risk })

/-- The strokes `ks` are those of R106 for row `n` with the images `images` under the parameters `p`: the
strokes lie apart and in order, each holds exactly the images whose spans lie in it, every image's span lies
in one, and no offset of a stroke is outside every span. -/
def strokesFormed (p : FoilParams) (n : Word) (images : List Image) (ks : List Stroke) : Prop :=
  let first (i : Image) : Int := (i.start : Int) - p.lead
  let last (i : Image) : Int := (i.start : Int) + i.len + p.trail
  (∀ k ∈ ks, k.row = n ∧
    k.images = images.countP fun i => decide (k.startOff ≤ first i ∧ last i ≤ k.endOff)) ∧
  (∀ (a b : Stroke) (j : Nat), ks[j]? = some a → ks[j + 1]? = some b → a.endOff < b.startOff) ∧
  (∀ i ∈ images, ∃ k ∈ ks, k.startOff ≤ first i ∧ last i ≤ k.endOff) ∧
  ∀ k ∈ ks, (∃ i ∈ images, first i = k.startOff) ∧ (∃ i ∈ images, last i = k.endOff) ∧
    ∀ x : Int, k.startOff ≤ x → x ≤ k.endOff → ∃ i ∈ images, first i ≤ x ∧ x ≤ last i

end Sys2Proof.Machine
end

