-- ==== Sys2Proof/Certificates/Slice0/Obligations.lean ====
section
/-! DEFINITION. The statements for the provers: what each step of the part does, from the numbered rules of
the manual, and the facts that every step keeps. -/

section

open Sys2Proof Sys2Proof.Machine

/-! ## The queue and the resets -/

/-- A step executes the step at the front of the queue on the state with the queue's rest. That an empty
queue idles is the model's choice (log entry 1). -/
def Obligations.StepExecutesFront : Prop :=
  ∀ s : State,
    (∀ c rest, s.pending = c :: rest → step s = exec c (s.withPending rest)) ∧
      (s.pending = [] → step s = .next s)

/-- Either kind of reset leaves every block at the values the manual's tables give: R18, R40, R73, R101,
R132, R157, R186, R197; and it clears MSI enable, bus-master enable and interrupt disable, with INTx deasserted
(R185). That the message address and data are then 0 is the model's choice (log entry 20). That the queue stands,
that the count of messages starts again at 0 with none sent last, that no row is kept as the one last retired, and
that the heater sample counts and the whole ticks of foil position are 0, are the model's choices too (log entry
21). -/
def Obligations.ResetsLeaveEveryBlock : Prop :=
  ∀ (c : Instr) (s : State), (∃ decayed, c = .powerOnReset decayed) ∨ c = .linkReset →
    ∃ t, exec c s = .next t ∧ t.pending = s.pending ∧
      -- the web position unit and the step generators
      t.wpu.pair = none ∧ t.wpu.direction = .forward ∧ t.wpu.scaleQ = 65536 ∧ t.wpu.acc = 0 ∧
      t.web = 0 ∧ t.wpu.highWater = 0 ∧ t.wpu.ring = .all 0 ∧ t.wpu.v8 = 0 ∧
      t.wpu.headroom = 0 ∧ t.wpu.v8p = 0 ∧ t.wpu.overspeed = false ∧
      (∀ g, (t.gen g).ratio = 0 ∧ (t.gen g).acc = 0 ∧ (t.gen g).emitted = 0 ∧ (t.gen g).owed = 0 ∧
        t.directionLine g = false) ∧
      -- the mark unit and the row track
      t.mark.levels = .all false ∧ t.mark.nextRow = 1 ∧ t.mark.lastOpened = 0 ∧
      t.mark.expected = none ∧ t.mark.missing = 0 ∧ t.mark.search = false ∧
      t.mark.held = .all none ∧ t.mark.windows = .all none ∧ t.track = [] ∧ t.lastRetired = none ∧
      -- the stations
      (∀ st, (t.station st).resting ∧ (t.station st).base = 0 ∧ (t.station st).indexLevel = false ∧
        (t.station st).heaterLevel = false ∧ (t.station st).heaterRun = 0 ∧ t.valve st = false) ∧
      -- the foil channels
      (∀ c, (t.channel c).resting ∧ (t.channel c).rampLen = 0 ∧ (t.channel c).rampProgress = 0 ∧
        (t.channel c).foilTicks = 0 ∧ (t.channel c).fraction = 0 ∧ (t.channel c).remaining = 0 ∧ (t.channel c).runUsed = 0 ∧
        (t.channel c).lowArmed = true ∧ (t.channel c).out = false ∧
        (t.channel c).params = ⟨0, 0, 0, 0, 0, 0, 0⟩) ∧
      -- job control
      t.jobs.next = none ∧ t.jobs.current = none ∧ t.jobs.run = .idle ∧ t.jobs.holdCause = .none ∧
      t.jobs.firstRow = 0 ∧ t.jobs.stopRequest = false ∧ t.stopOutput = false ∧
      t.jobs.stopCauses = 0 ∧
      -- exchange memory and the registers
      (∀ a, a < 0x8000 → t.readByte a = 0) ∧ t.register 0x8000 = some 0 ∧
      t.register 0x8004 = some 0 ∧ t.engine.phase = .idle ∧ t.engine.executing = none ∧
      t.register 0x8008 = some 0 ∧ t.register 0x800C = some 0 ∧
      t.register 0x8010 = some 0x48200100 ∧ t.generation = 0 ∧ t.attn.condition = false ∧
      t.intxLine = false ∧ t.attn.sent = 0 ∧ t.attn.lastSent = none ∧
      -- the configuration space
      t.attn.config.msiEnable = false ∧ t.attn.config.busMaster = false ∧
      t.attn.config.intDisable = false ∧ t.attn.config.msiAddress = 0 ∧ t.attn.config.msiData = 0 ∧
      -- the record writer
      t.records.writtenThrough = 0 ∧ t.records.oldestIntact = 0

/-- What either kind of reset does to the plate store (R167, R168): every stored record and marker stays,
but for a slot whose program cycle is under way, whose marker is clear and which reads as BLANK after
either. A link reset keeps the slot status table; a power-on reset makes it anew, VALID where the marker
is set and the record passes its CRC. That the bytes which decayed without power are those the operand gives,
that the last one given for a byte stands, and that no other byte of a record changes, are the model's choices
(log entry 28). -/
def Obligations.ResetsKeepThePlateStore : Prop :=
  ∀ s : State,
    (∃ t, exec .linkReset s = .next t ∧ t.store.length = s.store.length ∧
      ∀ n, n < s.store.length →
        ((∃ w, s.engine.executing = some (.plateSave n w)) →
          (t.slot n).marker = false ∧ (t.slot n).valid = false) ∧
        ((∀ w, s.engine.executing ≠ some (.plateSave n w)) → t.slot n = s.slot n)) ∧
    ∀ decayed : List (Nat × Nat × Byte),
      ∃ u, exec (.powerOnReset decayed) s = .next u ∧ u.store.length = s.store.length ∧
        ∀ n, n < s.store.length →
          ((∃ w, s.engine.executing = some (.plateSave n w)) →
            (u.slot n).marker = false ∧ (u.slot n).valid = false) ∧
          ((∀ w, s.engine.executing ≠ some (.plateSave n w)) →
            ((∀ c ∈ decayed, c.1 ≠ n) → (u.slot n).record = (s.slot n).record) ∧
            (∀ x, (∀ c ∈ decayed, ¬ (c.1 = n ∧ c.2.1 = x)) →
              (u.slot n).record.read x = (s.slot n).record.read x) ∧
            (∀ earlier x b later, decayed = earlier ++ (n, x, b) :: later → x < 512 →
              (∀ c ∈ later, ¬ (c.1 = n ∧ c.2.1 = x)) → (u.slot n).record.read x = b) ∧
            (u.slot n).marker = (s.slot n).marker ∧
            ((u.slot n).valid = true ↔
              (s.slot n).marker = true ∧
                crc16 ((u.slot n).record.bytes 0 510) = (u.slot n).record.nat 2 510))

/-! ## Writes of the memory window -/

/-- A line controller write that begins in exchange memory stores exactly its bytes there, at its offset and
up, and changes nothing else: an access of at most 8 bytes that runs on into the register page stores the
bytes below 0x8000, and the others, single-byte writes of the register page, are ignored. A link request of
more than 8 bytes anywhere in the window does what its accesses do one after another: single bytes up to
the first aligned place, aligned 8-byte accesses, and single bytes for the rest. A write into the register
page that acts on no register changes nothing. A read shows the byte stored below 0x8000, PART_ID at 0x8010, and
0xFF from 0x8014 on (R170 to R172). Three clauses go beyond those rules. That a write of 0, 3, 5, 6 or 7 bytes,
which is no access size, stores those of its bytes that lie below 0x8000 is the model's choice (log entry 24). That
a whole link request, one that reaches registers with it, is carried out under either row within one step, with no
access of the part between its accesses although R171 lets them fall there, is the model's choice (log entry 23): a
sender that wants them there puts the accesses on the queue one by one. That a step stops where a byte of it lies
beyond the window, at no offset of the part, is the model's choice (log entry 24). -/
def Obligations.WindowWritesStoreTheirBytes : Prop :=
  ∀ (offset : Nat) (bytes : List Byte) (s : State),
    (offset < 0x8000 → offset + bytes.length ≤ 0x8000 ∨ bytes.length ≤ 8 →
      ∃ m, exec (.exchangeMemoryWrite offset bytes) s = .next { s with mem := m } ∧
        (∀ i (h : i < bytes.length), offset + i < 0x8000 → m.read (offset + i) = bytes[i]) ∧
        changedWithin s.mem m offset (min (offset + bytes.length) 0x8000)) ∧
    (8 < bytes.length → offset + bytes.length ≤ 0x10000 →
      let head := (8 - offset % 8) % 8
      let eights := (bytes.length - head) / 8
      let piece (size i : Nat) : Nat × List Byte := (offset + i, (bytes.drop i).take size)
      let accesses := (List.range head).map (piece 1) ++
        (List.range eights).map (fun k => piece 8 (head + 8 * k)) ++
        (List.range (bytes.length - head - 8 * eights)).map fun k => piece 1 (head + 8 * eights + k)
      exec (.exchangeMemoryWrite offset bytes) s =
        .next (accesses.foldl (fun u a => u.windowAccess a.1 a.2) s)) ∧
    ((Instr.registerWriteIgnored offset bytes).wellFormed = true →
      exec (.registerWriteIgnored offset bytes) s = .next s) ∧
    (∀ a, a < 0x8000 → s.readByte a = s.mem.read a) ∧ s.read4 0x8010 = 0x48200100 ∧
    (∀ a, 0x8014 ≤ a → a < 0x10000 → s.readByte a = 0xFF) ∧
    (0x10000 < offset + bytes.length →
      exec (.exchangeMemoryWrite offset bytes) s = .fault .noSuchAddress ∧
        exec (.registerWriteIgnored offset bytes) s = .fault .noSuchAddress)

/-- A 4-byte write to ATTN clears each cause whose bit is written as 1 and leaves each other cause, and
everything else, as it was: a write that clears causes sends no message. A read of ATTN shows each cause at its
bit, CMD_DONE at bit 0 to OVERSPEED at bit 17, and 0 above (R172, R183, R185, R199). -/
def Obligations.AttnWriteClearsCauses : Prop :=
  ∀ (value : Word) (s : State), flagsShown (s.read4 0x8008) s.attn.causes ∧
    (∀ p ∈ [(AttnCause.cmdDone, 0), (.tally, 1), (.recordLapped, 2), (.verdictDefaulted, 3), (.regLost, 4),
        (.regFound, 5), (.regCaught, 6), (.regDrift, 7), (.stationFault, 8), (.stationHeat, 9),
        (.stationLift, 10), (.spliceRisk, 11), (.foilLow, 12), (.foilOut, 13), (.foilLate, 14),
        (.runHeld, 15), (.runIdle, 16), (.overspeed, 17)],
      (s.read4 0x8008).testBit p.2 = s.attn.has p.1) ∧
    ∃ causes, exec (.attnWrite value) s = .next { s with attn := { s.attn with causes := causes } } ∧
      ∀ k : Fin 18, causes.getLsbD k = (s.attn.causes.getLsbD k && !value.getLsbD k)

/-- A 4-byte write to ATTN_ENABLE replaces all eighteen enables; the attention condition is true exactly
when some cause is set and enabled; and with MSI enabled and the function a bus master one message goes
out exactly where the condition rises. A read of ATTN_ENABLE shows each enable at the bit of its cause, and 0
above (R172, R184, R185, R199). The widths of the message address and data are presumed (log entry 38). -/
def Obligations.AttnEnableWriteReplacesEnables : Prop :=
  ∀ (value : Word) (s : State), flagsShown (s.read4 0x800C) s.attn.enables ∧
    ∃ a, exec (.attnEnableWrite value) s = .next { s with attn := a } ∧
      (∀ k : Fin 18, a.enables.getLsbD k = value.getLsbD k) ∧ a.causes = s.attn.causes ∧
      a.config = s.attn.config ∧
      (a.condition = true ↔ ∃ k : Fin 18, s.attn.causes.getLsbD k = true ∧ value.getLsbD k = true) ∧
      (a.config.msiEnable = true ∧ a.config.busMaster = true ∧ a.condition = true ∧
          s.attn.condition = false →
        a.sent = s.attn.sent + 1 ∧
          a.lastSent = some { address := a.config.msiAddress, data := a.config.msiData }) ∧
      (a.config.msiEnable = false ∨ a.config.busMaster = false ∨ a.condition = false ∨
          s.attn.condition = true →
        a.sent = s.attn.sent ∧ a.lastSent = s.attn.lastSent)

/-- A configuration space write takes the fields written; INTx is asserted exactly while the condition is
true with MSI and the interrupt disable off; and one message goes out where MSI comes to be enabled with
the function a bus master while the condition is true (R185), and none otherwise. What 'none otherwise' and
the single message of one write that sets both enables rest on is the model's reading (log entry 16), and the
widths of the message address and data are presumed (log entry 38). -/
def Obligations.ConfigSpaceWriteSignals : Prop :=
  ∀ (config : PciConfig) (s : State),
    ∃ a, exec (.configSpaceWrite config) s = .next { s with attn := a } ∧ a.config = config ∧
      a.causes = s.attn.causes ∧ a.enables = s.attn.enables ∧
      (a.intx = true ↔
        (∃ k : Fin 18, s.attn.causes.getLsbD k = true ∧ s.attn.enables.getLsbD k = true) ∧
          config.msiEnable = false ∧ config.intDisable = false) ∧
      (config.msiEnable = true ∧ config.busMaster = true ∧ s.attn.condition = true ∧
          ¬ (s.attn.config.msiEnable = true ∧ s.attn.config.busMaster = true) →
        a.sent = s.attn.sent + 1 ∧
          a.lastSent = some { address := config.msiAddress, data := config.msiData }) ∧
      (config.msiEnable = false ∨ config.busMaster = false ∨ s.attn.condition = false ∨
          (s.attn.config.msiEnable = true ∧ s.attn.config.busMaster = true) →
        a.sent = s.attn.sent ∧ a.lastSent = s.attn.lastSent)

/-! ## The command engine -/

/-- While one command executes, a command written waits in CMD in place of any that waited, and nothing
else changes. A write with PEND clear leaves its code and argument written and nothing pending, whatever
was pending, and never touches an executing command. A read of CMD shows the code, the argument and PEND as CMD
holds them (R172, R178, R179, R199). -/
def Obligations.CommandsWaitAndAreWithdrawn : Prop :=
  ∀ (s : State) (arg : BitVec 16) (code : BitVec 8) (value : Word), s.cmdShown ∧
    (s.engine.executing ≠ none →
      let waits (c : Instr) (k : BitVec 8) (a : BitVec 16) : Prop :=
        exec c s = .next { s with engine := s.engine.waiting k a }
      waits (.loadJob arg) 0x01 arg ∧ waits (.startRun arg) 0x02 arg ∧ waits (.endRun arg) 0x03 arg ∧
        waits (.holdRun arg) 0x04 arg ∧ waits (.resumeRun arg) 0x05 arg ∧
        waits (.rearmStation arg) 0x06 arg ∧ waits (.refillFoil arg) 0x07 arg ∧
        waits (.plateSave arg) 0x08 arg ∧ waits (.plateRead arg) 0x09 arg ∧
        waits (.ackStop arg) 0x0A arg ∧ waits (.unknownCommand code arg) code arg ∧
        ((Instr.cmdPendWrite value).wellFormed = true →
          waits (.cmdPendWrite value) (value.extractLsb' 0 8) (value.extractLsb' 8 16))) ∧
    ((Instr.cmdWithdraw value).wellFormed = true →
      exec (.cmdWithdraw value) s =
        .next { s with engine := { s.engine with code := value.extractLsb' 0 8
                                                 arg := value.extractLsb' 8 16, pend := false } })

/-- A write to CMD with PEND set is a write of the command its code names, with its argument: 0x01 LOAD_JOB, 0x02
START_RUN, 0x03 END_RUN, 0x04 HOLD_RUN, 0x05 RESUME_RUN, 0x06 REARM_STATION, 0x07 REFILL_FOIL, 0x08 PLATE_SAVE,
0x09 PLATE_READ, 0x0A ACK_STOP, and any other a code that names no command; its unused bits do nothing. Written
while no command executes, the command is accepted at that write: PEND clears, the sequence number advances by 1,
CMD_STATUS carries the code, and the command has ended with CMD_DONE set unless it is a LOAD_JOB or a program cycle
of PLATE_SAVE, which go on executing. A read of CMD_STATUS shows the code, the sequence number, the result and the
state by their codes (R172, R178 to R181, R199). -/
def Obligations.PendWriteIsAcceptedByAFreeEngine : Prop :=
  -- the command a code names
  (∀ (arg : BitVec 16) (code : BitVec 8) (s : State),
    let names (c : Instr) : Prop := exec (.cmdPendWrite (0x80#8 ++ arg ++ code)) s = exec c s
    (code = 0x01 → names (.loadJob arg)) ∧ (code = 0x02 → names (.startRun arg)) ∧
    (code = 0x03 → names (.endRun arg)) ∧ (code = 0x04 → names (.holdRun arg)) ∧
    (code = 0x05 → names (.resumeRun arg)) ∧ (code = 0x06 → names (.rearmStation arg)) ∧
    (code = 0x07 → names (.refillFoil arg)) ∧ (code = 0x08 → names (.plateSave arg)) ∧
    (code = 0x09 → names (.plateRead arg)) ∧ (code = 0x0A → names (.ackStop arg)) ∧
    (code = 0x00 ∨ 0x0A < code.toNat → names (.unknownCommand code arg))) ∧
  ∀ (value : Word) (s : State), s.statusShown ∧
   ((Instr.cmdPendWrite value).wellFormed = true →
    exec (.cmdPendWrite value) s =
      exec (.cmdPendWrite (0x80#8 ++ value.extractLsb' 8 16 ++ value.extractLsb' 0 8)) s) ∧
   ((Instr.cmdPendWrite value).wellFormed = true → s.engine.executing = none →
    ∃ t, exec (.cmdPendWrite value) s = .next t ∧ t.engine.code = value.extractLsb' 0 8 ∧
      t.engine.arg = value.extractLsb' 8 16 ∧ t.engine.pend = false ∧
      t.engine.statusCode = value.extractLsb' 0 8 ∧ t.engine.seq = s.engine.seq + 1 ∧
      (t.engine.executing = none → t.engine.phase = .done ∧ t.engine.result ≠ .none ∧
        t.attn.has .cmdDone = true) ∧
      (t.engine.executing ≠ none → t.engine.phase = .executing ∧ t.engine.result = .none ∧
        (t.engine.statusCode = 0x01 ∨ t.engine.statusCode = 0x08)) ∧
      t.generation = s.generation ∧ t.attn.config = s.attn.config ∧
      t.attn.enables = s.attn.enables ∧ t.freeCount = s.freeCount ∧ t.pending = s.pending)

/-- A command refused at its acceptance reports its result with a sequence number, raises CMD_DONE, and
changes nothing else: START_RUN outside IDLE, without a job, or with a first row it does not take; END_RUN
and HOLD_RUN in the run states that refuse them; PLATE_SAVE of no slot or of one in use; and a code that
names no command (R143, R146, R148, R162, R179 to R181). -/
def Obligations.RefusedCommandsChangeNothing : Prop :=
  ∀ (s : State) (arg : BitVec 16), s.engine.executing = none →
    let refused (c : Instr) (code : BitVec 8) (r : CmdResult) : Prop :=
      exec c s = .next { s with engine := s.engine.done code arg r, attn := s.attn.raise .cmdDone }
    (s.jobs.run ≠ .idle → refused (.startRun arg) 0x02 .badState) ∧
    (s.jobs.run = .idle → s.jobs.next = none → s.jobs.current = none →
      refused (.startRun arg) 0x02 .noJob) ∧
    (s.jobs.run = .idle → ¬ (s.jobs.next = none ∧ s.jobs.current = none) →
      (s.mem.nat 4 0x104 = 0 ∨ 4294967040 < s.mem.nat 4 0x104) →
      refused (.startRun arg) 0x02 .badArg) ∧
    (s.jobs.run = .idle ∨ s.jobs.run = .draining → refused (.endRun arg) 0x03 .badState) ∧
    (s.jobs.run = .idle ∨ s.jobs.run = .held → refused (.holdRun arg) 0x04 .badState) ∧
    (15 < arg.toNat → refused (.plateSave arg) 0x08 .badArg) ∧
    (arg.toNat ≤ 15 → s.jobs.currentReferences arg.toNat = true → s.jobs.run ≠ .idle →
      refused (.plateSave arg) 0x08 .plateInUse) ∧
    ∀ code, (Instr.unknownCommand code arg).wellFormed = true →
      refused (.unknownCommand code arg) code .badCode

/-! ## Jobs and runs -/

/-- LOAD_JOB accepted takes a copy of the job staging area and goes on executing; nothing else changes. Its
validation ends: where no check fails NEXT takes the working copy and the result is OK; otherwise NEXT stays
and the result is JOB_INVALID. Either way the report shows the failures, CMD_DONE is raised, only the
report's bytes change in memory, and neither CURRENT nor the run is touched; and a pending command is
accepted at once, as a write of it to a free engine would be (R136, R137, R142, R177, R179, R180, R202). The
plates read are those the store holds when the validation ends, the model's choice (log entry 17), and the
count takes in every failure of every check that could be made, a field or plate that has failed standing in the
way of a check that reads it (log entry 14, the model's reading). -/
def Obligations.LoadJobCopiesAndChecks : Prop :=
  (∀ (arg : BitVec 16) (s : State), s.engine.executing = none →
    exec (.loadJob arg) s =
      .next { s with engine := s.engine.running 0x01 arg (.loadJob (readJob s.mem 0x0C00)) }) ∧
  ∀ (s : State) (j : Job), s.engine.executing = some (.loadJob j) →
    ∃ m u, changedWithin s.mem m 0x200 0x248 ∧ reportShown m (runChecks (s.candidate j) jobChecks) ∧
      (runChecks (s.candidate j) jobChecks = [] →
        u = { s with
          mem := m, jobs := { s.jobs with next := some j }, attn := s.attn.raise .cmdDone
          engine := { s.engine with result := .ok, phase := .done, executing := none } }) ∧
      (runChecks (s.candidate j) jobChecks ≠ [] →
        u = { s with
          mem := m, attn := s.attn.raise .cmdDone
          engine := { s.engine with result := .jobInvalid, phase := .done, executing := none } }) ∧
      (s.engine.pend = false → exec .loadJobComplete s = .next u) ∧
      (s.engine.pend = true →
        exec .loadJobComplete s =
          exec (.cmdPendWrite (0x80#8 ++ s.engine.arg ++ s.engine.code)) u)

/-- A job that passes the checks is in range, its active stations' plates are VALID and of one pitch, and
the relations of checks 2, 3 and 6 to 17 hold of it: lanes, distances, track depth and rates; every ASSIGNED
channel serves an active lane of a heated station, no two the same one; and every imaged active lane of a
FOIL station is served (R103, R133 to R135, R138 to R141). -/
def Obligations.AcceptedJobMeetsItsChecks : Prop :=
  ∀ (s : State) (j : Job), runChecks (s.candidate j) jobChecks = [] →
    j.inRange ∧
    (∃ pitch, 8 * j.window ≤ pitch ∧
      (∀ l m : Fin 4, j.laneActive l = true → j.leadingLane = m →
        4 * (j.laneOffsets.get l - j.laneOffsets.get m).natAbs ≤ pitch) ∧
      ∀ st, (j.stations.get st).active = true →
        ∃ p, s.readSlot (j.stations.get st).plateSlot = some p ∧ p.pitch = pitch ∧
          (∀ l : Fin 4, j.laneActive l = true → l < p.laneCount) ∧
          2 * (j.stations.get st).catchStep ≤ pitch ∧
          (j.stations.get st).indexOffset.natAbs ≤ p.faces * pitch ∧
          2 * pitch + j.window ≤ (j.stations.get st).distance ∧
          (j.stations.get st).distance / pitch + 3 ≤ 32 ∧
          ceilDiv (ceilDiv (j.v8Max * (256 + j.headroom)) 256 *
            ((j.stations.get st).throwOn + (j.stations.get st).throwOff)) 8 ≤ pitch ∧
          roundHalfUp ((j.stations.get st).steps * 65536) (p.faces * pitch) * j.v8Max * 125 ≤
            4000000 * 65536 ∧
          ((j.stations.get st).typeCode = 1 → ∀ l : Fin 4, j.laneActive l = true →
            p.images.get l ≠ [] →
            ∃ c, (j.channels.get c).assigned = true ∧ (j.channels.get c).station = st ∧
              (j.channels.get c).lane = l)) ∧
    (∀ c, (j.channels.get c).assigned = true →
      (∃ st : Fin 4, (j.channels.get c).station = st ∧ (j.stations.get st).heated = true) ∧
      j.laneActive (j.channels.get c).lane = true ∧
      (j.channelParams (j.channels.get c)).fs * j.v8Max * 125 ≤ 4000000 * 65536) ∧
    ∀ c d, (j.channels.get c).assigned = true → (j.channels.get d).assigned = true → c ≠ d →
      ¬ ((j.channels.get c).station = (j.channels.get d).station ∧
        (j.channels.get c).lane = (j.channels.get d).lane)

/-- START_RUN by its checks, with a candidate job and a first row it takes. The job check report shows the
failures of checks 7 to 17. Where a check fails nothing else changes and the result is JOB_INVALID; otherwise
the run is ARMED with the candidate CURRENT, NEXT empty, Q, headroom and high-water taken, the mark unit set
up with the first row, the stations and channels of the job started, and the record writer's figures set (R4,
R7, R11, R20, R55, R72, R76, R105, R142 to R144, R193, R194, R202). Which checks are made beside a failure, and so
what the report shows and counts, is the model's reading (log entry 14). The ramp fields set to 0 are the model's
choice (log entry 22). -/
def Obligations.StartRunByItsChecks : Prop :=
  ∀ (arg : BitVec 16) (s : State) (j : Job) (first : Word), s.engine.executing = none →
    s.jobs.run = .idle → (s.jobs.next = some j ∨ s.jobs.next = none ∧ s.jobs.current.map Current.job = some j) →
    first = s.mem.word 0x104 → first ≠ 0 → first.toNat ≤ 4294967040 →
    ∃ m, changedWithin s.mem m 0x200 0x248 ∧
      reportShown m (runChecks (s.candidate j) plateChecks) ∧
      (runChecks (s.candidate j) plateChecks ≠ [] →
        exec (.startRun arg) s =
          .next { s with mem := m, engine := s.engine.done 0x02 arg .jobInvalid
                         attn := s.attn.raise .cmdDone }) ∧
      (runChecks (s.candidate j) plateChecks = [] →
        ∃ t, exec (.startRun arg) s = .next t ∧ t.mem = m ∧
          t.engine = s.engine.done 0x02 arg .ok ∧ t.attn = s.attn.raise .cmdDone ∧
          t.jobs = { s.jobs with next := none, run := .armed, holdCause := .none, firstRow := first
                                 current := some { job := j, plates := (s.candidate j).plates } } ∧
          t.wpu = { s.wpu with scaleQ := j.scaleQ, headroom := j.headroom, highWater := s.web
                               overspeed := false } ∧
          t.mark = { s.mark with nextRow := first, lastOpened := first - 1, expected := none
                                 missing := 0, search := false, held := .all none
                                 windows := .all none } ∧
          t.track = [] ∧ t.records = { writtenThrough := first - 1, oldestIntact := first } ∧
          (∀ st, (j.stations.get st).active = true →
            ∀ p, (s.candidate j).plates.get st = some p →
              let r := p.faces * p.pitch
              let k := roundHalfUp ((j.stations.get st).steps * 65536) r
              t.cylGens.get st = { s.cylGens.get st with ratio := k } ∧
              t.station st =
                { s.station st with
                  state := if (j.stations.get st).heated = true ∧ (s.station st).heaterLevel = false
                    then .heatWait else .catching
                  fault := false, indexSeen := false, drift := 0, trimTotal := 0, lastError := none
                  rho := 65536 * ((j.stations.get st).steps : Int) - k * r
                  throw := .off, timer := 0, dwell := 0, risk := [] }) ∧
          (∀ st, (j.stations.get st).active = false → t.cylGens.get st = s.cylGens.get st ∧
            t.station st = { s.station st with trimTotal := 0 }) ∧
          (∀ c, (j.channels.get c).assigned = true →
            let p := j.channelParams (j.channels.get c)
            t.foilGens.get c = { s.foilGens.get c with ratio := p.fs } ∧
            t.channel c =
              { s.channel c with
                state := .standing, strokes := [], current := none, plan := none, rampLen := 0
                rampProgress := 0, mergingFrom := none, fraction := 0, runUsed := 0, params := p }) ∧
          (∀ c, (j.channels.get c).assigned = false → t.foilGens.get c = s.foilGens.get c ∧
            t.channel c = s.channel c) ∧
          t.store = s.store ∧ t.generation = s.generation ∧ t.freeCount = s.freeCount ∧
          t.pending = s.pending)

/-- END_RUN by run state: from ARMED, HELD and RUNNING with an empty track the run enters IDLE with
RUN_IDLE set, every station and channel at rest, every ratio 0 and the job kept; from RUNNING with rows on
the track it enters DRAINING, no row is expected any more and the rows stay on the track. Where no commit was
due, every row but the last stays as it was at the entry to DRAINING. At each active station the last row is
committed at once where it waited for its successor alone: the outcome, the channels' part and the throw are
those of a commit. Otherwise it stays as it was, and the throw opens where the last row was struck and its
zone end has been taken (R36, R38, R91, R98, R99, R105, R146, R147). Where the commit asks about the row before,
it may be the row just retired, the model's reading (log entry 7). -/
def Obligations.EndRunByRunState : Prop :=
  ∀ (arg : BitVec 16) (s : State), s.engine.executing = none →
    (s.jobs.run = .armed ∨ s.jobs.run = .held ∨ s.jobs.run = .running ∧ s.track = [] →
      ∃ t, exec (.endRun arg) s = .next t ∧ t.engine = s.engine.done 0x03 arg .ok ∧
        t.jobs = { s.jobs with run := .idle, holdCause := .none } ∧
        t.attn = (s.attn.raise .runIdle).raise .cmdDone ∧
        idleEntered s t ∧
        sameMemory s t ∧ t.store = s.store ∧ t.generation = s.generation ∧
        t.freeCount = s.freeCount ∧ t.pending = s.pending) ∧
    (s.jobs.run = .running → s.track ≠ [] →
      ∃ t, exec (.endRun arg) s = .next t ∧ t.engine = s.engine.done 0x03 arg .ok ∧
        t.jobs = { s.jobs with run := .draining } ∧ t.mark = { s.mark with expected := none } ∧
        t.track.map RowCtx.row = s.track.map RowCtx.row ∧ t.attn.has .cmdDone = true ∧
        t.wpu = s.wpu ∧ t.cylGens = s.cylGens ∧ t.foilGens = s.foilGens ∧ sameMemory s t ∧
        t.store = s.store ∧ t.generation = s.generation ∧ t.freeCount = s.freeCount ∧
        t.pending = s.pending ∧
        -- the entry to DRAINING
        ∀ front r, s.track = front ++ [r] → s.trackOk → (∀ st, s.commitDue st = none) →
          ∃ r', t.track = front ++ [r'] ∧
            r = { r' with stations := r.stations, channels := r.channels } ∧
            (t.attn = s.attn.raise .cmdDone ∨
              t.attn = (s.attn.raise .foilLate).raise .cmdDone) ∧
            (∀ st, (s.station st).state = .inactive →
              t.station st = s.station st ∧ r'.stations.get st = r.stations.get st) ∧
            (∀ c, (∀ st, s.chanStation c = some st → (s.station st).state = .inactive) →
              t.channel c = s.channel c ∧ r'.channels.get c = r.channels.get c) ∧
            ∀ st, (s.station st).state ≠ .inactive →
              let waits (e : StationEntry) : Prop := (∀ q ∈ front, q.committedAt st = true) ∧
                r.stations.get st = some e ∧ e.committed = false ∧ s.commitReached st e
              (∀ e, waits e → ∃ o, s.decides st r e o ∧
                r'.stations.get st = some { e with committed := true, outcome := some o } ∧
                (e.endTaken = false → committedThrow s t st r.row o) ∧
                ∀ c, s.chanStation c = some st →
                  handedOver s t st r.row e.face o c (r.channels.get c) (r'.channels.get c)) ∧
              ((∀ e, ¬ waits e) →
                let x := s.station st
                let opens := r.endedStrike st = true ∧ (x.throw = .closing ∨ x.throw = .on)
                r'.stations.get st = r.stations.get st ∧
                (opens → t.station st = { x with throw := .opening, timer := (s.block st).throwOff
                                                 dwell := 0 }) ∧
                (¬ opens → t.station st = x) ∧
                ∀ c, s.chanStation c = some st →
                  t.channel c = s.channel c ∧ r'.channels.get c = r.channels.get c))

/-- HOLD_RUN in ARMED, RUNNING or DRAINING is one event: the run is HELD with the cause HOST, RUN_HELD and
CMD_DONE are set and HOST is latched; every active station throws off and leaves TRACKING and LIFTED for
CATCHING; every channel not IDLE loses its strokes and ramps down; the mark unit forgets its windows; and
the track is empty, each row it held with its record, ABANDONED at every active station whose zone end was
to come, written through at the last of them, and oldest intact where the records bring it, both shown on the live
page. No cause but these and RECORD_LAPPED and TALLY, which the records may set, is set (R36, R96, R129, R148 to
R150, R154, R175, R192, R193, R195, R196). The late bits of the records are the model's
reading (log entry 35). -/
def Obligations.HoldRunGivesUpTheRows : Prop :=
  ∀ (arg : BitVec 16) (s : State), s.engine.executing = none →
    s.jobs.run = .armed ∨ s.jobs.run = .running ∨ s.jobs.run = .draining →
    ∃ t, exec (.holdRun arg) s = .next t ∧ t.engine = s.engine.done 0x04 arg .ok ∧
      t.jobs = { s.jobs with run := .held, holdCause := .host
                             stopRequest := s.jobs.stopRequest || s.jobs.selection.getLsbD 0
                             stopCauses := s.jobs.stopCauses ||| 1 } ∧
      blocksHeld s t ∧ causesSet s t (fun k => s.holdSets k ∨ k = .cmdDone) ∧
      t.store = s.store ∧ t.generation = s.generation ∧ t.attn.enables = s.attn.enables ∧
      t.attn.config = s.attn.config ∧ t.freeCount = s.freeCount ∧ t.pending = s.pending

/-- RESUME_RUN in HELD takes the run to ARMED with the hold cause NONE and the high-water position at the
web position, and changes nothing else of the run (R151). -/
def Obligations.ResumeRunArmsTheRun : Prop :=
  ∀ (arg : BitVec 16) (s : State), s.engine.executing = none →
    (s.jobs.run = .held →
      exec (.resumeRun arg) s =
        .next { s with
          engine := s.engine.done 0x05 arg .ok, attn := s.attn.raise .cmdDone
          jobs := { s.jobs with run := .armed, holdCause := .none }
          wpu := { s.wpu with highWater := s.web } }) ∧
    (s.jobs.run ≠ .held →
      exec (.resumeRun arg) s =
        .next { s with engine := s.engine.done 0x05 arg .badState, attn := s.attn.raise .cmdDone })

/-- ACK_STOP removes from the stop-cause set every cause that does not persist and keeps each that does;
where the set then holds FOIL_OUT or a selected cause the result is STOP_PERSISTS, otherwise the request is
deasserted and the result is OK (R155). That STOP_PERSISTS leaves a request that was deasserted as it is, is
the model's reading (log entry 15). -/
def Obligations.AckStopKeepsWhatPersists : Prop :=
  ∀ (arg : BitVec 16) (s : State), s.engine.executing = none →
    ∃ kept : BitVec 10,
      (∀ k : Fin 10, kept.getLsbD k = true ↔ s.jobs.stopCauses.getLsbD k = true ∧
        (k = 9 ∧ (∃ c, (s.chanBlock c).assigned = true ∧ (s.channel c).out = true) ∨
          k = 5 ∧ (∃ st, (s.station st).state = .faulted) ∨
          k = 6 ∧ (∃ st, (s.block st).heated = true ∧ (s.station st).state = .heatWait) ∨
          k = 4 ∧ s.mark.search = true ∨
          k = 8 ∧ s.wpu.overspeed = true)) ∧
      ((kept.getLsbD 9 = true ∨ ∃ k : Fin 10, kept.getLsbD k = true ∧ s.jobs.selection.getLsbD k = true) →
        exec (.ackStop arg) s =
          .next { s with
            engine := s.engine.done 0x0A arg .stopPersists, attn := s.attn.raise .cmdDone
            jobs := { s.jobs with stopCauses := kept } }) ∧
      (¬ (kept.getLsbD 9 = true ∨ ∃ k : Fin 10, kept.getLsbD k = true ∧ s.jobs.selection.getLsbD k = true) →
        exec (.ackStop arg) s =
          .next { s with
            engine := s.engine.done 0x0A arg .ok, attn := s.attn.raise .cmdDone
            jobs := { s.jobs with stopCauses := kept, stopRequest := false } })

/-- A stop cause handed to job control joins the stop-cause set, and asserts the stop request where it is
FOIL_OUT or the CURRENT job selects it; with CURRENT empty FOIL_OUT alone asserts it (R154). -/
def Obligations.StopCauseHandedToJobControl : Prop :=
  ∀ (j : JobControl) (c : StopCause),
    (∀ d : StopCause, (j.handStop c).hasStop d = true ↔ d = c ∨ j.hasStop d = true) ∧
    ((j.handStop c).stopRequest = true ↔
      j.stopRequest = true ∨ c = .foilOut ∨
        ∃ x, j.current = some x ∧ x.job.stopSelection.testBit c.bit = true) ∧
    (j.handStop c).run = j.run ∧ (j.handStop c).holdCause = j.holdCause ∧
    (j.handStop c).next = j.next ∧ (j.handStop c).current = j.current ∧
    (j.handStop c).firstRow = j.firstRow

/-! ## The plate store -/

/-- PLATE_SAVE to a slot it may save, by the working copy taken from the staging area. An ill-formed copy
completes BAD_PLATE and writes the plate fault alone: the code of the first check that the copy fails, in the order
of R161, with the lane and the image it fails at, 0xFF where it concerns none, and zeros after them (R161, R198,
R202). A copy a VALID slot already holds completes
UNCHANGED and changes nothing; any other begins a program cycle, which clears the slot's marker and entry,
empties NEXT where it references the slot, and goes on executing (R161 to R164). -/
def Obligations.PlateSaveByItsWorkingCopy : Prop :=
  ∀ (arg : BitVec 16) (s : State), s.engine.executing = none → arg.toNat ≤ 15 →
    (s.jobs.currentReferences arg.toNat = false ∨ s.jobs.run = .idle) → s.store.length = 16 →
    let staged := s.mem.copyOut 0x1400 512
    (∀ code lane image, firstFault staged code lane image →
      ∃ m, exec (.plateSave arg) s =
          .next { s with mem := m, engine := s.engine.done 0x08 arg .badPlate
                         attn := s.attn.raise .cmdDone } ∧
        changedWithin s.mem m 0x300 0x308 ∧ m.nat 1 0x300 = code ∧
        m.nat 1 0x301 = lane.getD 0xFF ∧ m.nat 1 0x302 = image.getD 0xFF ∧
        ∀ x, 0x303 ≤ x → x < 0x308 → m.read x = 0) ∧
    (∀ f, plateFault staged = some f → firstFault staged f.check.code f.lane f.image) ∧
    (plateFault staged = none →
      ((s.slot arg.toNat).valid = true ∧ (s.slot arg.toNat).record = withCrc staged →
        exec (.plateSave arg) s =
          .next { s with engine := s.engine.done 0x08 arg .unchanged
                         attn := s.attn.raise .cmdDone }) ∧
      (¬ ((s.slot arg.toNat).valid = true ∧ (s.slot arg.toNat).record = withCrc staged) →
        ∃ t, exec (.plateSave arg) s = .next t ∧
          t.engine = s.engine.running 0x08 arg (.plateSave arg.toNat (withCrc staged)) ∧
          t.slot arg.toNat = { s.slot arg.toNat with marker := false, valid := false } ∧
          (∀ n, n ≠ arg.toNat → t.slot n = s.slot n) ∧ t.store.length = s.store.length ∧
          (∀ j, s.jobs.next = some j → j.referenced.contains arg.toNat = true →
            t.jobs = { s.jobs with next := none }) ∧
          ((∀ j, s.jobs.next = some j → j.referenced.contains arg.toNat = false) →
            t.jobs = s.jobs) ∧
          t = { s with engine := t.engine, store := t.store, jobs := t.jobs }))

/-- A program cycle ends: where the read-back equals the working copy and passes its CRC the slot is
marked and VALID and the save completes OK; otherwise its marker stays clear, it reads as BLANK, and the
save completes STORE_FAULT. No other slot changes. A pending command is then accepted at once, as a write of
it to a free engine would be (R164, R179, R180). -/
def Obligations.PlateSaveEndsByItsVerify : Prop :=
  ∀ (s : State) (slot : Nat) (w : Memory) (misread : List (Nat × Byte)),
    s.engine.executing = some (.plateSave slot w) → slot < s.store.length →
    ∃ t : State,
      (∀ n, n ≠ slot → t.slot n = s.slot n) ∧
      (∀ x, x < 512 → (∀ c ∈ misread, c.1 ≠ x) → (t.slot slot).record.read x = w.read x) ∧
      ((t.slot slot).record = w ∧ passesCrc w = true →
        (t.slot slot).marker = true ∧ (t.slot slot).valid = true ∧ t.engine.result = .ok) ∧
      (¬ ((t.slot slot).record = w ∧ passesCrc w = true) →
        (t.slot slot).marker = false ∧ (t.slot slot).valid = false ∧
          t.engine.result = .storeFault) ∧
      (misread = [] → (t.slot slot).record = w) ∧
      t.engine = { s.engine with result := t.engine.result, phase := .done, executing := none } ∧
      t = { s with engine := t.engine, store := t.store, attn := s.attn.raise .cmdDone } ∧
      (s.engine.pend = false → exec (.plateSaveComplete misread) s = .next t) ∧
      (s.engine.pend = true →
        exec (.plateSaveComplete misread) s =
          exec (.cmdPendWrite (0x80#8 ++ s.engine.arg ++ s.engine.code)) t)

/-- PLATE_READ of a VALID slot brings the stored record into the staging area and completes OK, of a BLANK
slot writes zeros there and completes PLATE_BLANK, with an argument above 15 completes BAD_ARG; it changes
nothing else (R165). -/
def Obligations.PlateReadReturnsTheRecord : Prop :=
  ∀ (arg : BitVec 16) (s : State), s.engine.executing = none →
    (15 < arg.toNat →
      exec (.plateRead arg) s =
        .next { s with engine := s.engine.done 0x09 arg .badArg, attn := s.attn.raise .cmdDone }) ∧
    (arg.toNat ≤ 15 →
      ∃ m, changedWithin s.mem m 0x1400 0x1600 ∧
        ((s.slot arg.toNat).valid = true →
          (∀ x, x < 512 → m.read (0x1400 + x) = (s.slot arg.toNat).record.read x) ∧
          exec (.plateRead arg) s =
            .next { s with mem := m, engine := s.engine.done 0x09 arg .ok
                           attn := s.attn.raise .cmdDone }) ∧
        ((s.slot arg.toNat).valid = false →
          (∀ x, x < 512 → m.read (0x1400 + x) = 0) ∧
          exec (.plateRead arg) s =
            .next { s with mem := m, engine := s.engine.done 0x09 arg .plateBlank
                           attn := s.attn.raise .cmdDone }))

/-- A record read back by PLATE_READ and given to PLATE_SAVE for the slot it came from completes
UNCHANGED: no program cycle, and the store and both job slots as they were (R163, R165). The slot holds a
record as a save leaves one: well formed, passing its CRC, canonical and 512 bytes long. -/
def Obligations.PlateReadThenSaveIsUnchanged : Prop :=
  ∀ (arg : BitVec 16) (s : State), s.engine.executing = none → arg.toNat ≤ 15 →
    (s.jobs.currentReferences arg.toNat = false ∨ s.jobs.run = .idle) → s.mem.wf = true →
    (s.slot arg.toNat).valid = true → (s.slot arg.toNat).record.wf = true →
    (s.slot arg.toNat).record.below 512 → plateFault (s.slot arg.toNat).record = none →
    passesCrc (s.slot arg.toNat).record = true →
    ∃ t u, exec (.plateRead arg) s = .next t ∧ exec (.plateSave arg) t = .next u ∧
      u.engine.result = .unchanged ∧ u.engine.executing = none ∧ u.store = s.store ∧
      u.jobs = s.jobs

/-- The geometry checks find no fault in exactly the records that are well formed: label, pitch, faces
around, lane count, and for each lane below the lane count at most twelve images, each of length at least
1, ending within the pitch, and starting at or beyond the end of the image before it (R159, R161, R204). -/
def Obligations.GeometryChecksFindIllFormedRecords : Prop :=
  ∀ m : Memory,
    plateFault m = none ↔
      labelWellFormed m ∧ 4000 ≤ m.nat 4 0x018 ∧ m.nat 4 0x018 ≤ 80000 ∧
      1 ≤ m.nat 1 0x01C ∧ m.nat 1 0x01C ≤ 4 ∧ 1 ≤ m.nat 1 0x01D ∧ m.nat 1 0x01D ≤ 4 ∧
      ∀ l, l < m.nat 1 0x01D → laneWellFormed m l

/-! ## The web position unit -/

/-- A sampled pair that differs in one line is a count: forward in the sequence of the manual's table and
reverse otherwise. It sets the direction, adds or takes Q, moves the high-water position where the web goes
beyond it, and a count that leaves the web position leaves every other block as it was. The first sample
after a reset is taken as the previous pair and counts nothing. The change is delivered whole and signed to
the cylinder generator of every station that is not INACTIVE, with the trims of the rows whose zone ends it
reaches, which join the trim total, and to no other. A web left behind the high-water position by more than
the reverse tolerance holds the run with the cause REVERSE, and one that is not leaves the run state as it
was, where the track has room. The hold acts on all as the same count leaves it where the tolerance is not
exceeded: the throws go off, TRACKING and LIFTED become CATCHING, the channels lose their strokes and ramp down,
the mark unit forgets its windows and its search, each row is retired with its record as the hold leaves it, and
RUN_HELD is set. Where no row opens and no hold follows, the throw that is OFF at a TRACKING
station of a RUNNING or DRAINING run is CLOSING where the web has come to the close point of the next
strike, and a station to which the change brings no drift shift and no zone event changes in its drift
remainder and so in its throw alone. Memory changes at the verdicts read through word at most, where no
hold follows (R1, R3, R5, R7, R8, R13, R15, R36, R56, R65, R90, R96, R129, R149, R150, R175, R193, R196). That the hold
comes last in the count is the model's choice of order (log entry 4), and the late bits of the records are its
reading (log entry 35). -/
def Obligations.EncoderCountMovesTheWeb : Prop :=
  ∀ (s : State) (a b : Bool),
    (s.wpu.pair = none →
      exec (.encoderCount a b) s = .next { s with wpu := { s.wpu with pair := some (a, b) } }) ∧
    ∀ p : Bool × Bool, s.wpu.pair = some p → (p.1 = a ↔ p.2 ≠ b) →
      let forward := (p, (a, b)) ∈ [((false, false), (true, false)), ((true, false), (true, true)),
        ((true, true), (false, true)), ((false, true), (false, false))]
      ∃ t, exec (.encoderCount a b) s = .next t ∧
        t.wpu = { s.wpu with
          pair := some (a, b), direction := t.wpu.direction, acc := t.wpu.acc
          highWater := if t.web ≠ s.web ∧ 0 < dist s.wpu.highWater t.web then t.web
            else s.wpu.highWater } ∧
        (forward → t.wpu.direction = .forward ∧
          t.wpu.acc = s.wpu.acc + BitVec.ofNat 48 s.wpu.scaleQ) ∧
        (¬ forward → t.wpu.direction = .reverse ∧
          t.wpu.acc = s.wpu.acc - BitVec.ofNat 48 s.wpu.scaleQ) ∧
        (t.web = s.web → t = { s with wpu := t.wpu }) ∧ sameOutside s t ∧ sameSlots s t ∧
        (∀ st, (s.station st).state = .inactive →
          t.cylGens.get st = s.cylGens.get st ∧ t.station st = s.station st) ∧
        (∀ st, (s.station st).state ≠ .inactive →
          ∃ trim : Int,
            ((∀ r ∈ s.track, ∀ e, r.stations.get st = some e → e.endTaken = true) → trim = 0) ∧
            (t.station st).trimTotal = (s.station st).trimTotal + BitVec.ofInt 32 trim ∧
            t.cylGens.get st =
              { s.cylGens.get st with
                acc := (s.cylGens.get st).acc +
                  BitVec.ofInt 48 ((dist s.web t.web + trim) * ((s.cylGens.get st).ratio : Int)) }) ∧
        (t.web ≠ s.web →
          s.jobs.run = .armed ∨ s.jobs.run = .draining ∨
            s.jobs.run = .running ∧ s.track.length < 32 →
          ((s.job.reverseTol : Int) < dist t.web t.wpu.highWater →
            t.jobs.run = .held ∧ t.jobs.holdCause = .reverse ∧ t.track = [] ∧
              t.attn.has .runHeld = true ∧ t.jobs.hasStop .reverse = true ∧
              ∀ k, s.jobs.current = some k →
                let far := { k with job := { k.job with reverseTol := 2 ^ 32 } }
                ∃ u, exec (.encoderCount a b) { s with jobs := { s.jobs with current := some far } } =
                    .next u ∧ u.jobs.run = s.jobs.run ∧ blocksHeld u t ∧ causesSet u t u.holdSets ∧
                  t.jobs = { u.jobs with
                    current := some k, run := .held, holdCause := .reverse
                    stopRequest := u.jobs.stopRequest || u.jobs.selection.getLsbD 1
                    stopCauses := u.jobs.stopCauses ||| 2 }) ∧
          (dist t.web t.wpu.highWater ≤ s.job.reverseTol →
            t.jobs.run = s.jobs.run ∧ t.jobs.holdCause = s.jobs.holdCause)) ∧
        (t.web ≠ s.web → t.mark.nextRow = s.mark.nextRow → t.jobs.run ≠ .held ∨ s.jobs.run = .held →
          ∀ st, (s.station st).state ≠ .inactive →
            let x := s.station st
            let moving := s.jobs.run = .running ∨ s.jobs.run = .draining
            let closes := x.state = .tracking ∧ moving ∧ x.throw = .off ∧ t.closePointReached st = true
            (moving → (t.station st).state = .tracking → t.closePointReached st = true →
              (t.station st).throw ≠ .off) ∧
            (stationQuiet s t st →
              t.station st =
                { x with drift := x.drift + dist s.web t.web * x.rho
                         throw := if closes then .closing else x.throw
                         timer := if closes then (s.block st).throwOn else x.timer })) ∧
        (t.jobs.run ≠ .held ∨ s.jobs.run = .held →
          changedWithin s.mem t.mem 0x14 0x18 ∧ t.records = s.records)

/-- A sampled pair that differs in both lines counts nothing, keeps the direction and becomes the previous
pair. In ARMED, RUNNING and DRAINING it holds the run with the cause ENCODER, latched as a stop cause, and
RUN_HELD is set: every active station throws off and leaves TRACKING and LIFTED for CATCHING, every channel not
IDLE loses its strokes and ramps down, the mark unit forgets its windows, and each row on the track is retired
with its record as the hold leaves it. In IDLE and HELD it changes nothing else (R2; of the hold R36, R96, R129,
R148 to R150, R154, R175, R192, R193, R195, R196; the late bits of the records by log entry 35, the model's reading). -/
def Obligations.EncoderFaultHoldsTheRun : Prop :=
  ∀ (s : State) (p : Bool × Bool) (a b : Bool), s.wpu.pair = some p → p.1 ≠ a → p.2 ≠ b →
    ∃ t, exec (.encoderFault a b) s = .next t ∧ t.wpu = { s.wpu with pair := some (a, b) } ∧
      (s.jobs.run = .idle ∨ s.jobs.run = .held → t = { s with wpu := t.wpu }) ∧
      (s.jobs.run = .armed ∨ s.jobs.run = .running ∨ s.jobs.run = .draining →
        t.jobs = { s.jobs with run := .held, holdCause := .encoder
                               stopRequest := s.jobs.stopRequest || s.jobs.selection.getLsbD 2
                               stopCauses := s.jobs.stopCauses ||| 4 } ∧
        blocksHeld { s with wpu := t.wpu } t ∧ causesSet s t s.holdSets ∧ sameOutside s t)

/-- An expiry of the timebase forms v8 from the oldest ring entry, clamped, pushes the web position on the
ring, and forms v8p rounded up from max(v8, 0) and the headroom. OVERSPEED is raised and handed over once
an excursion, where v8 first exceeds v8 max outside IDLE, and at no other expiry; the flag is cleared at or
below it. At each station the heater input is sampled, the travel timer counts down, the dwell count goes
up while a heated TRACKING station is on impression below the crawl speed and is 0 otherwise, a LIFTED
station at the resume speed is TRACKING, and the close condition is tested. A STANDING channel computes its
ramp length afresh and takes the ramp up that waits, and no other channel changes. The generation goes on
by 2, and memory changes on the live page alone (R9 to R12, R75, R89, R90, R93, R95, R112, R116, R174). The
order of these within the step, the channels' part before the steps of travel, lift and heater that the
same expiry makes due, is the model's choice (log entry 5). That a run of four heater samples is held as it
is, whatever the samples after it, until the level is accepted in a step of its own, is the model's choice
too (log entry 13). -/
def Obligations.TimebaseExpiryUpdatesTheSpeed : Prop :=
  ∀ (heaters : Four Bool) (s : State),
    ∃ t, exec (.timebaseExpiry heaters) s = .next t ∧
      (-32768 ≤ t.wpu.v8 ∧ t.wpu.v8 ≤ 32767) ∧
      (-32768 ≤ dist s.wpu.ring.a0 s.web → dist s.wpu.ring.a0 s.web ≤ 32767 →
        t.wpu.v8 = dist s.wpu.ring.a0 s.web) ∧
      (dist s.wpu.ring.a0 s.web < -32768 → t.wpu.v8 = -32768) ∧
      (32767 < dist s.wpu.ring.a0 s.web → t.wpu.v8 = 32767) ∧
      t.wpu.ring = ⟨s.wpu.ring.a1, s.wpu.ring.a2, s.wpu.ring.a3, s.wpu.ring.a4, s.wpu.ring.a5,
        s.wpu.ring.a6, s.wpu.ring.a7, s.web⟩ ∧
      (max t.wpu.v8 0).toNat * (256 + s.wpu.headroom) ≤ 256 * t.wpu.v8p ∧
      256 * t.wpu.v8p < (max t.wpu.v8 0).toNat * (256 + s.wpu.headroom) + 256 ∧
      t.wpu = { s.wpu with v8 := t.wpu.v8, ring := t.wpu.ring, v8p := t.wpu.v8p
                           overspeed := t.wpu.overspeed } ∧
      (s.jobs.run = .idle → t.wpu.overspeed = s.wpu.overspeed ∧ t.jobs = s.jobs) ∧
      (s.jobs.run ≠ .idle → (t.wpu.overspeed = true ↔ (s.job.v8Max : Int) < t.wpu.v8)) ∧
      (s.jobs.run ≠ .idle → t.wpu.overspeed = true → s.wpu.overspeed = false →
        t.attn.has .overspeed = true ∧ t.jobs = s.jobs.handStop .overspeed) ∧
      (¬ (s.jobs.run ≠ .idle ∧ t.wpu.overspeed = true ∧ s.wpu.overspeed = false) →
        t.jobs = s.jobs ∧
          (s.attn.has .overspeed = false → t.attn.has .overspeed = false)) ∧
      (∀ st,
        let x := s.station st
        let resumed := if x.state = .lifted ∧ (s.job.resume : Int) ≤ t.wpu.v8 then .tracking
          else x.state
        let closes := resumed = .tracking ∧ (s.jobs.run = .running ∨ s.jobs.run = .draining) ∧
          x.throw = .off ∧ t.closePointReached st = true
        let counts := (s.block st).heated = true ∧ x.state = .tracking ∧
          (x.throw = .closing ∨ x.throw = .on) ∧ t.wpu.v8 < s.job.crawl
        t.station st =
          { x with
            state := resumed
            heaterRun := if 4 ≤ x.heaterRun then x.heaterRun
              else if heaters.get st = x.heaterLevel then 0 else x.heaterRun + 1
            dwell := if counts then x.dwell + 1 else 0
            throw := if closes then .closing else x.throw
            timer := if closes then (s.block st).throwOn else x.timer - 1 }) ∧
      (∀ c, ((s.channel c).state ≠ .standing → t.channel c = s.channel c) ∧
        ((s.channel c).state = .standing → (t.channel c).accounts = (s.channel c).accounts ∧
          rampTaken s t c (s.channel c))) ∧
      t.generation = s.generation + 2 ∧ changedWithin s.mem t.mem 0 0x100 ∧
      sameRun s t ∧ t.cylGens = s.cylGens ∧ t.foilGens = s.foilGens ∧ t.mark = s.mark ∧
      t.track.map (fun r => (r.row, r.stations)) = s.track.map (fun r => (r.row, r.stations)) ∧
      t.records = s.records ∧ t.engine = s.engine ∧ t.store = s.store ∧
      t.lastRetired = s.lastRetired ∧ t.attn.enables = s.attn.enables ∧
      t.attn.config = s.attn.config ∧ t.freeCount = s.freeCount ∧ t.pending = s.pending

/-- The live page after an expiry of the timebase shows the state as it stands, at the places and with the
codes of R201, with zeros in its unused bytes, under the generation the update ends with (R17, R39, R100,
R131, R156, R174, R201). That the page shows the state after every action of the step, and before the
steps of travel, lift and heater that the same expiry makes due, is the model's choice (log entry 5). -/
def Obligations.LivePageShowsTheState : Prop :=
  ∀ (heaters : Four Bool) (s : State),
    ∃ t, exec (.timebaseExpiry heaters) s = .next t ∧
      t.mem.word 0x00 = t.generation ∧
      (t.mem.nat 1 0x04 = 0 ↔ t.jobs.run = .idle) ∧ (t.mem.nat 1 0x04 = 1 ↔ t.jobs.run = .armed) ∧
      (t.mem.nat 1 0x04 = 2 ↔ t.jobs.run = .running) ∧
      (t.mem.nat 1 0x04 = 3 ↔ t.jobs.run = .draining) ∧
      (t.mem.nat 1 0x04 = 4 ↔ t.jobs.run = .held) ∧
      (∀ p ∈ holdCauseCodes, t.jobs.holdCause = p.1 → t.mem.nat 1 0x05 = p.2) ∧
      t.mem.nat 1 0x06 = (if t.jobs.stopRequest = true then 1 else 0) ∧
      t.mem.nat 1 0x07 = (if t.mark.search = true then 1 else 0) ∧ t.mem.word 0x08 = t.web ∧
      t.mem.word 0x0C = t.wpu.highWater ∧ t.mem.int 2 0x10 = t.wpu.v8 ∧
      t.mem.nat 1 0x12 = t.mark.missing % 256 ∧
      t.mem.nat 1 0x13 = (if t.jobs.next = none then 0 else 1) +
        (if t.jobs.current = none then 0 else 2) ∧
      t.mem.word 0x14 = t.mark.lastOpened ∧
      t.mem.word 0x18 = t.records.writtenThrough ∧ t.mem.word 0x1C = t.records.oldestIntact ∧
      t.mem.nat 2 0x20 = t.jobs.stopCauses.toNat ∧
      (∀ p ∈ stopCauseBits, (t.mem.nat 2 0x20).testBit p.2 = true ↔ t.jobs.hasStop p.1 = true) ∧
      t.mem.nat 2 0x22 = 0 ∧
      (∀ j, t.jobs.next = some j → t.mem.word 0x24 = j.tag) ∧
      (t.jobs.next = none → t.mem.word 0x24 = 0) ∧
      (∀ c, t.jobs.current = some c → t.mem.word 0x28 = c.job.tag) ∧
      (t.jobs.current = none → t.mem.word 0x28 = 0) ∧
      (∀ x, 0x2C ≤ x → x < 0x40 → t.mem.read x = 0) ∧
      (∀ st : Fin 4,
        (∀ p ∈ stationStateCodes, (t.station st).state = p.1 → t.mem.nat 1 (0x40 + 16 * st) = p.2) ∧
        t.mem.nat 1 (0x41 + 16 * st) = (if (t.station st).fault = true then 1 else 0) ∧
        (∀ p ∈ throwCodes, (t.station st).throw = p.1 → t.mem.nat 1 (0x42 + 16 * st) = p.2) ∧
        t.mem.nat 1 (0x43 + 16 * st) = (if (t.station st).lastError = none then 0 else 1) ∧
        t.mem.word (0x44 + 16 * st) = (t.station st).trimTotal ∧
        (∀ e, (t.station st).lastError = some e → -(2 ^ 31) ≤ e → e < 2 ^ 31 →
          t.mem.int 4 (0x48 + 16 * st) = e) ∧
        ((t.station st).lastError = none → t.mem.word (0x48 + 16 * st) = 0) ∧
        t.mem.int 4 (0x4C + 16 * st) = (t.gen (.cylinder st)).owed) ∧
      ∀ c : Fin 8,
        (∀ p ∈ channelStateCodes, (t.channel c).state = p.1 → t.mem.nat 1 (0x80 + 16 * c) = p.2) ∧
        t.mem.nat 3 (0x81 + 16 * c) = 0 ∧
        t.mem.nat 4 (0x84 + 16 * c) = (t.channel c).remaining % 2 ^ 32 ∧
        t.mem.nat 4 (0x88 + 16 * c) = (t.channel c).runUsed % 2 ^ 32 ∧
        t.mem.int 4 (0x8C + 16 * c) = (t.gen (.foil c)).owed

/-- A generator's turn emits one step towards the commanded position where at least 250 ns have passed
since the output's last step, forward or reverse by the sign of the owed count, with the direction line at
that level; a step whose turn comes sooner is held, and nothing is emitted where nothing is owed. No other
generator and no other block changes (R13, R14). -/
def Obligations.StepEmitSendsOneStep : Prop :=
  ∀ (g : GenId) (ns : Nat) (s : State),
    (ns < 250 ∨ (s.gen g).owed = 0 → exec (.stepEmit g ns) s = .next s) ∧
    (250 ≤ ns → (s.gen g).owed ≠ 0 →
      ∃ t, exec (.stepEmit g ns) s = .next t ∧
        (0 < (s.gen g).owed →
          t.gen g = { s.gen g with emitted := (s.gen g).emitted + 1, dirHigh := true }) ∧
        ((s.gen g).owed < 0 →
          t.gen g = { s.gen g with emitted := (s.gen g).emitted - 1, dirHigh := false }) ∧
        (t.gen g).owed.natAbs + 1 = (s.gen g).owed.natAbs ∧
        (∀ k, k ≠ g → t.gen k = s.gen k) ∧
        t = { s with cylGens := t.cylGens, foilGens := t.foilGens })

/-! ## Marks, rows and verdicts -/

/-- The verdict and the source of row n from the stamp and the code of its entry, by the first case of the
table that matches, with the STALE test of R45 and the default of R46; and the causes that set
VERDICT_DEFAULTED (R44). -/
def Obligations.VerdictEntryResolved : Prop :=
  ∀ (stamp n : Word) (code : Nat) (d : Verdict),
    let r := resolveVerdict stamp n code d
    (stamp = 0 → r = (d, .absent)) ∧
    (stamp ≠ 0 → stamp = n →
      (code = 1 → r = (.stamp, .strip)) ∧ (code = 2 → r = (.skip, .strip)) ∧
      (code = 3 → r = (.splice, .strip)) ∧
      (code ≠ 1 → code ≠ 2 → code ≠ 3 → r = (d, .bad))) ∧
    (stamp ≠ 0 → 0 < (stamp - n).toInt → r = (d, .early)) ∧
    (stamp ≠ 0 → (stamp - n).toInt < 0 →
      1 ≤ (n - stamp).toInt ∧ (n - stamp).toInt ≤ 1024 ∧ stamp.toNat % 256 = n.toNat % 256 →
      r = (d, .stale)) ∧
    (stamp ≠ 0 → (stamp - n).toInt < 0 →
      ¬ (1 ≤ (n - stamp).toInt ∧ (n - stamp).toInt ≤ 1024 ∧ stamp.toNat % 256 = n.toNat % 256) →
      r = (d, .absent)) ∧
    (r.2.defaulted = true ↔ r.2 = .bad ∨ r.2 = .early ∨ r.2 = .stale)

/-- A leading-lane mark edge opens a row at the edge's position: FIRST in ARMED, which takes the run to
RUNNING; FOUND in RUNNING where the position lies in the leading window; RECAPTURED where search is on and
it lies in the search window, with search cleared and REG_FOUND set. The missing count is 0 after the last
two. An edge beyond the leading window first closes it, which opens its row MISSING, and is then tested
against the next: it opens a second row FOUND where it lies in that, and is ignored where it lies between
the two. An edge beyond the open window of either kind, 2^30 ticks from E at most so that positions compare
(R6), opens the window's row MISSING, which counts towards the missing limit and may begin the search, and
is then taken as the same edge at the state this leaves (R19, R21 to R25, R27, R28). Of every row opened
the lanes' windows are opened, the held edges spent, and the row placed at each active station and tested
against a splice, which withdraws the strokes of the rows it sacrifices (R28 to R30, R54, R61, R80, R85,
R128). That the predecessor of a row sacrificed to a splice may itself have been sacrificed just before it
is the model's choice of order (log entry 32), and so is that no commit falls between the two rows one edge
opens (log entry 34). -/
def Obligations.LeadingMarkOpensARow : Prop :=
  ∀ (lane : Fin 4) (p : Pos) (s : State), s.mark.levels.get lane = false →
    s.wpu.direction = .forward → s.job.laneActive lane = true → s.job.leadingLane = lane →
    s.track.length < 32 →
    (s.jobs.run = .armed →
      ∃ t, exec (.markEdge lane true p) s = .next t ∧ rowOpened s t .first p ∧
        t.mark.levels = s.mark.levels.set lane true ∧
        t.jobs.run = .running ∧ t.jobs.holdCause = s.jobs.holdCause ∧
        t.mark.missing = s.mark.missing ∧ t.mark.search = s.mark.search ∧ t.wpu = s.wpu) ∧
    (∀ e, s.jobs.run = .running → s.mark.expected = some e → s.mark.search = false →
      s.job.window ≤ 4000 → (dist e p).natAbs ≤ s.job.window →
      ∃ t, exec (.markEdge lane true p) s = .next t ∧ rowOpened s t .found p ∧ sameRun s t ∧
        t.mark.levels = s.mark.levels.set lane true ∧
        t.mark.missing = 0 ∧ t.mark.search = false ∧ t.wpu = s.wpu) ∧
    (∀ e, s.jobs.run = .running → s.mark.expected = some e → s.mark.search = true →
      s.jobPitch ≤ 80000 → -((s.jobPitch / 2 : Nat) : Int) ≤ dist e p →
      dist e p < (s.jobPitch : Int) - (s.jobPitch / 2 : Nat) →
      ∃ t, exec (.markEdge lane true p) s = .next t ∧ rowOpened s t .recaptured p ∧ sameRun s t ∧
        t.mark.levels = s.mark.levels.set lane true ∧
        t.mark.missing = 0 ∧ t.mark.search = false ∧ t.attn.has .regFound = true ∧ t.wpu = s.wpu) ∧
    (∀ e, s.jobs.run = .running → s.mark.expected = some e →
      (s.mark.search = true ∧ s.jobPitch ≤ 80000 ∧
          (s.jobPitch : Int) - (s.jobPitch / 2 : Nat) ≤ dist e p ∨
        s.mark.search = false ∧ s.job.window ≤ 4000 ∧ (s.job.window : Int) < dist e p) →
      dist e p ≤ 2 ^ 30 →
      let limit := min 255 (s.mark.missing + 1) = s.job.missingLimit
      ∃ u, rowOpened s u .missing e ∧ u.mark.levels = s.mark.levels.set lane true ∧
        u.mark.missing = min 255 (s.mark.missing + 1) ∧ u.jobs.run = .running ∧ u.wpu = s.wpu ∧
        (u.mark.search = true ↔ s.mark.search = true ∨ limit) ∧
        (limit → s.mark.search = false →
          u.attn.has .regLost = true ∧ u.jobs.hasStop .regLost = true) ∧
        (s.mark.search = true ∨ ¬ limit → s.attn.has .regLost = false →
          u.attn.has .regLost = false) ∧
        exec (.markEdge lane true p) s = exec (.markEdge lane true p)
          { u with mark := { u.mark with levels := s.mark.levels } }) ∧
    ∀ e, s.jobs.run = .running → s.mark.expected = some e → s.mark.search = false →
      0 < s.job.window → 8 * s.job.window ≤ s.jobPitch → s.jobPitch ≤ 80000 →
      min 255 (s.mark.missing + 1) ≠ s.job.missingLimit →
      ((s.job.window : Int) < dist e p → dist e p < (s.jobPitch : Int) - s.job.window →
        ∃ t, exec (.markEdge lane true p) s = .next t ∧ rowOpened s t .missing e ∧ sameRun s t ∧
          t.mark.missing = min 255 (s.mark.missing + 1) ∧ t.mark.search = false ∧ t.wpu = s.wpu) ∧
      ((s.jobPitch : Int) - s.job.window ≤ dist e p →
        dist e p ≤ (s.jobPitch : Int) + s.job.window → s.track.length < 31 →
        ∃ u t, exec (.markEdge lane true p) s = .next t ∧ rowOpened s u .missing e ∧
          rowOpened u t .found p ∧ sameRun s t ∧ t.mark.missing = 0 ∧ t.mark.search = false ∧
          t.wpu = s.wpu)

/-- A mark edge that is discarded changes the accepted level of its input and nothing else: in IDLE and
HELD, on an inactive lane, while the direction of last movement is REVERSE, a leading-lane edge in
DRAINING, and a leading-lane edge behind the open window. So does an accepted fall (R19, R20, R22, R25). -/
def Obligations.DiscardedMarkChangesOnlyTheLevel : Prop :=
  ∀ (lane : Fin 4) (p : Pos) (s : State), s.mark.levels.get lane = false →
    (s.jobs.run = .idle ∨ s.jobs.run = .held ∨ s.job.laneActive lane = false ∨
        s.wpu.direction = .reverse ∨ s.jobs.run = .draining ∧ s.job.leadingLane = lane ∨
        (∃ e, s.jobs.run = .running ∧ s.job.leadingLane = lane ∧ s.mark.expected = some e ∧
          s.mark.search = false ∧ s.job.window ≤ 4000 ∧ dist e p < -(s.job.window : Int) ∧
          -(2 ^ 30) ≤ dist e p) ∨
        (∃ e, s.jobs.run = .running ∧ s.job.leadingLane = lane ∧ s.mark.expected = some e ∧
          s.mark.search = true ∧ s.jobPitch ≤ 80000 ∧
          dist e p < -((s.jobPitch / 2 : Nat) : Int) ∧ -(2 ^ 30) ≤ dist e p) →
      exec (.markEdge lane true p) s =
        .next { s with mark := { s.mark with levels := s.mark.levels.set lane true } }) ∧
    ∀ u : State, u.mark.levels.get lane = true →
      exec (.markEdge lane false p) u =
        .next { u with mark := { u.mark with levels := u.mark.levels.set lane false } }

/-- A mark edge of a non-leading active lane: in RUNNING and DRAINING an edge in the lane's pending window
gives that row the result FOUND with its signed error and closes the window; any other, and every edge in
ARMED, becomes the held edge in place of an earlier one (R20, R29). -/
def Obligations.LaneMarkIsMeasuredOrHeld : Prop :=
  ∀ (lane : Fin 4) (p : Pos) (s : State), s.mark.levels.get lane = false →
    s.wpu.direction = .forward → s.job.laneActive lane = true → s.job.leadingLane ≠ lane →
    (∀ w, s.jobs.run = .running ∨ s.jobs.run = .draining → s.mark.windows.get lane = some w →
      (dist w.centre p).natAbs ≤ s.job.window →
      exec (.markEdge lane true p) s =
        .next { s with
          mark := { s.mark with levels := s.mark.levels.set lane true
                                windows := s.mark.windows.set lane none }
          track := s.track.map fun r =>
            if r.row = w.row then { r with lanes := r.lanes.set lane (.found (dist w.centre p)) }
            else r }) ∧
    (s.jobs.run = .armed ∨
        (s.jobs.run = .running ∨ s.jobs.run = .draining) ∧
          (∀ w, s.mark.windows.get lane = some w → s.job.window < (dist w.centre p).natAbs) →
      exec (.markEdge lane true p) s =
        .next { s with mark := { s.mark with levels := s.mark.levels.set lane true
                                             held := s.mark.held.set lane (some p) } })

/-- When a forward count brings the web to the end of the open leading window, E + W, or of the open search
window, a pitch beyond its start, the next row opens MISSING at E, the missing count goes up by 1 to 255 at
most, and where it reaches the missing limit outside search the search flag is set with REG_LOST raised and
handed over. When it brings the web to the end c + W of a lane's pending window, that window closes and its
row's result at the lane is MISSING; a window whose end the web has yet to reach stays, where the step opens no
row (R5, R23 to R25, R30). That a lane window whose end already stood at or behind the web stays pending too is
the model's choice, since no rule says when it closes (log entry 37). -/
def Obligations.WindowCloseOpensAMissingRow : Prop :=
  ∀ (s : State) (p : Bool × Bool) (a b : Bool) (w : Pos), s.wpu.pair = some p →
    transition p (a, b) = .forward →
    w = (s.wpu.acc + BitVec.ofNat 48 s.wpu.scaleQ).extractLsb' 16 32 →
    (∀ e : Pos, s.jobs.run = .running → s.mark.expected = some e → s.track.length < 32 →
      let x := if s.mark.search = true
        then moved (moved e (-((s.jobPitch / 2 : Nat) : Int))) s.jobPitch
        else moved e s.job.window
      dist x s.web < 0 → 0 ≤ dist x w → 0 ≤ dist s.wpu.highWater w →
      ∃ t, exec (.encoderCount a b) s = .next t ∧ t.web = w ∧ t.jobs.run = .running ∧
        (∃ r, t.track.getLast? = some r ∧ r.row = s.mark.nextRow ∧ r.lead = e ∧
          r.status = .missing ∧ (r.verdict, r.source) = s.readVerdict s.mark.nextRow) ∧
        t.mark.lastOpened = s.mark.nextRow ∧ t.mark.nextRow = rowSucc s.mark.nextRow ∧
        t.mark.expected = some (e + BitVec.ofNat 32 s.jobPitch) ∧
        t.mark.missing = min 255 (s.mark.missing + 1) ∧
        (t.mark.search = true ↔
          s.mark.search = true ∨ min 255 (s.mark.missing + 1) = s.job.missingLimit) ∧
        (t.mark.search = true → s.mark.search = false →
          t.attn.has .regLost = true ∧ t.jobs.hasStop .regLost = true) ∧
        t.mem.word 0x14 = s.mark.nextRow ∧ changedWithin s.mem t.mem 0x14 0x18) ∧
    ∀ (l : Fin 4) (k : LaneWindow), s.jobs.run = .running ∨ s.jobs.run = .draining →
      s.mark.windows.get l = some k →
      ∃ t, exec (.encoderCount a b) s = .next t ∧
        (dist (moved k.centre s.job.window) s.web < 0 → 0 ≤ dist (moved k.centre s.job.window) w →
          (k.row ≠ s.mark.nextRow → t.mark.windows.get l ≠ some k) ∧
          ∀ r ∈ t.track, r.row = k.row → k.row ≠ s.mark.nextRow → r.lanes.get l = .missing) ∧
        (0 ≤ dist (moved k.centre s.job.window) s.web ∨ dist (moved k.centre s.job.window) w < 0 →
          t.mark.nextRow = s.mark.nextRow → t.jobs.run ≠ .held →
          t.mark.windows.get l = some k)

/-- A row open that finds 32 rows on the track opens no row: the run is HELD with the cause TRACK_FULL, the row
numbers stay as they were, and every row held is retired with its record, to which written through comes.
So it is at a leading-lane mark edge in RUNNING that lies in the leading window, in the search window, or
beyond either by 2^30 ticks from E at most (R6), where the hold finds all as the edge did but for the level of
the mark input; and at a count that brings the web to the end of the leading or the search window, where the
hold finds all as the same count would leave it with no row expected. The hold acts on all it finds: the throws
go off, TRACKING and LIFTED become CATCHING, the channels lose their strokes and ramp down, the mark unit
forgets its windows, and each row has its record as the hold leaves it; and RUN_HELD alone is set, with what the
records set (R23, R25, R28, R33, R36, R96, R129, R149, R150, R175, R192, R193, R195, R196). That at such a count the head
row is still on the track, though the count itself may have made it ready, and that the foil channels, the
stations and the lanes act on it before the row open, is the model's choice (log entries 36 and 4); the late bits
of the records are its reading (log entry 35). -/
def Obligations.FullTrackHoldsTheRun : Prop :=
  let full (s t : State) : Prop := t.jobs.run = .held ∧
    t.jobs.holdCause = .trackFull ∧ t.jobs.hasStop .trackFull = true ∧
    t.attn.has .runHeld = true ∧ t.mark.nextRow = s.mark.nextRow ∧
    t.mark.lastOpened = s.mark.lastOpened ∧ t.mark.expected = none ∧ t.track = [] ∧
    (∀ r, s.track.getLast? = some r → t.records.writtenThrough = r.row) ∧
    changedByRecords s.mem t.mem ∧ sameOutside s t ∧ sameSlots s t
  (∀ (lane : Fin 4) (p e : Pos) (s : State), s.mark.levels.get lane = false →
    s.wpu.direction = .forward → s.job.laneActive lane = true → s.job.leadingLane = lane →
    s.track.length = 32 → s.jobs.run = .running → s.mark.expected = some e → dist e p ≤ 2 ^ 30 →
    (s.mark.search = false ∧ s.job.window ≤ 4000 ∧ -(s.job.window : Int) ≤ dist e p ∨
      s.mark.search = true ∧ s.jobPitch ≤ 80000 ∧ -((s.jobPitch / 2 : Nat) : Int) ≤ dist e p) →
    ∃ t, exec (.markEdge lane true p) s = .next t ∧ full s t ∧
      blocksHeld { s with mark := { s.mark with levels := s.mark.levels.set lane true } } t ∧
      causesSet s t s.holdSets) ∧
  ∀ (s : State) (p : Bool × Bool) (a b : Bool) (w e : Pos), s.wpu.pair = some p →
    transition p (a, b) = .forward →
    w = (s.wpu.acc + BitVec.ofNat 48 s.wpu.scaleQ).extractLsb' 16 32 →
    s.track.length = 32 → s.jobs.run = .running → s.mark.expected = some e →
    let x := if s.mark.search = true
      then moved (moved e (-((s.jobPitch / 2 : Nat) : Int))) s.jobPitch
      else moved e s.job.window
    dist x s.web < 0 → 0 ≤ dist x w →
    ∃ t, exec (.encoderCount a b) s = .next t ∧ t.web = w ∧ full s t ∧
      (s.trackOk → ∀ r ∈ s.track,
        let slot := 0x4000 + 128 * (r.row.toNat % 128)
        t.mem.word slot = r.row ∧ t.mem.word (slot + 4) = r.jobTag ∧
          t.mem.word (slot + 8) = r.lead ∧ t.mem.nat 1 (slot + 0x0C) = r.status.code) ∧
      ∃ u, exec (.encoderCount a b) { s with mark := { s.mark with expected := none } } = .next u ∧
        (u.jobs.run = .running → blocksHeld u t ∧ causesSet u t u.holdSets ∧
          t.jobs = { u.jobs with run := .held, holdCause := .trackFull
                                 stopRequest := u.jobs.stopRequest || u.jobs.selection.getLsbD 3
                                 stopCauses := u.jobs.stopCauses ||| 8 })

/-! ## The impression stations -/

/-- The commit event of the oldest row not committed at an active station, taken where the web is at or
beyond its zone start less the pitch and its successor is on the track or the run is DRAINING, or where this
was found earlier in the same step and a shift has since moved the point (log entry 34). The entry is
committed with the outcome of R82: the state's name outside TRACKING; SPLICE_RISK or SPLICE_CLEARED for a
SPLICE row; SKIPPED or STRUCK_UNSKIPPED for a SKIP row by the feasibility of R83; STRUCK or SACRIFICED for
a STAMP row by the clearance test of R84, the row before it the one just retired where it is not on the track
(log entry 7). The row leaves the risk set. A row struck is handed to the channels
that serve the station: each forms strokes from the spans of its images, those that meet made one, appends
them as far as its list has room, and begins the ramp up
to the first at once where it stands with nothing pending and its start point is reached; and the throw closes
where the close condition holds. At a row not struck the throw opens where the row before it was struck and
its zone end has been taken, on the track or just retired (log entry 7, the model's reading). Nothing else of
the track, the stations or the channels changes, and no mark, record or memory does (R80 to R82, R86, R90,
R91, R106, R108, R115, R116). -/
def Obligations.CommitDecidesTheOutcome : Prop :=
  (∀ (s : State) (c : Fin 8) (n : Word),
    (∀ (a b : Image) (i j : Nat), i < j → (s.chanImages c)[i]? = some a →
      (s.chanImages c)[j]? = some b → a.start + a.len ≤ b.start) →
    strokesFormed (s.channel c).params n (s.chanImages c) (s.formStrokes c n)) ∧
  ∀ (s : State) (st : Fin 4) (front back : List RowCtx) (r : RowCtx) (e : StationEntry),
    s.track = front ++ r :: back → (∀ q ∈ front ++ back, q.row ≠ r.row) →
    (∀ q ∈ front, q.committedAt st = true) → r.stations.get st = some e → e.committed = false →
    (s.station st).state ≠ .inactive →
    (e.commitOwed = true ∨ s.commitReached st e ∧ (back ≠ [] ∨ s.jobs.run = .draining)) →
    ∃ (t : State) (o : RowOutcome) (charges : Eight (Option ChannelEntry)),
      exec (.commitEvent st) s = .next t ∧ s.decides st r e o ∧
      t.track = front ++
        { r with stations := r.stations.set st (some { e with committed := true, outcome := some o })
                 channels := charges } :: back ∧
      (∀ c, handedOver s t st r.row e.face o c (r.channels.get c) (charges.get c)) ∧
      (t.attn = s.attn ∨ (o = .struck ∨ o = .struckUnskipped) ∧ t.attn = s.attn.raise .foilLate) ∧
      committedThrow s t st r.row o ∧
      (∀ k, k ≠ st → t.station k = s.station k) ∧
      t.wpu = s.wpu ∧ t.mark = s.mark ∧ t.cylGens = s.cylGens ∧ t.foilGens = s.foilGens ∧
      t.jobs = s.jobs ∧ sameMemory s t ∧ t.lastRetired = s.lastRetired ∧ sameOutside s t

/-- When a skip is feasible and when a STAMP row clears a SPLICE neighbour, in the distances of the manual at
the planning speed in force, for any row of the track, the first and the last among them. A skip is
feasible where the row before is not struck or not on the track, the row after is on it and SKIP or SPLICE,
or both are on it with at least the travel distance between them: so the last row's skip rests on its
predecessor alone. A row before a SPLICE row clears it where its zone ends at or behind the span start less
the open distance, and one after it where its zone starts at or beyond the span end plus the close
distance; a neighbour that is absent or no SPLICE row asks nothing. The neighbours of a row are those
beside it on the track (R83, R84, R98). That before the head of the track the clearance test takes the row
just retired, where its number is the one before, is the model's reading (log entry 7). -/
def Obligations.SkipAndSpliceDistances : Prop :=
  ∀ (s : State) (st : Fin 4) (front back : List RowCtx) (r : RowCtx) (e : StationEntry),
    s.track = front ++ r :: back →
    (∀ i j : Nat, i < j → j < s.track.length →
      (s.track.map RowCtx.row)[i]? ≠ (s.track.map RowCtx.row)[j]?) →
    r.stations.get st = some e →
    let b := s.block st
    let ticks (ms : Nat) : Int := ((s.wpu.v8p * ms + 7) / 8 : Nat)
    (s.skipFeasible st r.row = true ↔
      (∀ p x, front.getLast? = some p → p.stations.get st = some x → x.struck = false) ∨
        (∃ q, back.head? = some q ∧ (q.verdict = .skip ∨ q.verdict = .splice)) ∨
        ∃ p q x y, front.getLast? = some p ∧ back.head? = some q ∧
          p.stations.get st = some x ∧ q.stations.get st = some y ∧
          ticks (b.throwOn + b.throwOff) ≤ dist x.zoneEnd y.zoneStart) ∧
    (∀ before next : Option RowCtx, s.clearsSplices st e before next = true ↔
      (∀ q, next = some q → q.verdict = .splice →
        0 ≤ dist e.zoneEnd
          (moved (moved (moved q.lead b.distance) (-(b.guard : Int))) (-(ticks b.throwOff)))) ∧
      (∀ p, before = some p → p.verdict = .splice →
        0 ≤ dist (moved (moved (moved p.lead b.distance) ((s.pitch st : Int) + b.guard))
          (ticks b.throwOn)) e.zoneStart)) ∧
    s.after? r.row = back.head? ∧
    (front ≠ [] → s.previous? r.row = front.getLast?) ∧
    (front = [] → ∀ p, s.previous? r.row = some p ↔
      s.lastRetired = some p ∧ r.row = rowSucc p.row)

/-- The completion of a throw's travel: CLOSING becomes ON; OPENING becomes OFF, or CLOSING at once where
the close condition then holds, with the timer loaded with the throw-on time. The close condition asks that
the station is TRACKING, the run RUNNING or DRAINING, and the web at or beyond the close point of the oldest
strike still to end: its zone start less the distance covered in the throw-on time at the planning speed (R89,
R90). That nothing changes where no travel has run out is the model's choice (log entry 2). -/
def Obligations.ThrowTravelCompletes : Prop :=
  ∀ (s : State) (st : Fin 4),
    let x := s.station st
    let closes := x.state = .tracking ∧ (s.jobs.run = .running ∨ s.jobs.run = .draining) ∧
      ∃ front r back e, s.track = front ++ r :: back ∧
        (∀ q ∈ front, ∀ f, q.stations.get st = some f → f.struck = false ∨ f.endTaken = true) ∧
        r.stations.get st = some e ∧ e.struck = true ∧ e.endTaken = false ∧
        0 ≤ dist (moved (moved e.face e.zoneStartOff)
          (-(((s.wpu.v8p * (s.block st).throwOn + 7) / 8 : Nat) : Int))) s.web
    (x.timer = 0 → x.throw = .closing →
      exec (.throwTravelComplete st) s =
        .next { s with stations := s.stations.set st { x with throw := .on } }) ∧
    (x.timer = 0 → x.throw = .opening → closes →
      exec (.throwTravelComplete st) s =
        .next { s with
          stations := s.stations.set st { x with throw := .closing, timer := (s.block st).throwOn } }) ∧
    (x.timer = 0 → x.throw = .opening → ¬ closes →
      exec (.throwTravelComplete st) s =
        .next { s with stations := s.stations.set st { x with throw := .off } }) ∧
    (x.timer ≠ 0 ∨ x.throw = .off ∨ x.throw = .on → exec (.throwTravelComplete st) s = .next s)

/-- The lift event: a heated station TRACKING with its throw CLOSING or ON whose dwell count has reached the
dwell limit enters LIFTED, its throw opens, its dwell count is 0, STATION_LIFT is set, and every strike row
whose zone has not started there becomes LIFTED; rows whose zone has started keep their outcome. The
strokes of the rows so taken are withdrawn from the station's channels (R77, R92 to R94, R116, R128). -/
def Obligations.LiftEventLiftsTheCylinder : Prop :=
  ∀ (s : State) (st : Fin 4), (s.block st).heated = true → (s.station st).state = .tracking →
    ((s.station st).throw = .closing ∨ (s.station st).throw = .on) →
    s.job.dwellLimit ≤ (s.station st).dwell →
    ∃ t, exec (.liftEvent st) s = .next t ∧
      t.station st = { s.station st with state := .lifted, throw := .opening
                                         timer := (s.block st).throwOff, dwell := 0 } ∧
      (∀ k, k ≠ st → t.station k = s.station k) ∧ t.attn.has .stationLift = true ∧
      t.jobs = s.jobs ∧
      t.track.map (fun r => (r.row, r.stations.get st)) =
        s.track.map (fun r => (r.row, (r.stations.get st).map fun e =>
          if e.struck = true ∧ e.startTaken = false then { e with outcome := some .lifted } else e)) ∧
      withdrawn s t st ∧ t.wpu = s.wpu ∧ t.mark = s.mark ∧ t.cylGens = s.cylGens ∧ t.foilGens = s.foilGens ∧
      sameMemory s t ∧ t.lastRetired = s.lastRetired ∧ sameOutside s t

/-- A heat-loss event of a heated active station takes CATCHING, TRACKING and LIFTED to HEAT_WAIT with the
throw forced off, a throw CLOSING or ON to OPENING with its timer loaded with the throw-off time, and the dwell
count 0, and keeps the rest of the station, its die account with it; it leaves FAULTED and HEAT_WAIT; and in
every case it sets STATION_HEAT and hands it over. From TRACKING the unstarted strikes become HEAT_WAIT and
are withdrawn; from any other state the rows and the channels stay. A heat-ready event takes HEAT_WAIT to
CATCHING and changes nothing else in any other state. Of a station that is not heated or INACTIVE only the
accepted level changes (R67, R75, R77 to R79, R92, R128). -/
def Obligations.HeaterEvents : Prop :=
  ∀ (s : State) (st : Fin 4), 4 ≤ (s.station st).heaterRun →
    let accepted (level : Bool) : Station :=
      { s.station st with heaterLevel := level, heaterRun := 0 }
    let active := (s.block st).heated = true ∧ (s.station st).state ≠ .inactive
    ((s.station st).heaterLevel = true → active →
      ∃ t, exec (.heatLossEvent st) s = .next t ∧ t.attn.has .stationHeat = true ∧
        t.jobs = s.jobs.handStop .stationHeat ∧
        ((s.station st).state = .faulted ∨ (s.station st).state = .heatWait →
          t.station st = accepted false) ∧
        ((s.station st).state = .catching ∨ (s.station st).state = .tracking ∨
            (s.station st).state = .lifted →
          let on := (s.station st).throw = .closing ∨ (s.station st).throw = .on
          t.station st =
            { accepted false with
              state := .heatWait, dwell := 0
              throw := if on then .opening else (s.station st).throw
              timer := if on then (s.block st).throwOff else (s.station st).timer }) ∧
        ((s.station st).state ≠ .tracking → t.track = s.track ∧ t.channels = s.channels) ∧
        ((s.station st).state = .tracking →
          t.track.map (fun r => (r.row, r.stations.get st)) =
            s.track.map (fun r => (r.row, (r.stations.get st).map fun e =>
              if e.struck = true ∧ e.startTaken = false then { e with outcome := some .heatWait }
              else e)) ∧ withdrawn s t st) ∧
        (∀ k, k ≠ st → t.station k = s.station k) ∧ t.wpu = s.wpu ∧ t.mark = s.mark ∧
        t.cylGens = s.cylGens ∧ t.foilGens = s.foilGens ∧ sameMemory s t ∧ sameOutside s t) ∧
    ((s.station st).heaterLevel = true → ¬ active →
      exec (.heatLossEvent st) s =
        .next { s with stations := s.stations.set st (accepted false) }) ∧
    ((s.station st).heaterLevel = false → active → (s.station st).state = .heatWait →
      exec (.heatReadyEvent st) s =
        .next { s with stations :=
          s.stations.set st { accepted true with state := .catching, dwell := 0 } }) ∧
    ((s.station st).heaterLevel = false → ¬ (active ∧ (s.station st).state = .heatWait) →
      exec (.heatReadyEvent st) s =
        .next { s with stations := s.stations.set st (accepted true) })

/-- Index edges. An edge at a station INACTIVE or FAULTED, while the direction is REVERSE, or while the
cylinder owes steps is discarded. A first index sets the die base to the index position plus the index
offset, the drift remainder to 0 and the index-seen flag; each row whose zone has not started there is
placed anew on the boundary nearest its arrival, and each other row stays, where the web has reached none
of the new zones; no row is committed in that step, and a commit that the new boundaries make due is
latched and taken in a step of its own, oldest row first, the model's choice (log entry 34). A new zone start or
zone end that the first index brings to or behind the web, from beyond it, is taken in the same step, and none is
left due; the error and the trim of a row whose zone end it so takes alone are those of its new die face. An
index after it within the slip tolerance changes nothing; beyond it the station is FAULTED with CYLINDER_SLIP,
its throw forced off, a throw CLOSING or ON to OPENING with its timer loaded with the throw-off time, its die
account kept, and STATION_FAULT set and handed over; from TRACKING the strikes not started become
FAULTED and are withdrawn, and from any other state the rows and the channels stay. An accepted fall of the
index input changes its level alone (R54, R57 to R64, R77, R92, R128). -/
def Obligations.IndexEdgeSetsOrChecksTheDie : Prop :=
  ∀ (s : State) (st : Fin 4) (p : Pos), (s.station st).indexLevel = false →
    let x := moved p (s.block st).indexOffset
    let r : Int := ((s.plate st).faces * (s.plate st).pitch : Nat)
    let taken := (s.station st).state ≠ .inactive ∧ (s.station st).state ≠ .faulted ∧
      s.wpu.direction = .forward ∧ (s.gen (.cylinder st)).owed = 0
    (¬ taken →
      exec (.indexEdge st true p) s =
        .next { s with stations := s.stations.set st { s.station st with indexLevel := true } }) ∧
    (taken → (s.station st).indexSeen = false → s.track = [] →
      (∀ c, (s.channel c).strokes = []) → (∀ c, (s.channel c).plan = none) →
      (∀ c, (s.channel c).state ≠ .sync) →
      exec (.indexEdge st true p) s =
        .next { s with stations := (s.stations.set st
          { s.station st with indexLevel := true, base := x, drift := 0, indexSeen := true }) }) ∧
    (taken → (s.station st).indexSeen = false →
      let face (q : RowCtx) : Pos := nearest x (moved q.lead (s.block st).distance) (s.pitch st)
      (∀ q ∈ s.track, ∀ e, q.stations.get st = some e →
        (e.startDue = true → e.startTaken = true) ∧ (e.endDue = true → e.endTaken = true) ∧
        (e.startTaken = false → dist (moved (face q) e.zoneStartOff) s.web < 0 ∧
          dist (moved (face q) e.zoneEndOff) s.web < 0)) →
      ∃ t, exec (.indexEdge st true p) s = .next t ∧
        (0 < s.pitch st → ∀ q ∈ s.track,
          placedOn x (s.pitch st) (moved q.lead (s.block st).distance) (face q)) ∧
        t.track.map (fun q => (q.row, (q.stations.get st).map fun e => { e with commitOwed := false })) =
          s.track.map (fun q => (q.row, (q.stations.get st).map fun e =>
            { e with commitOwed := false, face := if e.startTaken = true then e.face else face q })) ∧
        (∀ (i : Nat) q q' e f, s.track[i]? = some q → t.track[i]? = some q' →
          q.stations.get st = some e → q'.stations.get st = some f →
          (f.commitOwed = true ↔ e.commitOwed = true ∨
            e.committed = false ∧ s.commitReached st f ∧
              (i + 1 < s.track.length ∨ s.jobs.run = .draining) ∧
              ∀ j p g, j + 1 = i → t.track[j]? = some p → p.stations.get st = some g →
                g.committed = true ∨ g.commitOwed = true)) ∧
        (let y := s.station st
          let closes := y.state = .tracking ∧ (s.jobs.run = .running ∨ s.jobs.run = .draining) ∧
            y.throw = .off ∧ t.closePointReached st = true
          t.station st =
            { y with indexLevel := true, base := x, drift := 0, indexSeen := true
                     throw := if closes then .closing else y.throw
                     timer := if closes then (s.block st).throwOn else y.timer }) ∧
        (∀ k, k ≠ st → t.station k = s.station k) ∧ t.jobs = s.jobs ∧ t.wpu = s.wpu ∧
        t.mark = s.mark ∧ t.cylGens = s.cylGens ∧ t.foilGens = s.foilGens ∧ sameMemory s t ∧
        t.lastRetired = s.lastRetired ∧ sameOutside s t) ∧
    -- the zones a first index brings to the web
    (taken → (s.station st).indexSeen = false → s.trackOk →
      let face (q : RowCtx) : Pos := nearest x (moved q.lead (s.block st).distance) (s.pitch st)
      ∃ t, exec (.indexEdge st true p) s = .next t ∧ (t.station st).indexSeen = true ∧
        t.track.map RowCtx.row = s.track.map RowCtx.row ∧
        (∀ q ∈ t.track, ∀ f, q.stations.get st = some f →
          (f.startDue = true → f.startTaken = true) ∧ (f.endDue = true → f.endTaken = true)) ∧
        ∀ q ∈ s.track, ∀ e, q.stations.get st = some e → e.startTaken = false →
          let ended := dist e.zoneEnd s.web < 0 ∧ 0 ≤ dist (moved (face q) e.zoneEndOff) s.web
          ∃ f, t.entry? st q.row = some f ∧
            (dist e.zoneStart s.web < 0 → 0 ≤ dist (moved (face q) e.zoneStartOff) s.web →
              f.startTaken = true) ∧
            (ended → f.endTaken = true) ∧
            (ended → e.endTaken = false → zonesTakenAlone s t st q.row →
              f.face = face q ∧
                f.error = (s.setStation st { s.station st with indexSeen := true }).measure st q
                  { e with face := face q } ∧
                f.trim = s.decideTrim st q f.error)) ∧
    (taken → (s.station st).indexSeen = true → 0 < r →
      ∃ d : Int, -r < 2 * d ∧ 2 * d ≤ r ∧ (∃ k : Int, (x - (s.station st).base).toInt = d + k * r) ∧
        (d.natAbs ≤ (s.block st).slipTol →
          exec (.indexEdge st true p) s =
            .next { s with stations := s.stations.set st { s.station st with indexLevel := true } }) ∧
        ((s.block st).slipTol < d.natAbs →
          let on := (s.station st).throw = .closing ∨ (s.station st).throw = .on
          ∃ t, exec (.indexEdge st true p) s = .next t ∧
            t.station st =
              { s.station st with
                indexLevel := true, state := .faulted, fault := true, dwell := 0
                throw := if on then .opening else (s.station st).throw
                timer := if on then (s.block st).throwOff else (s.station st).timer } ∧
            t.attn.has .stationFault = true ∧ t.jobs = s.jobs.handStop .stationFault ∧
            ((s.station st).state = .tracking →
              t.track.map (fun q => (q.row, q.stations.get st)) =
                s.track.map (fun q => (q.row, (q.stations.get st).map fun e =>
                  if e.struck = true ∧ e.startTaken = false then { e with outcome := some .faulted }
                  else e)) ∧ withdrawn s t st) ∧
            ((s.station st).state ≠ .tracking → t.track = s.track ∧ t.channels = s.channels) ∧
            (∀ k, k ≠ st → t.station k = s.station k) ∧ t.wpu = s.wpu ∧ t.mark = s.mark ∧
            t.cylGens = s.cylGens ∧ t.foilGens = s.foilGens ∧ sameMemory s t ∧ sameOutside s t)) ∧
    ∀ u : State, (u.station st).indexLevel = true →
      exec (.indexEdge st false p) u =
        .next { u with stations := u.stations.set st { u.station st with indexLevel := false } }

/-- The registration error at a zone end is the distance from the label's arrival to the nearest die face
boundary, in (−pitch/2, pitch/2]; it is absent where the index has not been seen or the station is FAULTED;
and the trim is the error limited to the catch step in CATCHING, to the trim step beyond the dead band in
TRACKING, and 0 in every other state and for a MISSING row (R63, R64). A source amount joins the drift
remainder, which stays below 65,536 × S, and moves the base by a tick for each time it passes it (R56). A
shift moves the base and closes a throw whose close point it reaches (R62, R90). The zone-start event
commits a row still uncommitted, its successor counting for nothing where it is not on the track (R81), and
makes STRUCK and STRUCK_UNSKIPPED into STRUCK_LATE where the throw is not ON (R87). The zone-end event
writes error and trim, delivers the trim, moves the base and the later rows by its opposite where it
carries no drift shift, and makes the catch band check; a station that this takes from TRACKING renames the
strikes not started CATCHING and withdraws them (R65, R66, R77, R88). It opens the throw of a strike whose
successor is committed to no strike, or that is the last row of a DRAINING run (R91). At a count that moves
the web every zone start and zone end it brings the web to is taken, and none is left due (R5, R80), and a row
whose zone end it so takes alone has its error and trim as above, on its face after the count's drift shift; that
what the count brings the web to is told by the positions before that shift is the model's
choice (log entry 6), and so is that a zone event which the trim's shift makes due waits for the band check and the
opening rule (log entry 29). Where an overdue commit asks about the row before, it may be the row just retired, the
model's reading (log entry 7). -/
def Obligations.ErrorAndTrimAtAZoneEnd : Prop :=
  -- the error and the trim
  (∀ (s : State) (st : Fin 4) (r : RowCtx) (e : StationEntry), 0 < s.pitch st →
    let b := s.block st
    let arrival := moved r.lead b.distance
    ((s.station st).indexSeen = false ∨ (s.station st).state = .faulted →
      s.measure st r e = none ∧ s.decideTrim st r (s.measure st r e) = 0) ∧
    ((s.station st).indexSeen = true → (s.station st).state ≠ .faulted →
      ∃ d : Int, s.measure st r e = some d ∧ -(s.pitch st : Int) < 2 * d ∧ 2 * d ≤ s.pitch st ∧
        (∃ k : Int, (e.face - arrival).toInt = d + k * s.pitch st) ∧
        let t := s.decideTrim st r (some d)
        (r.status = .missing → t = 0) ∧
        (r.status ≠ .missing → (s.station st).state = .tracking →
          (d.natAbs ≤ b.deadBand → t = 0) ∧
          (b.deadBand < d.natAbs → d.natAbs ≤ b.trimStep → t = d) ∧
          (b.deadBand < d.natAbs → b.trimStep < d.natAbs →
            t = if 0 < d then (b.trimStep : Int) else -(b.trimStep : Int))) ∧
        (r.status ≠ .missing → (s.station st).state = .catching →
          (d.natAbs ≤ b.catchStep → t = d) ∧
          (b.catchStep < d.natAbs → t = if 0 < d then (b.catchStep : Int) else -(b.catchStep : Int))) ∧
        ((s.station st).state = .heatWait ∨ (s.station st).state = .lifted → t = 0))) ∧
  -- the drift remainder
  (∀ (s : State) (st : Fin 4) (amount : Int), 0 < (s.block st).steps →
    let m : Int := 65536 * ((s.block st).steps : Int)
    let total := (s.station st).drift + amount * (s.station st).rho
    let y := (s.drift st amount).station st
    ∃ k : Int, total = y.drift + k * m ∧ y.drift.natAbs < m.natAbs ∧ 0 ≤ total * y.drift ∧
      y.base = moved (s.station st).base k) ∧
  -- a shift and the throw
  (∀ (s : State) (st : Fin 4) (k : Int),
    let x := s.station st
    let t := s.shift st k
    let closes := x.state = .tracking ∧ (s.jobs.run = .running ∨ s.jobs.run = .draining) ∧
      x.throw = .off ∧ t.closePointReached st = true
    t.station st =
      { x with base := moved x.base k
               throw := if closes then .closing else x.throw
               timer := if closes then (s.block st).throwOn else x.timer }) ∧
  -- the zone events of one row
  (∀ (s : State) (st : Fin 4) (front back : List RowCtx) (r : RowCtx) (e : StationEntry),
    s.track = front ++ r :: back → (∀ q ∈ front ++ back, q.row ≠ r.row) →
    r.stations.get st = some e →
    (e.committed = true →
      let late := (s.station st).throw ≠ .on ∧
        (e.outcome = some .struck ∨ e.outcome = some .struckUnskipped)
      let f := { e with startTaken := true, outcome := if late then some .struckLate else e.outcome }
      s.zoneStartEvent st r.row =
        { s with track := front ++ { r with stations := r.stations.set st (some f) } :: back }) ∧
    (e.committed = false → ∃ (o : RowOutcome) (charges : Eight (Option ChannelEntry)),
      let t := s.zoneStartEvent st r.row
      let late := (s.station st).throw ≠ .on ∧ (o = .struck ∨ o = .struckUnskipped)
      let f := { e with startTaken := true, committed := true
                        outcome := some (if late then .struckLate else o) }
      s.decides st r e o ∧
      t.track =
        front ++ { r with stations := r.stations.set st (some f), channels := charges } :: back ∧
      (∀ c, handedOver s t st r.row e.face o c (r.channels.get c) (charges.get c)) ∧
      (t.attn = s.attn ∨ (o = .struck ∨ o = .struckUnskipped) ∧ t.attn = s.attn.raise .foilLate) ∧
      committedThrow s t st r.row o ∧ (∀ k, k ≠ st → t.station k = s.station k) ∧
      t.wpu = s.wpu ∧ t.mark = s.mark ∧ t.cylGens = s.cylGens ∧ t.foilGens = s.foilGens ∧
      t.jobs = s.jobs ∧ sameMemory s t ∧ t.lastRetired = s.lastRetired ∧ sameOutside s t) ∧
    (let error := s.measure st r e
      let trim := s.decideTrim st r error
      let x := s.station st
      let t := s.zoneEndEvent st r.row
      let y := t.station st
      let near := ∃ d, error = some d ∧ d.natAbs ≤ (s.block st).catchBand
      let far := ∃ d, error = some d ∧ 2 * (s.block st).catchBand < d.natAbs
      let leaves := r.status ≠ .missing ∧ x.state = .tracking ∧ far
      let opens := e.struck = true ∧
        ((∃ q g, back.head? = some q ∧ q.stations.get st = some g ∧ g.committed = true ∧
            g.struck = false) ∨
          s.jobs.run = .draining ∧ r.row = s.mark.lastOpened)
      let outcomes (u : State) (f : StationEntry → Option RowOutcome) :=
        u.track.map fun q => (q.row, (q.stations.get st).map f)
      ((t.entry? st r.row).map fun f => (f.error, f.trim, f.endTaken, f.face)) =
        some (error, trim, true, e.face) ∧
      y.lastError = (if error = none then x.lastError else error) ∧
      y.trimTotal = x.trimTotal + BitVec.ofInt 32 trim ∧
      t.cylGens.get st =
        { s.cylGens.get st with
          acc := (s.cylGens.get st).acc +
            BitVec.ofInt 48 (trim * ((s.cylGens.get st).ratio : Int)) } ∧
      ((x.drift + trim * x.rho).natAbs < 65536 * (s.block st).steps →
        y.drift = x.drift + trim * x.rho ∧ y.base = moved x.base (-trim) ∧
        ∀ q ∈ front ++ back, ∀ f, q.stations.get st = some f →
          ∃ g ∈ t.track, g.row = q.row ∧ (g.stations.get st).map StationEntry.face =
            some (if f.endTaken = true then f.face else moved f.face (-trim))) ∧
      (r.status ≠ .missing → x.state = .catching → near →
        y.state = .tracking ∧ t.attn.has .regCaught = true) ∧
      (leaves →
        y.state = .catching ∧ t.attn.has .regDrift = true ∧ y.throw ≠ .closing ∧ y.throw ≠ .on ∧
        outcomes t StationEntry.outcome = outcomes s (fun f =>
          if f.struck = true ∧ f.startTaken = false then some .catching else f.outcome) ∧
        withdrawn ((s.writeRegistration st r.row error trim).applyTrim st trim) t st) ∧
      (¬ leaves → outcomes t StationEntry.outcome = outcomes s StationEntry.outcome) ∧
      (r.status = .missing ∨ ¬ (x.state = .catching ∧ near ∨ x.state = .tracking ∧ far) →
        y.state = x.state) ∧
      (x.throw = .closing ∨ x.throw = .on →
        (opens ∨ leaves → y.throw = .opening ∧ y.timer = (s.block st).throwOff) ∧
        (¬ opens → ¬ leaves → y.throw = x.throw ∧ y.timer = x.timer)) ∧
      (x.throw = .opening ∨ x.throw = .off ∧ trim = 0 → y.throw = x.throw ∧ y.timer = x.timer))) ∧
  -- the zone events of a count
  ∀ (s t : State) (a b : Bool), s.trackOk → exec (.encoderCount a b) s = .next t → t.web ≠ s.web →
    t.jobs.run ≠ .held ∨ s.jobs.run = .held →
    ∀ st, (s.station st).state ≠ .inactive →
      (∀ r ∈ t.track, ∀ f, r.stations.get st = some f →
        (f.startDue = true → f.startTaken = true) ∧ (f.endDue = true → f.endTaken = true)) ∧
      ∀ r ∈ s.track, ∀ e, r.stations.get st = some e →
        ∃ f, t.entry? st r.row = some f ∧
          (dist e.zoneStart s.web < 0 → 0 ≤ dist e.zoneStart t.web → f.startTaken = true) ∧
          (dist e.zoneEnd s.web < 0 → 0 ≤ dist e.zoneEnd t.web → f.endTaken = true) ∧
          -- the registration of a row whose zone end alone it comes to
          (dist e.zoneEnd s.web < 0 → 0 ≤ dist e.zoneEnd t.web → e.endTaken = false →
            zonesTakenAlone s t st r.row →
            let shifts := ((s.station st).drift + dist s.web t.web * (s.station st).rho).tdiv
              (65536 * ((s.block st).steps : Int))
            f.face = moved e.face shifts ∧ f.error = s.measure st r { e with face := f.face } ∧
              f.trim = s.decideTrim st r f.error)

/-- REARM_STATION of a FAULTED station clears the fault and the index-seen flag and puts it in CATCHING, or
in HEAT_WAIT where it is heated and its heater is not ready, and completes OK; an argument above 3
completes BAD_ARG and a station not FAULTED BAD_STATE (R69). -/
def Obligations.RearmStationPutsItBack : Prop :=
  ∀ (arg : BitVec 16) (s : State), s.engine.executing = none →
    (3 < arg.toNat →
      exec (.rearmStation arg) s =
        .next { s with engine := s.engine.done 0x06 arg .badArg, attn := s.attn.raise .cmdDone }) ∧
    ∀ st : Fin 4, arg.toNat = st →
      ((s.station st).state ≠ .faulted →
        exec (.rearmStation arg) s =
          .next { s with engine := s.engine.done 0x06 arg .badState
                         attn := s.attn.raise .cmdDone }) ∧
      ((s.station st).state = .faulted →
        exec (.rearmStation arg) s =
          .next { s with
            engine := s.engine.done 0x06 arg .ok, attn := s.attn.raise .cmdDone
            stations := s.stations.set st
              { s.station st with
                fault := false, indexSeen := false, dwell := 0
                state := if (s.block st).heated = true ∧ (s.station st).heaterLevel = false
                  then .heatWait else .catching } })

/-! ## The foil channels -/

/-- REFILL_FOIL sets the channel's remaining to the refill length of the host page, sets the low-armed flag
and clears the out flag, in every run state and of every channel, and completes OK; an argument above 7 or
a length of 0 completes BAD_ARG and changes nothing (R127). -/
def Obligations.RefillFoilDeclaresTheRoll : Prop :=
  ∀ (arg : BitVec 16) (s : State), s.engine.executing = none →
    (7 < arg.toNat ∨ s.mem.nat 4 0x108 = 0 →
      exec (.refillFoil arg) s =
        .next { s with engine := s.engine.done 0x07 arg .badArg, attn := s.attn.raise .cmdDone }) ∧
    ∀ c : Fin 8, arg.toNat = c → s.mem.nat 4 0x108 ≠ 0 →
      exec (.refillFoil arg) s =
        .next { s with
          engine := s.engine.done 0x07 arg .ok, attn := s.attn.raise .cmdDone
          channels := s.channels.set c
            { s.channel c with remaining := s.mem.nat 4 0x108, lowArmed := true, out := false } }

/-- A ramp length is even and from 2 to 262,142, not below the minimum ramp, and unless it is at the limit long
enough for the acceleration limit. The increments of a ramp up of even length L each lie from 0 to 65,536,
add up to exactly L / 2 ticks, and those of the ramp down are the same in reverse order (R112 to R114). At
a count that moves the web a channel moves the foil by these increments, one for each tick the high-water
position advances. Until the last of them it stays in its ramp; after it a ramp up ends in SYNC in the
current stroke, or in a ramp down where the stroke's end is reached and none is pending, and a ramp down
ends in STANDING, which takes the ramp up that waits, late where its start point is passed. A STANDING
channel whose start point lies ahead waits for it and ramps up from the tick that reaches it, with the
plan's length or one computed afresh (R110, R111, R113 to R117, R121, R122). The ends are stated where
nothing else of the count acts on the channel; that the channels advance before the stations and the mark
unit act is the model's choice (log entry 4). -/
def Obligations.RampsTravelExactly : Prop :=
  (∀ (v8p : Nat) (p : FoilParams), 1 ≤ p.accel → 2 ≤ p.minRamp → p.minRamp ≤ 20000 →
    p.minRamp % 2 = 0 →
    let len := rampLength v8p p
    len % 2 = 0 ∧ 2 ≤ len ∧ len ≤ 262142 ∧ p.minRamp ≤ len ∧
      (v8p * v8p ≤ 64 * p.accel * len ∨ len = 262142) ∧
      (len = p.minRamp ∨ 64 * p.accel * (len - 2) < v8p * v8p)) ∧
  (∀ half : Nat, 1 ≤ half →
    let len := 2 * half
    (∀ k, 1 ≤ k → k ≤ len →
      rampUpIncrement len k ≤ 65536 ∧ rampDownIncrement len k = rampUpIncrement len (len + 1 - k)) ∧
    ((List.range len).map fun k => rampUpIncrement len (k + 1)).sum = half * 65536 ∧
    ((List.range len).map fun k => rampDownIncrement len (k + 1)).sum = half * 65536) ∧
  ∀ (s t : State) (a b : Bool) (c : Fin 8), exec (.encoderCount a b) s = .next t →
    (s.channel c).fraction < 65536 →
    let x := s.channel c
    let y := t.channel c
    let h := s.wpu.highWater
    let n := (dist h t.wpu.highWater).toNat
    let len := x.rampLen
    let k := x.rampProgress
    let ends := 0 < n ∧ k < len ∧ len ≤ k + n
    let quiet := undisturbed s t c
    ∃ ticks : Nat,
      t.gen (.foil c) =
        { s.gen (.foil c) with
          acc := (s.gen (.foil c)).acc + BitVec.ofNat 48 (ticks * (s.gen (.foil c)).ratio) } ∧
      y.foilTicks = x.foilTicks + ticks ∧
      let moves (amount : Nat) : Prop := 65536 * ticks + y.fraction = x.fraction + amount
      -- in a ramp
      (x.state = .rampUp → k + n ≤ len → moves (travel len (k + n) - travel len k)) ∧
      (x.state = .rampDown → k + n ≤ len → moves (travel len (len - k) - travel len (len - k - n))) ∧
      (x.state = .rampUp ∨ x.state = .rampDown → k + n < len →
        t.jobs.run ≠ .held ∨ s.jobs.run = .held →
        y.state = x.state ∧ y.rampLen = len ∧ y.rampProgress = k + n ∧ y.current = x.current) ∧
      -- the end of a ramp up
      (∀ q f, x.state = .rampUp → ends → x.current = some q → s.chanFace c q.row = some f →
        let beyond (p : Pos) : Int := dist (moved f q.endOff) p
        (-(2 ^ 30) ≤ beyond h → beyond h < 0 → beyond t.wpu.highWater < 0 →
          moves (travel len len - travel len k + 65536 * (k + n - len)) ∧
          (quiet → y.state = .sync ∧ y.current = some q ∧ y.strokes = x.strokes ∧ y.rampLen = 0 ∧
            y.rampProgress = 0)) ∧
        (0 ≤ beyond t.wpu.highWater → k + n = len → x.strokes = [] → quiet →
          y.state = .rampDown ∧ y.current = some q ∧ y.strokes = [] ∧ y.plan = none ∧
            y.rampLen = rampLength s.wpu.v8p x.params ∧ y.rampProgress = 0)) ∧
      -- the end of a ramp down
      (x.state = .rampDown → ends →
        let stood : Channel := { x with state := .standing, current := none, rampLen := 0
                                        rampProgress := 0 }
        (k + n = len → quiet → rampTaken s t c stood) ∧
        (x.plan = none → x.strokes = [] →
          moves (travel len (len - k)) ∧ (quiet → y.motion = stood.motion))) ∧
      -- from standing
      ∀ q l f, x.state = .standing → x.watches s.wpu.v8p q l → s.chanFace c q.row = some f →
        let d := dist h (moved (moved f q.startOff) (-(l : Int)))
        0 < d →
        (n < d → moves 0 ∧ (quiet → y.motion = x.motion)) ∧
        (d ≤ n → n < d + l → moves (travel l (n - d.toNat)) ∧
          (quiet → y.motion = (x.ramping q l (n - d.toNat)).motion ∧
            t.track.map (fun r => (r.row, (r.channels.get c).map ChannelEntry.late)) =
              s.track.map fun r => (r.row, (r.channels.get c).map ChannelEntry.late)))

/-- A foil tick of a channel is delivered to its generator as +1, counts 1 in run foil used to the limit of its
field, takes 1 from remaining unless it is 0, sets FOIL_LOW once where remaining comes to the threshold
with the low-armed flag set, and sets the out flag, FOIL_OUT and the stop request where it leaves remaining
at 0 with the out flag clear. It is charged to the row of the current stroke in RAMP_UP, RAMP_DOWN and
SYNC, in SYNC to the row merged out of while there is one, and to no row where no stroke is current, as
after a hold. At a count that moves the web each channel has at most one foil tick for each tick the
high-water position advances: one for each of them in SYNC short of its stroke's end, and none in IDLE or
in STANDING with nothing pending; the ramps are in RampsTravelExactly (R16, R110, R111, R123 to R126,
R154). That the stroke's end and the pending strokes are those before the step, since the channels advance
before the count's shifts and overdue commits, is the model's choice (log entry 4). -/
def Obligations.FoilTickIsAccountedFor : Prop :=
  (∀ (s : State) (c : Fin 8),
    let x := s.channel c
    let t := s.foilTick c
    let low := 0 < x.params.threshold ∧ x.remaining - 1 ≤ x.params.threshold ∧ x.lowArmed = true
    let runsOut := x.remaining ≤ 1 ∧ x.out = false
    t.gen (.foil c) =
        { s.gen (.foil c) with
          acc := (s.gen (.foil c)).acc + BitVec.ofNat 48 (s.gen (.foil c)).ratio } ∧
      (t.channel c).runUsed = min 4294967295 (x.runUsed + 1) ∧
      (t.channel c).remaining = x.remaining - 1 ∧
      ((t.channel c).lowArmed = true ↔ x.lowArmed = true ∧ ¬ low) ∧
      ((t.channel c).out = true ↔ x.out = true ∨ runsOut) ∧
      (low → t.attn.has .foilLow = true) ∧
      (runsOut → t.attn.has .foilOut = true ∧ t.jobs.hasStop .foilOut = true ∧
        t.jobs.stopRequest = true) ∧
      (¬ runsOut → t.jobs = s.jobs) ∧ (¬ low → ¬ runsOut → t.attn = s.attn) ∧
      (t.channel c).state = x.state ∧ (t.channel c).strokes = x.strokes ∧
      (t.channel c).current = x.current ∧ (t.channel c).plan = x.plan ∧
      (∀ k, k ≠ c → t.channel k = s.channel k) ∧ (∀ k, k ≠ .foil c → t.gen k = s.gen k) ∧
      (let charged (k : Stroke) := x.state = .sync ∧ x.mergingFrom = some k ∨
          x.current = some k ∧ (x.state = .rampUp ∨ x.state = .rampDown ∨
            x.state = .sync ∧ x.mergingFrom = none)
        let charges (u : State) (f : RowCtx → ChannelEntry → ChannelEntry) :=
          u.track.map fun r => (r.row, (r.channels.get c).map (f r))
        (∀ k, charged k → charges t (fun _ e => e) = charges s (fun r e =>
          if r.row = k.row then { e with foilUsed := e.foilUsed + 1 } else e)) ∧
        ((∀ k, ¬ charged k) → charges t (fun _ e => e) = charges s fun _ e => e)) ∧
      t.wpu = s.wpu ∧ t.stations = s.stations ∧ sameMemory s t ∧ sameOutside s t) ∧
  ∀ (s t : State) (a b : Bool) (c : Fin 8), exec (.encoderCount a b) s = .next t →
    let x := s.channel c
    let n := (dist s.wpu.highWater t.wpu.highWater).toNat
    ∃ ticks, ticks ≤ n ∧
      t.gen (.foil c) =
        { s.gen (.foil c) with
          acc := (s.gen (.foil c)).acc + BitVec.ofNat 48 (ticks * (s.gen (.foil c)).ratio) } ∧
      (t.channel c).remaining = x.remaining - ticks ∧
      (ticks = 0 → (t.channel c).runUsed = x.runUsed) ∧
      (0 < ticks → (t.channel c).runUsed = min 4294967295 (x.runUsed + ticks)) ∧
      (x.state = .idle ∨
          x.state = .standing ∧ x.strokes = [] ∧ x.plan = none ∧ x.fraction < 65536 → ticks = 0) ∧
      (∀ k f, x.state = .sync → x.current = some k → s.chanFace c k.row = some f →
        -(2 ^ 30) ≤ dist (moved f k.endOff) s.wpu.highWater →
        dist (moved f k.endOff) s.wpu.highWater < 0 →
        dist (moved f k.endOff) t.wpu.highWater < 0 → ticks = n)

/-- At the end of stroke x with the list's head y: where the gap is at least twice the ramp plus the
minimum dwell the channel hops, ramping down with a ramp up planned to y and one more hop counted;
otherwise it merges, staying in SYNC with y current and taken from the list and one more merge counted. With
an empty list it ramps down. A count whose advance of the high-water position comes to the end of the current
stroke of a channel in SYNC leaves the channel and the row's counts so, with the ticks beyond the end spent in
the ramp down, where nothing else of the count acts on the channel and its ticks reach no further end (R110,
R111, R118 to R120). That a merge is marked as out of x only where the gap is positive and y's sync start lies
ahead of h is the model's reading (log entry 10); that the channels advance before the stations and the mark
unit act is its choice (log entry 4). -/
def Obligations.StrokeEndHopsOrMerges : Prop :=
  (∀ (s : State) (c : Fin 8) (h fx fy : Pos) (x : Stroke), s.chanFace c x.row = some fx →
    let ch := s.channel c
    let len := rampLength s.wpu.v8p ch.params
    let t := s.strokeEnd c h x
    (ch.strokes = [] →
      t.channel c = { ch with state := .rampDown, rampLen := len, rampProgress := 0, plan := none
                              mergingFrom := none }) ∧
    ∀ y ys, ch.strokes = y :: ys → s.chanFace c y.row = some fy →
      let gap : Int := (moved fy y.startOff - moved fx x.endOff).toInt
      (((2 * len + ch.params.dmin : Nat) : Int) ≤ gap →
        t.channel c = { ch with state := .rampDown, rampLen := len, rampProgress := 0
                                plan := some { stroke := y, len := len }, mergingFrom := none } ∧
        t.track.map (fun r => (r.row, r.channels.get c)) =
          s.track.map (fun r => (r.row, (r.channels.get c).map fun e =>
            if r.row = x.row then { e with hops := min 255 (e.hops + 1) } else e))) ∧
      (gap < ((2 * len + ch.params.dmin : Nat) : Int) →
        t.channel c = { ch with
          strokes := ys, current := some y
          mergingFrom := if 0 < gap ∧ (h - moved fy y.startOff).toInt < 0 then some x else none } ∧
        t.track.map (fun r => (r.row, r.channels.get c)) =
          s.track.map (fun r => (r.row, (r.channels.get c).map fun e =>
            if r.row = x.row then { e with merges := min 255 (e.merges + 1) } else e)))) ∧
  -- a count that comes to the stroke's end
  ∀ (s t : State) (a b : Bool) (c : Fin 8) (fx : Pos) (x : Stroke),
    exec (.encoderCount a b) s = .next t → (s.channel c).state = .sync →
    (s.channel c).current = some x → s.chanFace c x.row = some fx → undisturbed s t c →
    let ch := s.channel c
    let len := rampLength s.wpu.v8p ch.params
    let n := (dist s.wpu.highWater t.wpu.highWater).toNat
    let m := (dist s.wpu.highWater (moved fx x.endOff)).toNat
    let down (plan : Option Plan) : Channel :=
      { ch with state := .rampDown, rampLen := len, rampProgress := n - m, plan := plan
                mergingFrom := none }
    let counts (hop merge : Nat) : Prop :=
      t.track.map (fun r => (r.row, (r.channels.get c).map fun e => (e.hops, e.merges))) =
        s.track.map fun r => (r.row, (r.channels.get c).map fun e =>
          if r.row = x.row then
            (if hop = 0 then e.hops else min 255 (e.hops + hop),
              if merge = 0 then e.merges else min 255 (e.merges + merge))
          else (e.hops, e.merges))
    0 < m → m ≤ 2 ^ 30 → m ≤ n →
    (ch.strokes = [] → n - m < len → (t.channel c).motion = (down none).motion ∧ counts 0 0) ∧
    ∀ y ys fy, ch.strokes = y :: ys → s.chanFace c y.row = some fy →
      let gap : Int := (moved fy y.startOff - moved fx x.endOff).toInt
      let past (o : Int) (h : Pos) : Int := dist (moved fy o) h
      (((2 * len + ch.params.dmin : Nat) : Int) ≤ gap → n - m < len →
        (t.channel c).motion = (down (some { stroke := y, len := len })).motion ∧ counts 1 0) ∧
      (gap < ((2 * len + ch.params.dmin : Nat) : Int) →
        -(2 ^ 30) ≤ past y.startOff s.wpu.highWater → past y.startOff s.wpu.highWater ≤ 2 ^ 30 →
        -(2 ^ 30) ≤ past y.endOff s.wpu.highWater → past y.endOff s.wpu.highWater < 0 →
        past y.endOff t.wpu.highWater < 0 →
        (t.channel c).motion =
          { ch with strokes := ys, current := some y
                    mergingFrom := if 0 < gap ∧ past y.startOff t.wpu.highWater < 0 then some x
                      else none }.motion ∧ counts 0 1)

/-! ## Records -/

/-- The head row is ready where its zone end at every active station is behind the web and no channel holds it.
Its retirement writes its record whole to its slot, every field at its place and with its code, sets records
written through to its number, moves oldest intact where the strip has filled, and takes the row from the
track. The word of the live page for written through shows its number, the word for oldest intact shows the new
one where it moves and stays as it was where it does not, and no other byte outside the slot changes. A run DRAINING
whose track this empties enters IDLE, with every station and channel at rest. It sets RECORD_LAPPED at a lap, TALLY
at a tally and RUN_IDLE at that entry, and no other cause; where none of the three falls, the attention logic stays
as it was (R34, R35, R109, R147, R175, R187 to R190, R192, R193, R195, R205). That the late bit is clear of a row that used no foil and was neither struck nor given
up at a hold is the model's reading (log entry 35), and that a step of retirement whose head is not ready
changes nothing is its choice (log entry 2). -/
def Obligations.RetirementWritesTheRecord : Prop :=
  ∀ (s : State) (r : RowCtx) (rest : List RowCtx), s.track = r :: rest →
    let slot := 0x4000 + 128 * (r.row.toNat % 128)
    let ready := (∀ st e, (s.station st).state ≠ .inactive → r.stations.get st = some e →
        dist s.web (moved e.face e.zoneEndOff) < 0) ∧
      ∀ c (k : Stroke), (k ∈ (s.channel c).strokes ∨ (s.channel c).current = some k ∨
        (s.channel c).mergingFrom = some k) → k.row ≠ r.row
    let ends := s.jobs.run = .draining ∧ rest = []
    (¬ ready → exec .retirementEvent s = .next s) ∧
    (ready →
      ∃ t, exec .retirementEvent s = .next t ∧ t.track = rest ∧ s.recordShown t.mem r ∧
        (∀ x, slot ≤ x → x < slot + 128 →
          t.mem.read x = (s.recordBytes r r.row.toNat).getD (x - slot) 0) ∧
        (∀ x, x < 0x18 ∨ 0x20 ≤ x ∧ x < slot ∨ slot + 128 ≤ x → t.mem.read x = s.mem.read x) ∧
        t.records.writtenThrough = r.row ∧ t.mem.word 0x18 = r.row ∧
        t.records.oldestIntact =
          (if 0 < (r.row - 127 - s.records.oldestIntact).toInt then r.row - 127
            else s.records.oldestIntact) ∧
        t.mem.word 0x1C =
          (if 0 < (r.row - 127 - s.records.oldestIntact).toInt then r.row - 127
            else s.mem.word 0x1C) ∧
        causesSet s t (fun k => k = .recordLapped ∧ s.lapped r.row ∨ k = .tally ∧ s.tallied r.row ∨
          k = .runIdle ∧ ends) ∧
        (¬ s.lapped r.row → ¬ s.tallied r.row → ¬ ends → t.attn = s.attn) ∧
        (ends → t.jobs = { s.jobs with run := .idle, holdCause := .none } ∧ idleEntered s t) ∧
        (¬ ends →
          t.jobs = s.jobs ∧ t.wpu = s.wpu ∧ t.mark = s.mark ∧ t.stations = s.stations ∧
            t.channels = s.channels ∧ t.cylGens = s.cylGens ∧ t.foilGens = s.foilGens) ∧
        sameOutside s t)

/-! ## Facts that every step keeps -/

/-- The state after reset meets every fact that the statements below say each step keeps. That its plate
store is sixteen BLANK slots in which nothing has been saved is the model's choice (log entry 19). -/
def Obligations.ResetMeetsTheInvariants : Prop :=
  State.reset.storageOk ∧ State.reset.platesOk ∧ State.reset.trackOk ∧ State.reset.runOk ∧
    State.reset.throwsOk ∧ State.reset.splicesOk ∧ State.reset.engineOk ∧ State.reset.cycleOk ∧
    State.reset.channelsOk ∧ State.reset.jobsOk

/-- Every step keeps exchange memory and every plate record in canonical form and within their sizes. -/
def Obligations.StorageStaysCanonical : Prop :=
  ∀ s t : State, s.storageOk → step s = .next t → t.storageOk

/-- Every step keeps every VALID slot holding a record that passes its CRC; and every step that finds no
stored byte decayed keeps every VALID slot, and every slot with its marker set, holding a record that is well
formed as well (R158, R161, R164, R166, R167). -/
def Obligations.ValidPlatesStayWellFormed : Prop :=
  ∀ s t : State, s.storageOk → step s = .next t →
    (s.crcOk → t.crcOk) ∧
    ((∀ decayed, s.pending.head? = some (.powerOnReset decayed) → decayed = []) →
      s.platesOk → t.platesOk)

/-- Every step keeps the row track within its 32 rows, numbered consecutively, with no row numbered 0
(R27, R32). -/
def Obligations.TrackStaysConsecutive : Prop :=
  ∀ s t : State, s.trackOk → step s = .next t → t.trackOk

/-- Every step keeps what IDLE, ARMED and HELD mean for the stations, the channels, the track and the hold
cause, and keeps every throw that is CLOSING or ON at a TRACKING station of a RUNNING or DRAINING run
(R32, R92, R99, R105, R147 to R151). -/
def Obligations.RunStatesStayQuiet : Prop :=
  ∀ s t : State, s.runOk → s.throwsOk → step s = .next t → t.runOk ∧ t.throwsOk

/-- No step ever gives a row whose applied verdict is SPLICE a strike outcome (R82). -/
def Obligations.SpliceRowsAreNeverStruck : Prop :=
  ∀ s t : State, s.trackOk → s.splicesOk → step s = .next t → t.splicesOk

/-- Every step keeps a command pending only while another executes, and CMD_STATUS EXECUTING exactly while
one does; and outside IDLE no step but a reset changes a plate slot that CURRENT references (R162, R178 to
R180). -/
def Obligations.EngineAndSlotsInUseStayConsistent : Prop :=
  ∀ s t : State, s.engineOk → s.cycleOk → step s = .next t →
    t.engineOk ∧ t.cycleOk ∧
      ∀ slot, s.jobs.run ≠ .idle → s.jobs.currentReferences slot = true →
        s.pending.head? ≠ some .linkReset →
        (∀ decayed, s.pending.head? ≠ some (.powerOnReset decayed)) →
        t.slot slot = s.slot slot

/-- Every step keeps each channel's pending list within 24 strokes, a current stroke in RAMP_UP and SYNC and
none in STANDING and IDLE, the foil position fraction below one tick, and a planned ramp-up only in
RAMP_DOWN and STANDING, to a stroke that is pending (R104, R108, R111, R121). -/
def Obligations.ChannelsStayWithinTheirRules : Prop :=
  ∀ s t : State, s.channelsOk → step s = .next t → t.channelsOk

/-- Every step keeps every job in NEXT and CURRENT in the ranges LOAD_JOB enforces on the job, its station
blocks, its foil parameters and its channel blocks, and the scale and the headroom in force with them (R4,
R11, R103, R133 to R135, R137). -/
def Obligations.JobsInTheSlotsStayInRange : Prop :=
  ∀ s t : State, s.jobsOk → step s = .next t → t.jobsOk

/-- A cause set in ATTN stays set until a write to ATTN names its bit or a reset clears it; and every step
but a reset sends exactly one message where the condition comes to be deliverable and none otherwise
(R183, R185). That a configuration space write sends by the same rule is the model's reading (log entry 16). -/
def Obligations.CausesStandAndMessagesFollowRises : Prop :=
  ∀ (s t : State) (c : Instr), c.wellFormed = true → c ≠ .linkReset →
    (∀ decayed, c ≠ .powerOnReset decayed) → exec c s = .next t →
    (∀ k : Fin 18, s.attn.causes.getLsbD k = true →
      (∀ value, c = .attnWrite value → value.getLsbD k = false) → t.attn.causes.getLsbD k = true) ∧
    t.attn.sent = s.attn.sent +
      (if t.attn.deliverable = true ∧ s.attn.deliverable = false then 1 else 0)

/-- The part itself never writes the host page, the verdict strip, the job staging area, the scratch
region, or the bytes of the command result area outside the report and the plate fault; and it writes the
plate staging area at the acceptance of a PLATE_READ alone (R42, R165, R170, R177). -/
def Obligations.PartWritesOnlyItsOwnRegions : Prop :=
  ∀ (s t : State) (c : Instr), c.wellFormed = true → c ≠ .linkReset →
    (∀ decayed, c ≠ .powerOnReset decayed) →
    (∀ o bs, c ≠ .exchangeMemoryWrite o bs) → exec c s = .next t →
    ∀ x, (0x100 ≤ x ∧ x < 0x200 ∨ 0x248 ≤ x ∧ x < 0x300 ∨ 0x308 ≤ x ∧ x < 0x1400 ∨
        0x1600 ≤ x ∧ x < 0x4000 ∨ 0x8000 ≤ x ∨
        0x1400 ≤ x ∧ x < 0x1600 ∧
          ¬ (t.engine.seq = s.engine.seq + 1 ∧ t.engine.statusCode = 0x09)) →
      t.mem.read x = s.mem.read x

/-- The stop request is deasserted by nothing but an ACK_STOP that completes OK, and a reset (R153 to
R155). -/
def Obligations.OnlyAckStopDeassertsTheRequest : Prop :=
  ∀ (s t : State) (c : Instr), c ≠ .linkReset → (∀ decayed, c ≠ .powerOnReset decayed) →
    exec c s = .next t →
    s.jobs.stopRequest = true → t.jobs.stopRequest = false →
    t.engine.statusCode = 0x0A ∧ t.engine.result = .ok ∧ t.engine.seq = s.engine.seq + 1

/-- A channel's remaining foil increases only in a well-formed step that accepts a REFILL_FOIL of that channel, to
the refill length of the host page before the step (R124, R127). -/
def Obligations.RemainingFoilGrowsOnlyAtARefill : Prop :=
  ∀ (s t : State) (c : Instr) (ch : Fin 8), c.wellFormed = true → exec c s = .next t →
    (s.channel ch).remaining < (t.channel ch).remaining →
    t.engine.seq = s.engine.seq + 1 ∧
      t.engine.statusCode = 0x07 ∧ t.engine.result = .ok ∧ t.engine.arg.toNat = ch ∧
      (t.channel ch).remaining = s.mem.nat 4 0x108

end
end

