-- ==== Sys2Proof/Laws/Collections.lean ====
section
/-! SUPPORT. Reading and replacing the members of collections of four and of eight. -/

namespace Sys2Proof

/-- A member just replaced reads as replaced, and the others as before. -/
@[simp] theorem Four.get_set {α : Type} (f : Four α) (i j : Fin 4) (x : α) :
    (f.set i x).get j = if j = i then x else f.get j := by
  fin_cases i <;> fin_cases j <;> rfl

/-- A member just replaced reads as replaced, and the others as before. -/
@[simp] theorem Eight.get_set {α : Type} (f : Eight α) (i j : Fin 8) (x : α) :
    (f.set i x).get j = if j = i then x else f.get j := by
  fin_cases i <;> fin_cases j <;> rfl

/-- Every member of four copies is the thing copied. -/
@[simp] theorem Four.get_all {α : Type} (x : α) (i : Fin 4) : (Four.all x).get i = x := by
  fin_cases i <;> rfl

/-- Every member of eight copies is the thing copied. -/
@[simp] theorem Eight.get_all {α : Type} (x : α) (i : Fin 8) : (Eight.all x).get i = x := by
  fin_cases i <;> rfl

/-- A member of four passed through a function. -/
@[simp] theorem Four.get_mapIdx {α β : Type} (g : Fin 4 → α → β) (f : Four α) (i : Fin 4) :
    (f.mapIdx g).get i = g i (f.get i) := by
  fin_cases i <;> rfl

/-- A member of eight passed through a function. -/
@[simp] theorem Eight.get_mapIdx {α β : Type} (g : Fin 8 → α → β) (f : Eight α) (i : Fin 8) :
    (f.mapIdx g).get i = g i (f.get i) := by
  fin_cases i <;> rfl

/-- Two fours with equal members are equal. -/
theorem Four.ext_get {α : Type} {f g : Four α} (h : ∀ i, f.get i = g.get i) : f = g := by
  cases f; cases g
  have h0 := h 0; have h1 := h 1; have h2 := h 2; have h3 := h 3
  simp_all [Four.get]

/-- Two eights with equal members are equal. -/
theorem Eight.ext_get {α : Type} {f g : Eight α} (h : ∀ i, f.get i = g.get i) : f = g := by
  cases f; cases g
  have h0 := h 0; have h1 := h 1; have h2 := h 2; have h3 := h 3
  have h4 := h 4; have h5 := h 5; have h6 := h 6; have h7 := h 7
  simp_all [Eight.get]

/-- The members of four are the members numbered. -/
theorem Four.mem_toList {α : Type} (f : Four α) (x : α) : x ∈ f.toList ↔ ∃ i, f.get i = x := by
  constructor
  · intro h
    simp only [Four.toList, List.mem_cons, List.not_mem_nil, or_false] at h
    rcases h with h | h | h | h
    · exact ⟨0, h.symm⟩
    · exact ⟨1, h.symm⟩
    · exact ⟨2, h.symm⟩
    · exact ⟨3, h.symm⟩
  · rintro ⟨i, rfl⟩
    fin_cases i <;> simp [Four.toList, Four.get]

/-- The members of eight are the members numbered. -/
theorem Eight.mem_toList {α : Type} (f : Eight α) (x : α) : x ∈ f.toList ↔ ∃ i, f.get i = x := by
  constructor
  · intro h
    simp only [Eight.toList, List.mem_cons, List.not_mem_nil, or_false] at h
    rcases h with h | h | h | h | h | h | h | h
    · exact ⟨0, h.symm⟩
    · exact ⟨1, h.symm⟩
    · exact ⟨2, h.symm⟩
    · exact ⟨3, h.symm⟩
    · exact ⟨4, h.symm⟩
    · exact ⟨5, h.symm⟩
    · exact ⟨6, h.symm⟩
    · exact ⟨7, h.symm⟩
  · rintro ⟨i, rfl⟩
    fin_cases i <;> simp [Eight.toList, Eight.get]

end Sys2Proof
end

