-- ==== Sys2Proof/Laws/State.lean ====
section
/-! SUPPORT. One lemma per field per update of the state, so that no proof unfolds a record update. -/

namespace Sys2Proof.Machine

@[simp] theorem State.withWpu_wpu (s : State) (x : Wpu) : (s.withWpu x).wpu = x := rfl
@[simp] theorem State.withWpu_cylGens (s : State) (x : Wpu) : (s.withWpu x).cylGens = s.cylGens := rfl
@[simp] theorem State.withWpu_foilGens (s : State) (x : Wpu) : (s.withWpu x).foilGens = s.foilGens := rfl
@[simp] theorem State.withWpu_mark (s : State) (x : Wpu) : (s.withWpu x).mark = s.mark := rfl
@[simp] theorem State.withWpu_track (s : State) (x : Wpu) : (s.withWpu x).track = s.track := rfl
@[simp] theorem State.withWpu_lastRetired (s : State) (x : Wpu) : (s.withWpu x).lastRetired = s.lastRetired := rfl
@[simp] theorem State.withWpu_stations (s : State) (x : Wpu) : (s.withWpu x).stations = s.stations := rfl
@[simp] theorem State.withWpu_channels (s : State) (x : Wpu) : (s.withWpu x).channels = s.channels := rfl
@[simp] theorem State.withWpu_jobs (s : State) (x : Wpu) : (s.withWpu x).jobs = s.jobs := rfl
@[simp] theorem State.withWpu_store (s : State) (x : Wpu) : (s.withWpu x).store = s.store := rfl
@[simp] theorem State.withWpu_mem (s : State) (x : Wpu) : (s.withWpu x).mem = s.mem := rfl
@[simp] theorem State.withWpu_engine (s : State) (x : Wpu) : (s.withWpu x).engine = s.engine := rfl
@[simp] theorem State.withWpu_attn (s : State) (x : Wpu) : (s.withWpu x).attn = s.attn := rfl
@[simp] theorem State.withWpu_records (s : State) (x : Wpu) : (s.withWpu x).records = s.records := rfl
@[simp] theorem State.withWpu_generation (s : State) (x : Wpu) : (s.withWpu x).generation = s.generation := rfl
@[simp] theorem State.withWpu_freeCount (s : State) (x : Wpu) : (s.withWpu x).freeCount = s.freeCount := rfl
@[simp] theorem State.withWpu_pending (s : State) (x : Wpu) : (s.withWpu x).pending = s.pending := rfl

@[simp] theorem State.withCylGens_wpu (s : State) (x : Four StepGen) : (s.withCylGens x).wpu = s.wpu := rfl
@[simp] theorem State.withCylGens_cylGens (s : State) (x : Four StepGen) : (s.withCylGens x).cylGens = x := rfl
@[simp] theorem State.withCylGens_foilGens (s : State) (x : Four StepGen) : (s.withCylGens x).foilGens = s.foilGens := rfl
@[simp] theorem State.withCylGens_mark (s : State) (x : Four StepGen) : (s.withCylGens x).mark = s.mark := rfl
@[simp] theorem State.withCylGens_track (s : State) (x : Four StepGen) : (s.withCylGens x).track = s.track := rfl
@[simp] theorem State.withCylGens_lastRetired (s : State) (x : Four StepGen) : (s.withCylGens x).lastRetired = s.lastRetired := rfl
@[simp] theorem State.withCylGens_stations (s : State) (x : Four StepGen) : (s.withCylGens x).stations = s.stations := rfl
@[simp] theorem State.withCylGens_channels (s : State) (x : Four StepGen) : (s.withCylGens x).channels = s.channels := rfl
@[simp] theorem State.withCylGens_jobs (s : State) (x : Four StepGen) : (s.withCylGens x).jobs = s.jobs := rfl
@[simp] theorem State.withCylGens_store (s : State) (x : Four StepGen) : (s.withCylGens x).store = s.store := rfl
@[simp] theorem State.withCylGens_mem (s : State) (x : Four StepGen) : (s.withCylGens x).mem = s.mem := rfl
@[simp] theorem State.withCylGens_engine (s : State) (x : Four StepGen) : (s.withCylGens x).engine = s.engine := rfl
@[simp] theorem State.withCylGens_attn (s : State) (x : Four StepGen) : (s.withCylGens x).attn = s.attn := rfl
@[simp] theorem State.withCylGens_records (s : State) (x : Four StepGen) : (s.withCylGens x).records = s.records := rfl
@[simp] theorem State.withCylGens_generation (s : State) (x : Four StepGen) : (s.withCylGens x).generation = s.generation := rfl
@[simp] theorem State.withCylGens_freeCount (s : State) (x : Four StepGen) : (s.withCylGens x).freeCount = s.freeCount := rfl
@[simp] theorem State.withCylGens_pending (s : State) (x : Four StepGen) : (s.withCylGens x).pending = s.pending := rfl

@[simp] theorem State.withFoilGens_wpu (s : State) (x : Eight StepGen) : (s.withFoilGens x).wpu = s.wpu := rfl
@[simp] theorem State.withFoilGens_cylGens (s : State) (x : Eight StepGen) : (s.withFoilGens x).cylGens = s.cylGens := rfl
@[simp] theorem State.withFoilGens_foilGens (s : State) (x : Eight StepGen) : (s.withFoilGens x).foilGens = x := rfl
@[simp] theorem State.withFoilGens_mark (s : State) (x : Eight StepGen) : (s.withFoilGens x).mark = s.mark := rfl
@[simp] theorem State.withFoilGens_track (s : State) (x : Eight StepGen) : (s.withFoilGens x).track = s.track := rfl
@[simp] theorem State.withFoilGens_lastRetired (s : State) (x : Eight StepGen) : (s.withFoilGens x).lastRetired = s.lastRetired := rfl
@[simp] theorem State.withFoilGens_stations (s : State) (x : Eight StepGen) : (s.withFoilGens x).stations = s.stations := rfl
@[simp] theorem State.withFoilGens_channels (s : State) (x : Eight StepGen) : (s.withFoilGens x).channels = s.channels := rfl
@[simp] theorem State.withFoilGens_jobs (s : State) (x : Eight StepGen) : (s.withFoilGens x).jobs = s.jobs := rfl
@[simp] theorem State.withFoilGens_store (s : State) (x : Eight StepGen) : (s.withFoilGens x).store = s.store := rfl
@[simp] theorem State.withFoilGens_mem (s : State) (x : Eight StepGen) : (s.withFoilGens x).mem = s.mem := rfl
@[simp] theorem State.withFoilGens_engine (s : State) (x : Eight StepGen) : (s.withFoilGens x).engine = s.engine := rfl
@[simp] theorem State.withFoilGens_attn (s : State) (x : Eight StepGen) : (s.withFoilGens x).attn = s.attn := rfl
@[simp] theorem State.withFoilGens_records (s : State) (x : Eight StepGen) : (s.withFoilGens x).records = s.records := rfl
@[simp] theorem State.withFoilGens_generation (s : State) (x : Eight StepGen) : (s.withFoilGens x).generation = s.generation := rfl
@[simp] theorem State.withFoilGens_freeCount (s : State) (x : Eight StepGen) : (s.withFoilGens x).freeCount = s.freeCount := rfl
@[simp] theorem State.withFoilGens_pending (s : State) (x : Eight StepGen) : (s.withFoilGens x).pending = s.pending := rfl

@[simp] theorem State.withMark_wpu (s : State) (x : MarkUnit) : (s.withMark x).wpu = s.wpu := rfl
@[simp] theorem State.withMark_cylGens (s : State) (x : MarkUnit) : (s.withMark x).cylGens = s.cylGens := rfl
@[simp] theorem State.withMark_foilGens (s : State) (x : MarkUnit) : (s.withMark x).foilGens = s.foilGens := rfl
@[simp] theorem State.withMark_mark (s : State) (x : MarkUnit) : (s.withMark x).mark = x := rfl
@[simp] theorem State.withMark_track (s : State) (x : MarkUnit) : (s.withMark x).track = s.track := rfl
@[simp] theorem State.withMark_lastRetired (s : State) (x : MarkUnit) : (s.withMark x).lastRetired = s.lastRetired := rfl
@[simp] theorem State.withMark_stations (s : State) (x : MarkUnit) : (s.withMark x).stations = s.stations := rfl
@[simp] theorem State.withMark_channels (s : State) (x : MarkUnit) : (s.withMark x).channels = s.channels := rfl
@[simp] theorem State.withMark_jobs (s : State) (x : MarkUnit) : (s.withMark x).jobs = s.jobs := rfl
@[simp] theorem State.withMark_store (s : State) (x : MarkUnit) : (s.withMark x).store = s.store := rfl
@[simp] theorem State.withMark_mem (s : State) (x : MarkUnit) : (s.withMark x).mem = s.mem := rfl
@[simp] theorem State.withMark_engine (s : State) (x : MarkUnit) : (s.withMark x).engine = s.engine := rfl
@[simp] theorem State.withMark_attn (s : State) (x : MarkUnit) : (s.withMark x).attn = s.attn := rfl
@[simp] theorem State.withMark_records (s : State) (x : MarkUnit) : (s.withMark x).records = s.records := rfl
@[simp] theorem State.withMark_generation (s : State) (x : MarkUnit) : (s.withMark x).generation = s.generation := rfl
@[simp] theorem State.withMark_freeCount (s : State) (x : MarkUnit) : (s.withMark x).freeCount = s.freeCount := rfl
@[simp] theorem State.withMark_pending (s : State) (x : MarkUnit) : (s.withMark x).pending = s.pending := rfl

@[simp] theorem State.withTrack_wpu (s : State) (x : List RowCtx) : (s.withTrack x).wpu = s.wpu := rfl
@[simp] theorem State.withTrack_cylGens (s : State) (x : List RowCtx) : (s.withTrack x).cylGens = s.cylGens := rfl
@[simp] theorem State.withTrack_foilGens (s : State) (x : List RowCtx) : (s.withTrack x).foilGens = s.foilGens := rfl
@[simp] theorem State.withTrack_mark (s : State) (x : List RowCtx) : (s.withTrack x).mark = s.mark := rfl
@[simp] theorem State.withTrack_track (s : State) (x : List RowCtx) : (s.withTrack x).track = x := rfl
@[simp] theorem State.withTrack_lastRetired (s : State) (x : List RowCtx) : (s.withTrack x).lastRetired = s.lastRetired := rfl
@[simp] theorem State.withTrack_stations (s : State) (x : List RowCtx) : (s.withTrack x).stations = s.stations := rfl
@[simp] theorem State.withTrack_channels (s : State) (x : List RowCtx) : (s.withTrack x).channels = s.channels := rfl
@[simp] theorem State.withTrack_jobs (s : State) (x : List RowCtx) : (s.withTrack x).jobs = s.jobs := rfl
@[simp] theorem State.withTrack_store (s : State) (x : List RowCtx) : (s.withTrack x).store = s.store := rfl
@[simp] theorem State.withTrack_mem (s : State) (x : List RowCtx) : (s.withTrack x).mem = s.mem := rfl
@[simp] theorem State.withTrack_engine (s : State) (x : List RowCtx) : (s.withTrack x).engine = s.engine := rfl
@[simp] theorem State.withTrack_attn (s : State) (x : List RowCtx) : (s.withTrack x).attn = s.attn := rfl
@[simp] theorem State.withTrack_records (s : State) (x : List RowCtx) : (s.withTrack x).records = s.records := rfl
@[simp] theorem State.withTrack_generation (s : State) (x : List RowCtx) : (s.withTrack x).generation = s.generation := rfl
@[simp] theorem State.withTrack_freeCount (s : State) (x : List RowCtx) : (s.withTrack x).freeCount = s.freeCount := rfl
@[simp] theorem State.withTrack_pending (s : State) (x : List RowCtx) : (s.withTrack x).pending = s.pending := rfl

@[simp] theorem State.withLastRetired_wpu (s : State) (x : Option RowCtx) : (s.withLastRetired x).wpu = s.wpu := rfl
@[simp] theorem State.withLastRetired_cylGens (s : State) (x : Option RowCtx) : (s.withLastRetired x).cylGens = s.cylGens := rfl
@[simp] theorem State.withLastRetired_foilGens (s : State) (x : Option RowCtx) : (s.withLastRetired x).foilGens = s.foilGens := rfl
@[simp] theorem State.withLastRetired_mark (s : State) (x : Option RowCtx) : (s.withLastRetired x).mark = s.mark := rfl
@[simp] theorem State.withLastRetired_track (s : State) (x : Option RowCtx) : (s.withLastRetired x).track = s.track := rfl
@[simp] theorem State.withLastRetired_lastRetired (s : State) (x : Option RowCtx) : (s.withLastRetired x).lastRetired = x := rfl
@[simp] theorem State.withLastRetired_stations (s : State) (x : Option RowCtx) : (s.withLastRetired x).stations = s.stations := rfl
@[simp] theorem State.withLastRetired_channels (s : State) (x : Option RowCtx) : (s.withLastRetired x).channels = s.channels := rfl
@[simp] theorem State.withLastRetired_jobs (s : State) (x : Option RowCtx) : (s.withLastRetired x).jobs = s.jobs := rfl
@[simp] theorem State.withLastRetired_store (s : State) (x : Option RowCtx) : (s.withLastRetired x).store = s.store := rfl
@[simp] theorem State.withLastRetired_mem (s : State) (x : Option RowCtx) : (s.withLastRetired x).mem = s.mem := rfl
@[simp] theorem State.withLastRetired_engine (s : State) (x : Option RowCtx) : (s.withLastRetired x).engine = s.engine := rfl
@[simp] theorem State.withLastRetired_attn (s : State) (x : Option RowCtx) : (s.withLastRetired x).attn = s.attn := rfl
@[simp] theorem State.withLastRetired_records (s : State) (x : Option RowCtx) : (s.withLastRetired x).records = s.records := rfl
@[simp] theorem State.withLastRetired_generation (s : State) (x : Option RowCtx) : (s.withLastRetired x).generation = s.generation := rfl
@[simp] theorem State.withLastRetired_freeCount (s : State) (x : Option RowCtx) : (s.withLastRetired x).freeCount = s.freeCount := rfl
@[simp] theorem State.withLastRetired_pending (s : State) (x : Option RowCtx) : (s.withLastRetired x).pending = s.pending := rfl

@[simp] theorem State.withStations_wpu (s : State) (x : Four Station) : (s.withStations x).wpu = s.wpu := rfl
@[simp] theorem State.withStations_cylGens (s : State) (x : Four Station) : (s.withStations x).cylGens = s.cylGens := rfl
@[simp] theorem State.withStations_foilGens (s : State) (x : Four Station) : (s.withStations x).foilGens = s.foilGens := rfl
@[simp] theorem State.withStations_mark (s : State) (x : Four Station) : (s.withStations x).mark = s.mark := rfl
@[simp] theorem State.withStations_track (s : State) (x : Four Station) : (s.withStations x).track = s.track := rfl
@[simp] theorem State.withStations_lastRetired (s : State) (x : Four Station) : (s.withStations x).lastRetired = s.lastRetired := rfl
@[simp] theorem State.withStations_stations (s : State) (x : Four Station) : (s.withStations x).stations = x := rfl
@[simp] theorem State.withStations_channels (s : State) (x : Four Station) : (s.withStations x).channels = s.channels := rfl
@[simp] theorem State.withStations_jobs (s : State) (x : Four Station) : (s.withStations x).jobs = s.jobs := rfl
@[simp] theorem State.withStations_store (s : State) (x : Four Station) : (s.withStations x).store = s.store := rfl
@[simp] theorem State.withStations_mem (s : State) (x : Four Station) : (s.withStations x).mem = s.mem := rfl
@[simp] theorem State.withStations_engine (s : State) (x : Four Station) : (s.withStations x).engine = s.engine := rfl
@[simp] theorem State.withStations_attn (s : State) (x : Four Station) : (s.withStations x).attn = s.attn := rfl
@[simp] theorem State.withStations_records (s : State) (x : Four Station) : (s.withStations x).records = s.records := rfl
@[simp] theorem State.withStations_generation (s : State) (x : Four Station) : (s.withStations x).generation = s.generation := rfl
@[simp] theorem State.withStations_freeCount (s : State) (x : Four Station) : (s.withStations x).freeCount = s.freeCount := rfl
@[simp] theorem State.withStations_pending (s : State) (x : Four Station) : (s.withStations x).pending = s.pending := rfl

@[simp] theorem State.withChannels_wpu (s : State) (x : Eight Channel) : (s.withChannels x).wpu = s.wpu := rfl
@[simp] theorem State.withChannels_cylGens (s : State) (x : Eight Channel) : (s.withChannels x).cylGens = s.cylGens := rfl
@[simp] theorem State.withChannels_foilGens (s : State) (x : Eight Channel) : (s.withChannels x).foilGens = s.foilGens := rfl
@[simp] theorem State.withChannels_mark (s : State) (x : Eight Channel) : (s.withChannels x).mark = s.mark := rfl
@[simp] theorem State.withChannels_track (s : State) (x : Eight Channel) : (s.withChannels x).track = s.track := rfl
@[simp] theorem State.withChannels_lastRetired (s : State) (x : Eight Channel) : (s.withChannels x).lastRetired = s.lastRetired := rfl
@[simp] theorem State.withChannels_stations (s : State) (x : Eight Channel) : (s.withChannels x).stations = s.stations := rfl
@[simp] theorem State.withChannels_channels (s : State) (x : Eight Channel) : (s.withChannels x).channels = x := rfl
@[simp] theorem State.withChannels_jobs (s : State) (x : Eight Channel) : (s.withChannels x).jobs = s.jobs := rfl
@[simp] theorem State.withChannels_store (s : State) (x : Eight Channel) : (s.withChannels x).store = s.store := rfl
@[simp] theorem State.withChannels_mem (s : State) (x : Eight Channel) : (s.withChannels x).mem = s.mem := rfl
@[simp] theorem State.withChannels_engine (s : State) (x : Eight Channel) : (s.withChannels x).engine = s.engine := rfl
@[simp] theorem State.withChannels_attn (s : State) (x : Eight Channel) : (s.withChannels x).attn = s.attn := rfl
@[simp] theorem State.withChannels_records (s : State) (x : Eight Channel) : (s.withChannels x).records = s.records := rfl
@[simp] theorem State.withChannels_generation (s : State) (x : Eight Channel) : (s.withChannels x).generation = s.generation := rfl
@[simp] theorem State.withChannels_freeCount (s : State) (x : Eight Channel) : (s.withChannels x).freeCount = s.freeCount := rfl
@[simp] theorem State.withChannels_pending (s : State) (x : Eight Channel) : (s.withChannels x).pending = s.pending := rfl

@[simp] theorem State.withJobs_wpu (s : State) (x : JobControl) : (s.withJobs x).wpu = s.wpu := rfl
@[simp] theorem State.withJobs_cylGens (s : State) (x : JobControl) : (s.withJobs x).cylGens = s.cylGens := rfl
@[simp] theorem State.withJobs_foilGens (s : State) (x : JobControl) : (s.withJobs x).foilGens = s.foilGens := rfl
@[simp] theorem State.withJobs_mark (s : State) (x : JobControl) : (s.withJobs x).mark = s.mark := rfl
@[simp] theorem State.withJobs_track (s : State) (x : JobControl) : (s.withJobs x).track = s.track := rfl
@[simp] theorem State.withJobs_lastRetired (s : State) (x : JobControl) : (s.withJobs x).lastRetired = s.lastRetired := rfl
@[simp] theorem State.withJobs_stations (s : State) (x : JobControl) : (s.withJobs x).stations = s.stations := rfl
@[simp] theorem State.withJobs_channels (s : State) (x : JobControl) : (s.withJobs x).channels = s.channels := rfl
@[simp] theorem State.withJobs_jobs (s : State) (x : JobControl) : (s.withJobs x).jobs = x := rfl
@[simp] theorem State.withJobs_store (s : State) (x : JobControl) : (s.withJobs x).store = s.store := rfl
@[simp] theorem State.withJobs_mem (s : State) (x : JobControl) : (s.withJobs x).mem = s.mem := rfl
@[simp] theorem State.withJobs_engine (s : State) (x : JobControl) : (s.withJobs x).engine = s.engine := rfl
@[simp] theorem State.withJobs_attn (s : State) (x : JobControl) : (s.withJobs x).attn = s.attn := rfl
@[simp] theorem State.withJobs_records (s : State) (x : JobControl) : (s.withJobs x).records = s.records := rfl
@[simp] theorem State.withJobs_generation (s : State) (x : JobControl) : (s.withJobs x).generation = s.generation := rfl
@[simp] theorem State.withJobs_freeCount (s : State) (x : JobControl) : (s.withJobs x).freeCount = s.freeCount := rfl
@[simp] theorem State.withJobs_pending (s : State) (x : JobControl) : (s.withJobs x).pending = s.pending := rfl

@[simp] theorem State.withStore_wpu (s : State) (x : List PlateSlot) : (s.withStore x).wpu = s.wpu := rfl
@[simp] theorem State.withStore_cylGens (s : State) (x : List PlateSlot) : (s.withStore x).cylGens = s.cylGens := rfl
@[simp] theorem State.withStore_foilGens (s : State) (x : List PlateSlot) : (s.withStore x).foilGens = s.foilGens := rfl
@[simp] theorem State.withStore_mark (s : State) (x : List PlateSlot) : (s.withStore x).mark = s.mark := rfl
@[simp] theorem State.withStore_track (s : State) (x : List PlateSlot) : (s.withStore x).track = s.track := rfl
@[simp] theorem State.withStore_lastRetired (s : State) (x : List PlateSlot) : (s.withStore x).lastRetired = s.lastRetired := rfl
@[simp] theorem State.withStore_stations (s : State) (x : List PlateSlot) : (s.withStore x).stations = s.stations := rfl
@[simp] theorem State.withStore_channels (s : State) (x : List PlateSlot) : (s.withStore x).channels = s.channels := rfl
@[simp] theorem State.withStore_jobs (s : State) (x : List PlateSlot) : (s.withStore x).jobs = s.jobs := rfl
@[simp] theorem State.withStore_store (s : State) (x : List PlateSlot) : (s.withStore x).store = x := rfl
@[simp] theorem State.withStore_mem (s : State) (x : List PlateSlot) : (s.withStore x).mem = s.mem := rfl
@[simp] theorem State.withStore_engine (s : State) (x : List PlateSlot) : (s.withStore x).engine = s.engine := rfl
@[simp] theorem State.withStore_attn (s : State) (x : List PlateSlot) : (s.withStore x).attn = s.attn := rfl
@[simp] theorem State.withStore_records (s : State) (x : List PlateSlot) : (s.withStore x).records = s.records := rfl
@[simp] theorem State.withStore_generation (s : State) (x : List PlateSlot) : (s.withStore x).generation = s.generation := rfl
@[simp] theorem State.withStore_freeCount (s : State) (x : List PlateSlot) : (s.withStore x).freeCount = s.freeCount := rfl
@[simp] theorem State.withStore_pending (s : State) (x : List PlateSlot) : (s.withStore x).pending = s.pending := rfl

@[simp] theorem State.withMem_wpu (s : State) (x : Memory) : (s.withMem x).wpu = s.wpu := rfl
@[simp] theorem State.withMem_cylGens (s : State) (x : Memory) : (s.withMem x).cylGens = s.cylGens := rfl
@[simp] theorem State.withMem_foilGens (s : State) (x : Memory) : (s.withMem x).foilGens = s.foilGens := rfl
@[simp] theorem State.withMem_mark (s : State) (x : Memory) : (s.withMem x).mark = s.mark := rfl
@[simp] theorem State.withMem_track (s : State) (x : Memory) : (s.withMem x).track = s.track := rfl
@[simp] theorem State.withMem_lastRetired (s : State) (x : Memory) : (s.withMem x).lastRetired = s.lastRetired := rfl
@[simp] theorem State.withMem_stations (s : State) (x : Memory) : (s.withMem x).stations = s.stations := rfl
@[simp] theorem State.withMem_channels (s : State) (x : Memory) : (s.withMem x).channels = s.channels := rfl
@[simp] theorem State.withMem_jobs (s : State) (x : Memory) : (s.withMem x).jobs = s.jobs := rfl
@[simp] theorem State.withMem_store (s : State) (x : Memory) : (s.withMem x).store = s.store := rfl
@[simp] theorem State.withMem_mem (s : State) (x : Memory) : (s.withMem x).mem = x := rfl
@[simp] theorem State.withMem_engine (s : State) (x : Memory) : (s.withMem x).engine = s.engine := rfl
@[simp] theorem State.withMem_attn (s : State) (x : Memory) : (s.withMem x).attn = s.attn := rfl
@[simp] theorem State.withMem_records (s : State) (x : Memory) : (s.withMem x).records = s.records := rfl
@[simp] theorem State.withMem_generation (s : State) (x : Memory) : (s.withMem x).generation = s.generation := rfl
@[simp] theorem State.withMem_freeCount (s : State) (x : Memory) : (s.withMem x).freeCount = s.freeCount := rfl
@[simp] theorem State.withMem_pending (s : State) (x : Memory) : (s.withMem x).pending = s.pending := rfl

@[simp] theorem State.withEngine_wpu (s : State) (x : Engine) : (s.withEngine x).wpu = s.wpu := rfl
@[simp] theorem State.withEngine_cylGens (s : State) (x : Engine) : (s.withEngine x).cylGens = s.cylGens := rfl
@[simp] theorem State.withEngine_foilGens (s : State) (x : Engine) : (s.withEngine x).foilGens = s.foilGens := rfl
@[simp] theorem State.withEngine_mark (s : State) (x : Engine) : (s.withEngine x).mark = s.mark := rfl
@[simp] theorem State.withEngine_track (s : State) (x : Engine) : (s.withEngine x).track = s.track := rfl
@[simp] theorem State.withEngine_lastRetired (s : State) (x : Engine) : (s.withEngine x).lastRetired = s.lastRetired := rfl
@[simp] theorem State.withEngine_stations (s : State) (x : Engine) : (s.withEngine x).stations = s.stations := rfl
@[simp] theorem State.withEngine_channels (s : State) (x : Engine) : (s.withEngine x).channels = s.channels := rfl
@[simp] theorem State.withEngine_jobs (s : State) (x : Engine) : (s.withEngine x).jobs = s.jobs := rfl
@[simp] theorem State.withEngine_store (s : State) (x : Engine) : (s.withEngine x).store = s.store := rfl
@[simp] theorem State.withEngine_mem (s : State) (x : Engine) : (s.withEngine x).mem = s.mem := rfl
@[simp] theorem State.withEngine_engine (s : State) (x : Engine) : (s.withEngine x).engine = x := rfl
@[simp] theorem State.withEngine_attn (s : State) (x : Engine) : (s.withEngine x).attn = s.attn := rfl
@[simp] theorem State.withEngine_records (s : State) (x : Engine) : (s.withEngine x).records = s.records := rfl
@[simp] theorem State.withEngine_generation (s : State) (x : Engine) : (s.withEngine x).generation = s.generation := rfl
@[simp] theorem State.withEngine_freeCount (s : State) (x : Engine) : (s.withEngine x).freeCount = s.freeCount := rfl
@[simp] theorem State.withEngine_pending (s : State) (x : Engine) : (s.withEngine x).pending = s.pending := rfl

@[simp] theorem State.withAttn_wpu (s : State) (x : Attention) : (s.withAttn x).wpu = s.wpu := rfl
@[simp] theorem State.withAttn_cylGens (s : State) (x : Attention) : (s.withAttn x).cylGens = s.cylGens := rfl
@[simp] theorem State.withAttn_foilGens (s : State) (x : Attention) : (s.withAttn x).foilGens = s.foilGens := rfl
@[simp] theorem State.withAttn_mark (s : State) (x : Attention) : (s.withAttn x).mark = s.mark := rfl
@[simp] theorem State.withAttn_track (s : State) (x : Attention) : (s.withAttn x).track = s.track := rfl
@[simp] theorem State.withAttn_lastRetired (s : State) (x : Attention) : (s.withAttn x).lastRetired = s.lastRetired := rfl
@[simp] theorem State.withAttn_stations (s : State) (x : Attention) : (s.withAttn x).stations = s.stations := rfl
@[simp] theorem State.withAttn_channels (s : State) (x : Attention) : (s.withAttn x).channels = s.channels := rfl
@[simp] theorem State.withAttn_jobs (s : State) (x : Attention) : (s.withAttn x).jobs = s.jobs := rfl
@[simp] theorem State.withAttn_store (s : State) (x : Attention) : (s.withAttn x).store = s.store := rfl
@[simp] theorem State.withAttn_mem (s : State) (x : Attention) : (s.withAttn x).mem = s.mem := rfl
@[simp] theorem State.withAttn_engine (s : State) (x : Attention) : (s.withAttn x).engine = s.engine := rfl
@[simp] theorem State.withAttn_attn (s : State) (x : Attention) : (s.withAttn x).attn = x := rfl
@[simp] theorem State.withAttn_records (s : State) (x : Attention) : (s.withAttn x).records = s.records := rfl
@[simp] theorem State.withAttn_generation (s : State) (x : Attention) : (s.withAttn x).generation = s.generation := rfl
@[simp] theorem State.withAttn_freeCount (s : State) (x : Attention) : (s.withAttn x).freeCount = s.freeCount := rfl
@[simp] theorem State.withAttn_pending (s : State) (x : Attention) : (s.withAttn x).pending = s.pending := rfl

@[simp] theorem State.withRecords_wpu (s : State) (x : RecordWriter) : (s.withRecords x).wpu = s.wpu := rfl
@[simp] theorem State.withRecords_cylGens (s : State) (x : RecordWriter) : (s.withRecords x).cylGens = s.cylGens := rfl
@[simp] theorem State.withRecords_foilGens (s : State) (x : RecordWriter) : (s.withRecords x).foilGens = s.foilGens := rfl
@[simp] theorem State.withRecords_mark (s : State) (x : RecordWriter) : (s.withRecords x).mark = s.mark := rfl
@[simp] theorem State.withRecords_track (s : State) (x : RecordWriter) : (s.withRecords x).track = s.track := rfl
@[simp] theorem State.withRecords_lastRetired (s : State) (x : RecordWriter) : (s.withRecords x).lastRetired = s.lastRetired := rfl
@[simp] theorem State.withRecords_stations (s : State) (x : RecordWriter) : (s.withRecords x).stations = s.stations := rfl
@[simp] theorem State.withRecords_channels (s : State) (x : RecordWriter) : (s.withRecords x).channels = s.channels := rfl
@[simp] theorem State.withRecords_jobs (s : State) (x : RecordWriter) : (s.withRecords x).jobs = s.jobs := rfl
@[simp] theorem State.withRecords_store (s : State) (x : RecordWriter) : (s.withRecords x).store = s.store := rfl
@[simp] theorem State.withRecords_mem (s : State) (x : RecordWriter) : (s.withRecords x).mem = s.mem := rfl
@[simp] theorem State.withRecords_engine (s : State) (x : RecordWriter) : (s.withRecords x).engine = s.engine := rfl
@[simp] theorem State.withRecords_attn (s : State) (x : RecordWriter) : (s.withRecords x).attn = s.attn := rfl
@[simp] theorem State.withRecords_records (s : State) (x : RecordWriter) : (s.withRecords x).records = x := rfl
@[simp] theorem State.withRecords_generation (s : State) (x : RecordWriter) : (s.withRecords x).generation = s.generation := rfl
@[simp] theorem State.withRecords_freeCount (s : State) (x : RecordWriter) : (s.withRecords x).freeCount = s.freeCount := rfl
@[simp] theorem State.withRecords_pending (s : State) (x : RecordWriter) : (s.withRecords x).pending = s.pending := rfl

@[simp] theorem State.withGeneration_wpu (s : State) (x : Word) : (s.withGeneration x).wpu = s.wpu := rfl
@[simp] theorem State.withGeneration_cylGens (s : State) (x : Word) : (s.withGeneration x).cylGens = s.cylGens := rfl
@[simp] theorem State.withGeneration_foilGens (s : State) (x : Word) : (s.withGeneration x).foilGens = s.foilGens := rfl
@[simp] theorem State.withGeneration_mark (s : State) (x : Word) : (s.withGeneration x).mark = s.mark := rfl
@[simp] theorem State.withGeneration_track (s : State) (x : Word) : (s.withGeneration x).track = s.track := rfl
@[simp] theorem State.withGeneration_lastRetired (s : State) (x : Word) : (s.withGeneration x).lastRetired = s.lastRetired := rfl
@[simp] theorem State.withGeneration_stations (s : State) (x : Word) : (s.withGeneration x).stations = s.stations := rfl
@[simp] theorem State.withGeneration_channels (s : State) (x : Word) : (s.withGeneration x).channels = s.channels := rfl
@[simp] theorem State.withGeneration_jobs (s : State) (x : Word) : (s.withGeneration x).jobs = s.jobs := rfl
@[simp] theorem State.withGeneration_store (s : State) (x : Word) : (s.withGeneration x).store = s.store := rfl
@[simp] theorem State.withGeneration_mem (s : State) (x : Word) : (s.withGeneration x).mem = s.mem := rfl
@[simp] theorem State.withGeneration_engine (s : State) (x : Word) : (s.withGeneration x).engine = s.engine := rfl
@[simp] theorem State.withGeneration_attn (s : State) (x : Word) : (s.withGeneration x).attn = s.attn := rfl
@[simp] theorem State.withGeneration_records (s : State) (x : Word) : (s.withGeneration x).records = s.records := rfl
@[simp] theorem State.withGeneration_generation (s : State) (x : Word) : (s.withGeneration x).generation = x := rfl
@[simp] theorem State.withGeneration_freeCount (s : State) (x : Word) : (s.withGeneration x).freeCount = s.freeCount := rfl
@[simp] theorem State.withGeneration_pending (s : State) (x : Word) : (s.withGeneration x).pending = s.pending := rfl

@[simp] theorem State.withFreeCount_wpu (s : State) (x : Nat) : (s.withFreeCount x).wpu = s.wpu := rfl
@[simp] theorem State.withFreeCount_cylGens (s : State) (x : Nat) : (s.withFreeCount x).cylGens = s.cylGens := rfl
@[simp] theorem State.withFreeCount_foilGens (s : State) (x : Nat) : (s.withFreeCount x).foilGens = s.foilGens := rfl
@[simp] theorem State.withFreeCount_mark (s : State) (x : Nat) : (s.withFreeCount x).mark = s.mark := rfl
@[simp] theorem State.withFreeCount_track (s : State) (x : Nat) : (s.withFreeCount x).track = s.track := rfl
@[simp] theorem State.withFreeCount_lastRetired (s : State) (x : Nat) : (s.withFreeCount x).lastRetired = s.lastRetired := rfl
@[simp] theorem State.withFreeCount_stations (s : State) (x : Nat) : (s.withFreeCount x).stations = s.stations := rfl
@[simp] theorem State.withFreeCount_channels (s : State) (x : Nat) : (s.withFreeCount x).channels = s.channels := rfl
@[simp] theorem State.withFreeCount_jobs (s : State) (x : Nat) : (s.withFreeCount x).jobs = s.jobs := rfl
@[simp] theorem State.withFreeCount_store (s : State) (x : Nat) : (s.withFreeCount x).store = s.store := rfl
@[simp] theorem State.withFreeCount_mem (s : State) (x : Nat) : (s.withFreeCount x).mem = s.mem := rfl
@[simp] theorem State.withFreeCount_engine (s : State) (x : Nat) : (s.withFreeCount x).engine = s.engine := rfl
@[simp] theorem State.withFreeCount_attn (s : State) (x : Nat) : (s.withFreeCount x).attn = s.attn := rfl
@[simp] theorem State.withFreeCount_records (s : State) (x : Nat) : (s.withFreeCount x).records = s.records := rfl
@[simp] theorem State.withFreeCount_generation (s : State) (x : Nat) : (s.withFreeCount x).generation = s.generation := rfl
@[simp] theorem State.withFreeCount_freeCount (s : State) (x : Nat) : (s.withFreeCount x).freeCount = x := rfl
@[simp] theorem State.withFreeCount_pending (s : State) (x : Nat) : (s.withFreeCount x).pending = s.pending := rfl

@[simp] theorem State.withPending_wpu (s : State) (x : List Instr) : (s.withPending x).wpu = s.wpu := rfl
@[simp] theorem State.withPending_cylGens (s : State) (x : List Instr) : (s.withPending x).cylGens = s.cylGens := rfl
@[simp] theorem State.withPending_foilGens (s : State) (x : List Instr) : (s.withPending x).foilGens = s.foilGens := rfl
@[simp] theorem State.withPending_mark (s : State) (x : List Instr) : (s.withPending x).mark = s.mark := rfl
@[simp] theorem State.withPending_track (s : State) (x : List Instr) : (s.withPending x).track = s.track := rfl
@[simp] theorem State.withPending_lastRetired (s : State) (x : List Instr) : (s.withPending x).lastRetired = s.lastRetired := rfl
@[simp] theorem State.withPending_stations (s : State) (x : List Instr) : (s.withPending x).stations = s.stations := rfl
@[simp] theorem State.withPending_channels (s : State) (x : List Instr) : (s.withPending x).channels = s.channels := rfl
@[simp] theorem State.withPending_jobs (s : State) (x : List Instr) : (s.withPending x).jobs = s.jobs := rfl
@[simp] theorem State.withPending_store (s : State) (x : List Instr) : (s.withPending x).store = s.store := rfl
@[simp] theorem State.withPending_mem (s : State) (x : List Instr) : (s.withPending x).mem = s.mem := rfl
@[simp] theorem State.withPending_engine (s : State) (x : List Instr) : (s.withPending x).engine = s.engine := rfl
@[simp] theorem State.withPending_attn (s : State) (x : List Instr) : (s.withPending x).attn = s.attn := rfl
@[simp] theorem State.withPending_records (s : State) (x : List Instr) : (s.withPending x).records = s.records := rfl
@[simp] theorem State.withPending_generation (s : State) (x : List Instr) : (s.withPending x).generation = s.generation := rfl
@[simp] theorem State.withPending_freeCount (s : State) (x : List Instr) : (s.withPending x).freeCount = s.freeCount := rfl
@[simp] theorem State.withPending_pending (s : State) (x : List Instr) : (s.withPending x).pending = x := rfl

end Sys2Proof.Machine
end

