-- ==== Sys2Proof/Laws/FramesFoil.lean ====
section
/-! SUPPORT. What the shared operations on memory, flags, rows and foil channels
leave as it was, one lemma for each: every field of the state that the operation cannot change, and where
it can change part of job control or of the attention logic, the fields of those that it cannot. -/

namespace Sys2Proof.Machine

/-- The web position is read from the web position unit alone. -/
@[simp] theorem State.with_web (s : State) :
    (∀ x, (s.withCylGens x).web = s.web) ∧
    (∀ x, (s.withFoilGens x).web = s.web) ∧
    (∀ x, (s.withMark x).web = s.web) ∧
    (∀ x, (s.withTrack x).web = s.web) ∧
    (∀ x, (s.withLastRetired x).web = s.web) ∧
    (∀ x, (s.withStations x).web = s.web) ∧
    (∀ x, (s.withChannels x).web = s.web) ∧
    (∀ x, (s.withJobs x).web = s.web) ∧
    (∀ x, (s.withStore x).web = s.web) ∧
    (∀ x, (s.withMem x).web = s.web) ∧
    (∀ x, (s.withEngine x).web = s.web) ∧
    (∀ x, (s.withAttn x).web = s.web) ∧
    (∀ x, (s.withRecords x).web = s.web) ∧
    (∀ x, (s.withGeneration x).web = s.web) ∧
    (∀ x, (s.withFreeCount x).web = s.web) ∧
    (∀ x, (s.withPending x).web = s.web) := by
  and_intros <;> exact fun _ => rfl

/-- CURRENT is read from job control alone. -/
@[simp] theorem State.with_cur (s : State) :
    (∀ x, (s.withWpu x).cur = s.cur) ∧
    (∀ x, (s.withCylGens x).cur = s.cur) ∧
    (∀ x, (s.withFoilGens x).cur = s.cur) ∧
    (∀ x, (s.withMark x).cur = s.cur) ∧
    (∀ x, (s.withTrack x).cur = s.cur) ∧
    (∀ x, (s.withLastRetired x).cur = s.cur) ∧
    (∀ x, (s.withStations x).cur = s.cur) ∧
    (∀ x, (s.withChannels x).cur = s.cur) ∧
    (∀ x, (s.withStore x).cur = s.cur) ∧
    (∀ x, (s.withMem x).cur = s.cur) ∧
    (∀ x, (s.withEngine x).cur = s.cur) ∧
    (∀ x, (s.withAttn x).cur = s.cur) ∧
    (∀ x, (s.withRecords x).cur = s.cur) ∧
    (∀ x, (s.withGeneration x).cur = s.cur) ∧
    (∀ x, (s.withFreeCount x).cur = s.cur) ∧
    (∀ x, (s.withPending x).cur = s.cur) := by
  and_intros <;> exact fun _ => rfl

/-- Signalling a change sends or does not send a message; the causes, the enables and the configuration
space are as the change made them. -/
@[simp] theorem Attention.signal_frame (a b : Attention) :
    (a.signal b).causes = b.causes ∧ (a.signal b).enables = b.enables ∧
      (a.signal b).config = b.config := by
  unfold Attention.signal
  split <;> simp

/-- Setting a cause sets its bit and nothing else of the causes, the enables and the configuration. -/
@[simp] theorem Attention.raise_frame (a : Attention) (c : AttnCause) :
    (a.raise c).causes = a.causes ||| BitVec.twoPow 18 c.bit ∧ (a.raise c).enables = a.enables ∧
      (a.raise c).config = a.config := by
  simp [Attention.raise]

/-- What each action keeps, taking them for all eight channels keeps. -/
theorem forChannels_keeps {α : Type} (g : State → α) (f : Fin 8 → State → State)
    (h : ∀ c s, g (f c s) = g s) (s : State) : g (forChannels f s) = g s := by
  simp [forChannels, h]

/-- What each action keeps, taking them for all four stations keeps. -/
theorem forStations_keeps {α : Type} (g : State → α) (f : Fin 4 → State → State)
    (h : ∀ st s, g (f st s) = g s) (s : State) : g (forStations f s) = g s := by
  simp [forStations, h]

/-- What an action keeps, taking it at the channels that serve a station keeps. -/
theorem serving_keeps {α : Type} (g : State → α) (st : Fin 4) (f : Fin 8 → State → State)
    (h : ∀ c s, g (f c s) = g s) (s : State) : g (s.serving st f) = g s := by
  refine forChannels_keeps g _ (fun c s => ?_) s
  split
  · exact h c s
  · rfl

@[simp] theorem State.writeMem_frame (a : Nat) (bs : List Byte) (s : State) :
    (s.writeMem a bs).wpu = s.wpu ∧
    (s.writeMem a bs).cylGens = s.cylGens ∧
    (s.writeMem a bs).foilGens = s.foilGens ∧
    (s.writeMem a bs).mark = s.mark ∧
    (s.writeMem a bs).track = s.track ∧
    (s.writeMem a bs).lastRetired = s.lastRetired ∧
    (s.writeMem a bs).stations = s.stations ∧
    (s.writeMem a bs).channels = s.channels ∧
    (s.writeMem a bs).jobs = s.jobs ∧
    (s.writeMem a bs).store = s.store ∧
    (s.writeMem a bs).engine = s.engine ∧
    (s.writeMem a bs).attn = s.attn ∧
    (s.writeMem a bs).records = s.records ∧
    (s.writeMem a bs).generation = s.generation ∧
    (s.writeMem a bs).freeCount = s.freeCount ∧
    (s.writeMem a bs).pending = s.pending ∧
    (s.writeMem a bs).web = s.web ∧
    (s.writeMem a bs).cur = s.cur := by
  unfold State.writeMem
  simp

@[simp] theorem State.writeWord_frame (a : Nat) (w : Word) (s : State) :
    (s.writeWord a w).wpu = s.wpu ∧
    (s.writeWord a w).cylGens = s.cylGens ∧
    (s.writeWord a w).foilGens = s.foilGens ∧
    (s.writeWord a w).mark = s.mark ∧
    (s.writeWord a w).track = s.track ∧
    (s.writeWord a w).lastRetired = s.lastRetired ∧
    (s.writeWord a w).stations = s.stations ∧
    (s.writeWord a w).channels = s.channels ∧
    (s.writeWord a w).jobs = s.jobs ∧
    (s.writeWord a w).store = s.store ∧
    (s.writeWord a w).engine = s.engine ∧
    (s.writeWord a w).attn = s.attn ∧
    (s.writeWord a w).records = s.records ∧
    (s.writeWord a w).generation = s.generation ∧
    (s.writeWord a w).freeCount = s.freeCount ∧
    (s.writeWord a w).pending = s.pending ∧
    (s.writeWord a w).web = s.web ∧
    (s.writeWord a w).cur = s.cur := by
  unfold State.writeWord
  simp

@[simp] theorem State.raise_frame (c : AttnCause) (s : State) :
    (s.raise c).wpu = s.wpu ∧
    (s.raise c).cylGens = s.cylGens ∧
    (s.raise c).foilGens = s.foilGens ∧
    (s.raise c).mark = s.mark ∧
    (s.raise c).track = s.track ∧
    (s.raise c).lastRetired = s.lastRetired ∧
    (s.raise c).stations = s.stations ∧
    (s.raise c).channels = s.channels ∧
    (s.raise c).jobs = s.jobs ∧
    (s.raise c).store = s.store ∧
    (s.raise c).mem = s.mem ∧
    (s.raise c).engine = s.engine ∧
    (s.raise c).attn.enables = s.attn.enables ∧
    (s.raise c).attn.config = s.attn.config ∧
    (s.raise c).records = s.records ∧
    (s.raise c).generation = s.generation ∧
    (s.raise c).freeCount = s.freeCount ∧
    (s.raise c).pending = s.pending ∧
    (s.raise c).web = s.web ∧
    (s.raise c).cur = s.cur := by
  simp [State.raise]

@[simp] theorem State.handStop_frame (c : StopCause) (s : State) :
    (s.handStop c).wpu = s.wpu ∧
    (s.handStop c).cylGens = s.cylGens ∧
    (s.handStop c).foilGens = s.foilGens ∧
    (s.handStop c).mark = s.mark ∧
    (s.handStop c).track = s.track ∧
    (s.handStop c).lastRetired = s.lastRetired ∧
    (s.handStop c).stations = s.stations ∧
    (s.handStop c).channels = s.channels ∧
    (s.handStop c).jobs.run = s.jobs.run ∧
    (s.handStop c).jobs.holdCause = s.jobs.holdCause ∧
    (s.handStop c).jobs.next = s.jobs.next ∧
    (s.handStop c).jobs.current = s.jobs.current ∧
    (s.handStop c).jobs.firstRow = s.jobs.firstRow ∧
    (s.handStop c).store = s.store ∧
    (s.handStop c).mem = s.mem ∧
    (s.handStop c).engine = s.engine ∧
    (s.handStop c).attn = s.attn ∧
    (s.handStop c).records = s.records ∧
    (s.handStop c).generation = s.generation ∧
    (s.handStop c).freeCount = s.freeCount ∧
    (s.handStop c).pending = s.pending ∧
    (s.handStop c).web = s.web ∧
    (s.handStop c).cur = s.cur := by
  simp [State.handStop, JobControl.handStop, State.cur]

@[simp] theorem State.raiseStop_frame (a : AttnCause) (c : StopCause) (s : State) :
    (s.raiseStop a c).wpu = s.wpu ∧
    (s.raiseStop a c).cylGens = s.cylGens ∧
    (s.raiseStop a c).foilGens = s.foilGens ∧
    (s.raiseStop a c).mark = s.mark ∧
    (s.raiseStop a c).track = s.track ∧
    (s.raiseStop a c).lastRetired = s.lastRetired ∧
    (s.raiseStop a c).stations = s.stations ∧
    (s.raiseStop a c).channels = s.channels ∧
    (s.raiseStop a c).jobs.run = s.jobs.run ∧
    (s.raiseStop a c).jobs.holdCause = s.jobs.holdCause ∧
    (s.raiseStop a c).jobs.next = s.jobs.next ∧
    (s.raiseStop a c).jobs.current = s.jobs.current ∧
    (s.raiseStop a c).jobs.firstRow = s.jobs.firstRow ∧
    (s.raiseStop a c).store = s.store ∧
    (s.raiseStop a c).mem = s.mem ∧
    (s.raiseStop a c).engine = s.engine ∧
    (s.raiseStop a c).attn.enables = s.attn.enables ∧
    (s.raiseStop a c).attn.config = s.attn.config ∧
    (s.raiseStop a c).records = s.records ∧
    (s.raiseStop a c).generation = s.generation ∧
    (s.raiseStop a c).freeCount = s.freeCount ∧
    (s.raiseStop a c).pending = s.pending ∧
    (s.raiseStop a c).web = s.web ∧
    (s.raiseStop a c).cur = s.cur := by
  unfold State.raiseStop
  simp

@[simp] theorem State.setGen_frame (i : GenId) (g : StepGen) (s : State) :
    (s.setGen i g).wpu = s.wpu ∧
    (s.setGen i g).mark = s.mark ∧
    (s.setGen i g).track = s.track ∧
    (s.setGen i g).lastRetired = s.lastRetired ∧
    (s.setGen i g).stations = s.stations ∧
    (s.setGen i g).channels = s.channels ∧
    (s.setGen i g).jobs = s.jobs ∧
    (s.setGen i g).store = s.store ∧
    (s.setGen i g).mem = s.mem ∧
    (s.setGen i g).engine = s.engine ∧
    (s.setGen i g).attn = s.attn ∧
    (s.setGen i g).records = s.records ∧
    (s.setGen i g).generation = s.generation ∧
    (s.setGen i g).freeCount = s.freeCount ∧
    (s.setGen i g).pending = s.pending ∧
    (s.setGen i g).web = s.web ∧
    (s.setGen i g).cur = s.cur := by
  unfold State.setGen
  cases i <;> simp

@[simp] theorem State.setRatio_frame (i : GenId) (r : Nat) (s : State) :
    (s.setRatio i r).wpu = s.wpu ∧
    (s.setRatio i r).mark = s.mark ∧
    (s.setRatio i r).track = s.track ∧
    (s.setRatio i r).lastRetired = s.lastRetired ∧
    (s.setRatio i r).stations = s.stations ∧
    (s.setRatio i r).channels = s.channels ∧
    (s.setRatio i r).jobs = s.jobs ∧
    (s.setRatio i r).store = s.store ∧
    (s.setRatio i r).mem = s.mem ∧
    (s.setRatio i r).engine = s.engine ∧
    (s.setRatio i r).attn = s.attn ∧
    (s.setRatio i r).records = s.records ∧
    (s.setRatio i r).generation = s.generation ∧
    (s.setRatio i r).freeCount = s.freeCount ∧
    (s.setRatio i r).pending = s.pending ∧
    (s.setRatio i r).web = s.web ∧
    (s.setRatio i r).cur = s.cur := by
  unfold State.setRatio
  simp

@[simp] theorem State.setStation_frame (st : Fin 4) (x : Station) (s : State) :
    (s.setStation st x).wpu = s.wpu ∧
    (s.setStation st x).cylGens = s.cylGens ∧
    (s.setStation st x).foilGens = s.foilGens ∧
    (s.setStation st x).mark = s.mark ∧
    (s.setStation st x).track = s.track ∧
    (s.setStation st x).lastRetired = s.lastRetired ∧
    (s.setStation st x).channels = s.channels ∧
    (s.setStation st x).jobs = s.jobs ∧
    (s.setStation st x).store = s.store ∧
    (s.setStation st x).mem = s.mem ∧
    (s.setStation st x).engine = s.engine ∧
    (s.setStation st x).attn = s.attn ∧
    (s.setStation st x).records = s.records ∧
    (s.setStation st x).generation = s.generation ∧
    (s.setStation st x).freeCount = s.freeCount ∧
    (s.setStation st x).pending = s.pending ∧
    (s.setStation st x).web = s.web ∧
    (s.setStation st x).cur = s.cur := by
  unfold State.setStation
  simp

@[simp] theorem State.setChannel_frame (c : Fin 8) (x : Channel) (s : State) :
    (s.setChannel c x).wpu = s.wpu ∧
    (s.setChannel c x).cylGens = s.cylGens ∧
    (s.setChannel c x).foilGens = s.foilGens ∧
    (s.setChannel c x).mark = s.mark ∧
    (s.setChannel c x).track = s.track ∧
    (s.setChannel c x).lastRetired = s.lastRetired ∧
    (s.setChannel c x).stations = s.stations ∧
    (s.setChannel c x).jobs = s.jobs ∧
    (s.setChannel c x).store = s.store ∧
    (s.setChannel c x).mem = s.mem ∧
    (s.setChannel c x).engine = s.engine ∧
    (s.setChannel c x).attn = s.attn ∧
    (s.setChannel c x).records = s.records ∧
    (s.setChannel c x).generation = s.generation ∧
    (s.setChannel c x).freeCount = s.freeCount ∧
    (s.setChannel c x).pending = s.pending ∧
    (s.setChannel c x).web = s.web ∧
    (s.setChannel c x).cur = s.cur := by
  unfold State.setChannel
  simp

@[simp] theorem State.mapRow_frame (n : Word) (f : RowCtx → RowCtx) (s : State) :
    (s.mapRow n f).wpu = s.wpu ∧
    (s.mapRow n f).cylGens = s.cylGens ∧
    (s.mapRow n f).foilGens = s.foilGens ∧
    (s.mapRow n f).mark = s.mark ∧
    (s.mapRow n f).lastRetired = s.lastRetired ∧
    (s.mapRow n f).stations = s.stations ∧
    (s.mapRow n f).channels = s.channels ∧
    (s.mapRow n f).jobs = s.jobs ∧
    (s.mapRow n f).store = s.store ∧
    (s.mapRow n f).mem = s.mem ∧
    (s.mapRow n f).engine = s.engine ∧
    (s.mapRow n f).attn = s.attn ∧
    (s.mapRow n f).records = s.records ∧
    (s.mapRow n f).generation = s.generation ∧
    (s.mapRow n f).freeCount = s.freeCount ∧
    (s.mapRow n f).pending = s.pending ∧
    (s.mapRow n f).web = s.web ∧
    (s.mapRow n f).cur = s.cur := by
  unfold State.mapRow
  simp

@[simp] theorem State.mapEntries_frame (st : Fin 4) (f : StationEntry → StationEntry) (s : State) :
    (s.mapEntries st f).wpu = s.wpu ∧
    (s.mapEntries st f).cylGens = s.cylGens ∧
    (s.mapEntries st f).foilGens = s.foilGens ∧
    (s.mapEntries st f).mark = s.mark ∧
    (s.mapEntries st f).lastRetired = s.lastRetired ∧
    (s.mapEntries st f).stations = s.stations ∧
    (s.mapEntries st f).channels = s.channels ∧
    (s.mapEntries st f).jobs = s.jobs ∧
    (s.mapEntries st f).store = s.store ∧
    (s.mapEntries st f).mem = s.mem ∧
    (s.mapEntries st f).engine = s.engine ∧
    (s.mapEntries st f).attn = s.attn ∧
    (s.mapEntries st f).records = s.records ∧
    (s.mapEntries st f).generation = s.generation ∧
    (s.mapEntries st f).freeCount = s.freeCount ∧
    (s.mapEntries st f).pending = s.pending ∧
    (s.mapEntries st f).web = s.web ∧
    (s.mapEntries st f).cur = s.cur := by
  unfold State.mapEntries
  simp

@[simp] theorem State.mapEntry_frame (st : Fin 4) (n : Word) (f : StationEntry → StationEntry) (s : State) :
    (s.mapEntry st n f).wpu = s.wpu ∧
    (s.mapEntry st n f).cylGens = s.cylGens ∧
    (s.mapEntry st n f).foilGens = s.foilGens ∧
    (s.mapEntry st n f).mark = s.mark ∧
    (s.mapEntry st n f).lastRetired = s.lastRetired ∧
    (s.mapEntry st n f).stations = s.stations ∧
    (s.mapEntry st n f).channels = s.channels ∧
    (s.mapEntry st n f).jobs = s.jobs ∧
    (s.mapEntry st n f).store = s.store ∧
    (s.mapEntry st n f).mem = s.mem ∧
    (s.mapEntry st n f).engine = s.engine ∧
    (s.mapEntry st n f).attn = s.attn ∧
    (s.mapEntry st n f).records = s.records ∧
    (s.mapEntry st n f).generation = s.generation ∧
    (s.mapEntry st n f).freeCount = s.freeCount ∧
    (s.mapEntry st n f).pending = s.pending ∧
    (s.mapEntry st n f).web = s.web ∧
    (s.mapEntry st n f).cur = s.cur := by
  unfold State.mapEntry
  simp

@[simp] theorem State.mapCharge_frame (c : Fin 8) (n : Word) (f : ChannelEntry → ChannelEntry) (s : State) :
    (s.mapCharge c n f).wpu = s.wpu ∧
    (s.mapCharge c n f).cylGens = s.cylGens ∧
    (s.mapCharge c n f).foilGens = s.foilGens ∧
    (s.mapCharge c n f).mark = s.mark ∧
    (s.mapCharge c n f).lastRetired = s.lastRetired ∧
    (s.mapCharge c n f).stations = s.stations ∧
    (s.mapCharge c n f).channels = s.channels ∧
    (s.mapCharge c n f).jobs = s.jobs ∧
    (s.mapCharge c n f).store = s.store ∧
    (s.mapCharge c n f).mem = s.mem ∧
    (s.mapCharge c n f).engine = s.engine ∧
    (s.mapCharge c n f).attn = s.attn ∧
    (s.mapCharge c n f).records = s.records ∧
    (s.mapCharge c n f).generation = s.generation ∧
    (s.mapCharge c n f).freeCount = s.freeCount ∧
    (s.mapCharge c n f).pending = s.pending ∧
    (s.mapCharge c n f).web = s.web ∧
    (s.mapCharge c n f).cur = s.cur := by
  unfold State.mapCharge
  simp

@[simp] theorem State.foilTick_frame (c : Fin 8) (s : State) :
    (s.foilTick c).wpu = s.wpu ∧
    (s.foilTick c).cylGens = s.cylGens ∧
    (s.foilTick c).mark = s.mark ∧
    (s.foilTick c).lastRetired = s.lastRetired ∧
    (s.foilTick c).stations = s.stations ∧
    (s.foilTick c).jobs.run = s.jobs.run ∧
    (s.foilTick c).jobs.holdCause = s.jobs.holdCause ∧
    (s.foilTick c).jobs.next = s.jobs.next ∧
    (s.foilTick c).jobs.current = s.jobs.current ∧
    (s.foilTick c).jobs.firstRow = s.jobs.firstRow ∧
    (s.foilTick c).store = s.store ∧
    (s.foilTick c).mem = s.mem ∧
    (s.foilTick c).engine = s.engine ∧
    (s.foilTick c).attn.enables = s.attn.enables ∧
    (s.foilTick c).attn.config = s.attn.config ∧
    (s.foilTick c).records = s.records ∧
    (s.foilTick c).generation = s.generation ∧
    (s.foilTick c).freeCount = s.freeCount ∧
    (s.foilTick c).pending = s.pending ∧
    (s.foilTick c).web = s.web ∧
    (s.foilTick c).cur = s.cur := by
  unfold State.foilTick
  dsimp only
  cases (s.channel c).chargedRow <;> dsimp only <;> split_ifs <;> simp [State.setGen]

@[simp] theorem State.foilMotion_frame (c : Fin 8) (s : State) :
    (s.foilMotion c).wpu = s.wpu ∧
    (s.foilMotion c).cylGens = s.cylGens ∧
    (s.foilMotion c).mark = s.mark ∧
    (s.foilMotion c).lastRetired = s.lastRetired ∧
    (s.foilMotion c).stations = s.stations ∧
    (s.foilMotion c).jobs.run = s.jobs.run ∧
    (s.foilMotion c).jobs.holdCause = s.jobs.holdCause ∧
    (s.foilMotion c).jobs.next = s.jobs.next ∧
    (s.foilMotion c).jobs.current = s.jobs.current ∧
    (s.foilMotion c).jobs.firstRow = s.jobs.firstRow ∧
    (s.foilMotion c).store = s.store ∧
    (s.foilMotion c).mem = s.mem ∧
    (s.foilMotion c).engine = s.engine ∧
    (s.foilMotion c).attn.enables = s.attn.enables ∧
    (s.foilMotion c).attn.config = s.attn.config ∧
    (s.foilMotion c).records = s.records ∧
    (s.foilMotion c).generation = s.generation ∧
    (s.foilMotion c).freeCount = s.freeCount ∧
    (s.foilMotion c).pending = s.pending ∧
    (s.foilMotion c).web = s.web ∧
    (s.foilMotion c).cur = s.cur := by
  unfold State.foilMotion
  dsimp only
  split_ifs <;> simp

@[simp] theorem State.markLate_frame (c : Fin 8) (n : Word) (s : State) :
    (s.markLate c n).wpu = s.wpu ∧
    (s.markLate c n).cylGens = s.cylGens ∧
    (s.markLate c n).foilGens = s.foilGens ∧
    (s.markLate c n).mark = s.mark ∧
    (s.markLate c n).lastRetired = s.lastRetired ∧
    (s.markLate c n).stations = s.stations ∧
    (s.markLate c n).channels = s.channels ∧
    (s.markLate c n).jobs = s.jobs ∧
    (s.markLate c n).store = s.store ∧
    (s.markLate c n).mem = s.mem ∧
    (s.markLate c n).engine = s.engine ∧
    (s.markLate c n).attn.enables = s.attn.enables ∧
    (s.markLate c n).attn.config = s.attn.config ∧
    (s.markLate c n).records = s.records ∧
    (s.markLate c n).generation = s.generation ∧
    (s.markLate c n).freeCount = s.freeCount ∧
    (s.markLate c n).pending = s.pending ∧
    (s.markLate c n).web = s.web ∧
    (s.markLate c n).cur = s.cur := by
  unfold State.markLate
  simp

@[simp] theorem State.tryRampUp_frame (c : Fin 8) (h : Pos) (s : State) :
    (s.tryRampUp c h).wpu = s.wpu ∧
    (s.tryRampUp c h).cylGens = s.cylGens ∧
    (s.tryRampUp c h).foilGens = s.foilGens ∧
    (s.tryRampUp c h).mark = s.mark ∧
    (s.tryRampUp c h).lastRetired = s.lastRetired ∧
    (s.tryRampUp c h).stations = s.stations ∧
    (s.tryRampUp c h).jobs = s.jobs ∧
    (s.tryRampUp c h).store = s.store ∧
    (s.tryRampUp c h).mem = s.mem ∧
    (s.tryRampUp c h).engine = s.engine ∧
    (s.tryRampUp c h).attn.enables = s.attn.enables ∧
    (s.tryRampUp c h).attn.config = s.attn.config ∧
    (s.tryRampUp c h).records = s.records ∧
    (s.tryRampUp c h).generation = s.generation ∧
    (s.tryRampUp c h).freeCount = s.freeCount ∧
    (s.tryRampUp c h).pending = s.pending ∧
    (s.tryRampUp c h).web = s.web ∧
    (s.tryRampUp c h).cur = s.cur := by
  unfold State.tryRampUp
  split
  · split
    · dsimp only
      split_ifs <;> simp
    · simp
  · simp

@[simp] theorem State.hop_frame (c : Fin 8) (x y : Stroke) (len : Nat) (s : State) :
    (s.hop c x y len).wpu = s.wpu ∧
    (s.hop c x y len).cylGens = s.cylGens ∧
    (s.hop c x y len).foilGens = s.foilGens ∧
    (s.hop c x y len).mark = s.mark ∧
    (s.hop c x y len).lastRetired = s.lastRetired ∧
    (s.hop c x y len).stations = s.stations ∧
    (s.hop c x y len).jobs = s.jobs ∧
    (s.hop c x y len).store = s.store ∧
    (s.hop c x y len).mem = s.mem ∧
    (s.hop c x y len).engine = s.engine ∧
    (s.hop c x y len).attn = s.attn ∧
    (s.hop c x y len).records = s.records ∧
    (s.hop c x y len).generation = s.generation ∧
    (s.hop c x y len).freeCount = s.freeCount ∧
    (s.hop c x y len).pending = s.pending ∧
    (s.hop c x y len).web = s.web ∧
    (s.hop c x y len).cur = s.cur := by
  unfold State.hop
  simp

@[simp] theorem State.merge_frame (c : Fin 8) (h : Pos) (x y : Stroke) (s : State) :
    (s.merge c h x y).wpu = s.wpu ∧
    (s.merge c h x y).cylGens = s.cylGens ∧
    (s.merge c h x y).foilGens = s.foilGens ∧
    (s.merge c h x y).mark = s.mark ∧
    (s.merge c h x y).lastRetired = s.lastRetired ∧
    (s.merge c h x y).stations = s.stations ∧
    (s.merge c h x y).jobs = s.jobs ∧
    (s.merge c h x y).store = s.store ∧
    (s.merge c h x y).mem = s.mem ∧
    (s.merge c h x y).engine = s.engine ∧
    (s.merge c h x y).attn = s.attn ∧
    (s.merge c h x y).records = s.records ∧
    (s.merge c h x y).generation = s.generation ∧
    (s.merge c h x y).freeCount = s.freeCount ∧
    (s.merge c h x y).pending = s.pending ∧
    (s.merge c h x y).web = s.web ∧
    (s.merge c h x y).cur = s.cur := by
  unfold State.merge
  simp

@[simp] theorem State.strokeEnd_frame (c : Fin 8) (h : Pos) (x : Stroke) (s : State) :
    (s.strokeEnd c h x).wpu = s.wpu ∧
    (s.strokeEnd c h x).cylGens = s.cylGens ∧
    (s.strokeEnd c h x).foilGens = s.foilGens ∧
    (s.strokeEnd c h x).mark = s.mark ∧
    (s.strokeEnd c h x).lastRetired = s.lastRetired ∧
    (s.strokeEnd c h x).stations = s.stations ∧
    (s.strokeEnd c h x).jobs = s.jobs ∧
    (s.strokeEnd c h x).store = s.store ∧
    (s.strokeEnd c h x).mem = s.mem ∧
    (s.strokeEnd c h x).engine = s.engine ∧
    (s.strokeEnd c h x).attn = s.attn ∧
    (s.strokeEnd c h x).records = s.records ∧
    (s.strokeEnd c h x).generation = s.generation ∧
    (s.strokeEnd c h x).freeCount = s.freeCount ∧
    (s.strokeEnd c h x).pending = s.pending ∧
    (s.strokeEnd c h x).web = s.web ∧
    (s.strokeEnd c h x).cur = s.cur := by
  unfold State.strokeEnd
  dsimp only
  split
  · simp
  · split_ifs <;> simp

@[simp] theorem State.strokeEnds_frame (c : Fin 8) (h : Pos) (n : Nat) (s : State) :
    (s.strokeEnds c h n).wpu = s.wpu ∧
    (s.strokeEnds c h n).cylGens = s.cylGens ∧
    (s.strokeEnds c h n).foilGens = s.foilGens ∧
    (s.strokeEnds c h n).mark = s.mark ∧
    (s.strokeEnds c h n).lastRetired = s.lastRetired ∧
    (s.strokeEnds c h n).stations = s.stations ∧
    (s.strokeEnds c h n).jobs = s.jobs ∧
    (s.strokeEnds c h n).store = s.store ∧
    (s.strokeEnds c h n).mem = s.mem ∧
    (s.strokeEnds c h n).engine = s.engine ∧
    (s.strokeEnds c h n).attn = s.attn ∧
    (s.strokeEnds c h n).records = s.records ∧
    (s.strokeEnds c h n).generation = s.generation ∧
    (s.strokeEnds c h n).freeCount = s.freeCount ∧
    (s.strokeEnds c h n).pending = s.pending ∧
    (s.strokeEnds c h n).web = s.web ∧
    (s.strokeEnds c h n).cur = s.cur := by
  induction n generalizing s with
  | zero => simp [State.strokeEnds]
  | succ n ih =>
    unfold State.strokeEnds
    split
    · split <;> simp [ih]
    · simp

@[simp] theorem State.mergeGapEnd_frame (c : Fin 8) (h : Pos) (s : State) :
    (s.mergeGapEnd c h).wpu = s.wpu ∧
    (s.mergeGapEnd c h).cylGens = s.cylGens ∧
    (s.mergeGapEnd c h).foilGens = s.foilGens ∧
    (s.mergeGapEnd c h).mark = s.mark ∧
    (s.mergeGapEnd c h).track = s.track ∧
    (s.mergeGapEnd c h).lastRetired = s.lastRetired ∧
    (s.mergeGapEnd c h).stations = s.stations ∧
    (s.mergeGapEnd c h).jobs = s.jobs ∧
    (s.mergeGapEnd c h).store = s.store ∧
    (s.mergeGapEnd c h).mem = s.mem ∧
    (s.mergeGapEnd c h).engine = s.engine ∧
    (s.mergeGapEnd c h).attn = s.attn ∧
    (s.mergeGapEnd c h).records = s.records ∧
    (s.mergeGapEnd c h).generation = s.generation ∧
    (s.mergeGapEnd c h).freeCount = s.freeCount ∧
    (s.mergeGapEnd c h).pending = s.pending ∧
    (s.mergeGapEnd c h).web = s.web ∧
    (s.mergeGapEnd c h).cur = s.cur := by
  unfold State.mergeGapEnd
  dsimp only
  split
  · split_ifs <;> simp
  · simp

@[simp] theorem State.syncActions_frame (c : Fin 8) (h : Pos) (s : State) :
    (s.syncActions c h).wpu = s.wpu ∧
    (s.syncActions c h).cylGens = s.cylGens ∧
    (s.syncActions c h).foilGens = s.foilGens ∧
    (s.syncActions c h).mark = s.mark ∧
    (s.syncActions c h).lastRetired = s.lastRetired ∧
    (s.syncActions c h).stations = s.stations ∧
    (s.syncActions c h).jobs = s.jobs ∧
    (s.syncActions c h).store = s.store ∧
    (s.syncActions c h).mem = s.mem ∧
    (s.syncActions c h).engine = s.engine ∧
    (s.syncActions c h).attn = s.attn ∧
    (s.syncActions c h).records = s.records ∧
    (s.syncActions c h).generation = s.generation ∧
    (s.syncActions c h).freeCount = s.freeCount ∧
    (s.syncActions c h).pending = s.pending ∧
    (s.syncActions c h).web = s.web ∧
    (s.syncActions c h).cur = s.cur := by
  unfold State.syncActions
  simp

@[simp] theorem State.rampUpEnd_frame (c : Fin 8) (h : Pos) (s : State) :
    (s.rampUpEnd c h).wpu = s.wpu ∧
    (s.rampUpEnd c h).cylGens = s.cylGens ∧
    (s.rampUpEnd c h).foilGens = s.foilGens ∧
    (s.rampUpEnd c h).mark = s.mark ∧
    (s.rampUpEnd c h).lastRetired = s.lastRetired ∧
    (s.rampUpEnd c h).stations = s.stations ∧
    (s.rampUpEnd c h).jobs = s.jobs ∧
    (s.rampUpEnd c h).store = s.store ∧
    (s.rampUpEnd c h).mem = s.mem ∧
    (s.rampUpEnd c h).engine = s.engine ∧
    (s.rampUpEnd c h).attn = s.attn ∧
    (s.rampUpEnd c h).records = s.records ∧
    (s.rampUpEnd c h).generation = s.generation ∧
    (s.rampUpEnd c h).freeCount = s.freeCount ∧
    (s.rampUpEnd c h).pending = s.pending ∧
    (s.rampUpEnd c h).web = s.web ∧
    (s.rampUpEnd c h).cur = s.cur := by
  unfold State.rampUpEnd
  simp

@[simp] theorem State.rampDownEnd_frame (c : Fin 8) (h : Pos) (s : State) :
    (s.rampDownEnd c h).wpu = s.wpu ∧
    (s.rampDownEnd c h).cylGens = s.cylGens ∧
    (s.rampDownEnd c h).foilGens = s.foilGens ∧
    (s.rampDownEnd c h).mark = s.mark ∧
    (s.rampDownEnd c h).lastRetired = s.lastRetired ∧
    (s.rampDownEnd c h).stations = s.stations ∧
    (s.rampDownEnd c h).jobs = s.jobs ∧
    (s.rampDownEnd c h).store = s.store ∧
    (s.rampDownEnd c h).mem = s.mem ∧
    (s.rampDownEnd c h).engine = s.engine ∧
    (s.rampDownEnd c h).attn.enables = s.attn.enables ∧
    (s.rampDownEnd c h).attn.config = s.attn.config ∧
    (s.rampDownEnd c h).records = s.records ∧
    (s.rampDownEnd c h).generation = s.generation ∧
    (s.rampDownEnd c h).freeCount = s.freeCount ∧
    (s.rampDownEnd c h).pending = s.pending ∧
    (s.rampDownEnd c h).web = s.web ∧
    (s.rampDownEnd c h).cur = s.cur := by
  unfold State.rampDownEnd
  simp

@[simp] theorem State.foilActions_frame (c : Fin 8) (h : Pos) (s : State) :
    (s.foilActions c h).wpu = s.wpu ∧
    (s.foilActions c h).cylGens = s.cylGens ∧
    (s.foilActions c h).foilGens = s.foilGens ∧
    (s.foilActions c h).mark = s.mark ∧
    (s.foilActions c h).lastRetired = s.lastRetired ∧
    (s.foilActions c h).stations = s.stations ∧
    (s.foilActions c h).jobs = s.jobs ∧
    (s.foilActions c h).store = s.store ∧
    (s.foilActions c h).mem = s.mem ∧
    (s.foilActions c h).engine = s.engine ∧
    (s.foilActions c h).attn.enables = s.attn.enables ∧
    (s.foilActions c h).attn.config = s.attn.config ∧
    (s.foilActions c h).records = s.records ∧
    (s.foilActions c h).generation = s.generation ∧
    (s.foilActions c h).freeCount = s.freeCount ∧
    (s.foilActions c h).pending = s.pending ∧
    (s.foilActions c h).web = s.web ∧
    (s.foilActions c h).cur = s.cur := by
  unfold State.foilActions
  dsimp only
  split <;> (try split_ifs) <;> simp

@[simp] theorem State.webTick_frame (c : Fin 8) (h : Pos) (s : State) :
    (s.webTick c h).wpu = s.wpu ∧
    (s.webTick c h).cylGens = s.cylGens ∧
    (s.webTick c h).mark = s.mark ∧
    (s.webTick c h).lastRetired = s.lastRetired ∧
    (s.webTick c h).stations = s.stations ∧
    (s.webTick c h).jobs.run = s.jobs.run ∧
    (s.webTick c h).jobs.holdCause = s.jobs.holdCause ∧
    (s.webTick c h).jobs.next = s.jobs.next ∧
    (s.webTick c h).jobs.current = s.jobs.current ∧
    (s.webTick c h).jobs.firstRow = s.jobs.firstRow ∧
    (s.webTick c h).store = s.store ∧
    (s.webTick c h).mem = s.mem ∧
    (s.webTick c h).engine = s.engine ∧
    (s.webTick c h).attn.enables = s.attn.enables ∧
    (s.webTick c h).attn.config = s.attn.config ∧
    (s.webTick c h).records = s.records ∧
    (s.webTick c h).generation = s.generation ∧
    (s.webTick c h).freeCount = s.freeCount ∧
    (s.webTick c h).pending = s.pending ∧
    (s.webTick c h).web = s.web ∧
    (s.webTick c h).cur = s.cur := by
  unfold State.webTick
  simp

@[simp] theorem State.webTicks_frame (c : Fin 8) (n : Nat) (h : Pos) (s : State) :
    (s.webTicks c n h).wpu = s.wpu ∧
    (s.webTicks c n h).cylGens = s.cylGens ∧
    (s.webTicks c n h).mark = s.mark ∧
    (s.webTicks c n h).lastRetired = s.lastRetired ∧
    (s.webTicks c n h).stations = s.stations ∧
    (s.webTicks c n h).jobs.run = s.jobs.run ∧
    (s.webTicks c n h).jobs.holdCause = s.jobs.holdCause ∧
    (s.webTicks c n h).jobs.next = s.jobs.next ∧
    (s.webTicks c n h).jobs.current = s.jobs.current ∧
    (s.webTicks c n h).jobs.firstRow = s.jobs.firstRow ∧
    (s.webTicks c n h).store = s.store ∧
    (s.webTicks c n h).mem = s.mem ∧
    (s.webTicks c n h).engine = s.engine ∧
    (s.webTicks c n h).attn.enables = s.attn.enables ∧
    (s.webTicks c n h).attn.config = s.attn.config ∧
    (s.webTicks c n h).records = s.records ∧
    (s.webTicks c n h).generation = s.generation ∧
    (s.webTicks c n h).freeCount = s.freeCount ∧
    (s.webTicks c n h).pending = s.pending ∧
    (s.webTicks c n h).web = s.web ∧
    (s.webTicks c n h).cur = s.cur := by
  induction n generalizing s h with
  | zero => simp [State.webTicks]
  | succ n ih => simp [State.webTicks, ih]

@[simp] theorem State.foilAdvance_frame (h : Pos) (n : Nat) (c : Fin 8) (s : State) :
    (s.foilAdvance h n c).wpu = s.wpu ∧
    (s.foilAdvance h n c).cylGens = s.cylGens ∧
    (s.foilAdvance h n c).mark = s.mark ∧
    (s.foilAdvance h n c).lastRetired = s.lastRetired ∧
    (s.foilAdvance h n c).stations = s.stations ∧
    (s.foilAdvance h n c).jobs.run = s.jobs.run ∧
    (s.foilAdvance h n c).jobs.holdCause = s.jobs.holdCause ∧
    (s.foilAdvance h n c).jobs.next = s.jobs.next ∧
    (s.foilAdvance h n c).jobs.current = s.jobs.current ∧
    (s.foilAdvance h n c).jobs.firstRow = s.jobs.firstRow ∧
    (s.foilAdvance h n c).store = s.store ∧
    (s.foilAdvance h n c).mem = s.mem ∧
    (s.foilAdvance h n c).engine = s.engine ∧
    (s.foilAdvance h n c).attn.enables = s.attn.enables ∧
    (s.foilAdvance h n c).attn.config = s.attn.config ∧
    (s.foilAdvance h n c).records = s.records ∧
    (s.foilAdvance h n c).generation = s.generation ∧
    (s.foilAdvance h n c).freeCount = s.freeCount ∧
    (s.foilAdvance h n c).pending = s.pending ∧
    (s.foilAdvance h n c).web = s.web ∧
    (s.foilAdvance h n c).cur = s.cur := by
  unfold State.foilAdvance
  split <;> simp

@[simp] theorem State.foilRecheck_frame (c : Fin 8) (s : State) :
    (s.foilRecheck c).wpu = s.wpu ∧
    (s.foilRecheck c).cylGens = s.cylGens ∧
    (s.foilRecheck c).foilGens = s.foilGens ∧
    (s.foilRecheck c).mark = s.mark ∧
    (s.foilRecheck c).lastRetired = s.lastRetired ∧
    (s.foilRecheck c).stations = s.stations ∧
    (s.foilRecheck c).jobs = s.jobs ∧
    (s.foilRecheck c).store = s.store ∧
    (s.foilRecheck c).mem = s.mem ∧
    (s.foilRecheck c).engine = s.engine ∧
    (s.foilRecheck c).attn.enables = s.attn.enables ∧
    (s.foilRecheck c).attn.config = s.attn.config ∧
    (s.foilRecheck c).records = s.records ∧
    (s.foilRecheck c).generation = s.generation ∧
    (s.foilRecheck c).freeCount = s.freeCount ∧
    (s.foilRecheck c).pending = s.pending ∧
    (s.foilRecheck c).web = s.web ∧
    (s.foilRecheck c).cur = s.cur := by
  unfold State.foilRecheck
  split <;> simp

@[simp] theorem State.handover_frame (row : Word) (c : Fin 8) (s : State) :
    (s.handover row c).wpu = s.wpu ∧
    (s.handover row c).cylGens = s.cylGens ∧
    (s.handover row c).foilGens = s.foilGens ∧
    (s.handover row c).mark = s.mark ∧
    (s.handover row c).lastRetired = s.lastRetired ∧
    (s.handover row c).stations = s.stations ∧
    (s.handover row c).jobs = s.jobs ∧
    (s.handover row c).store = s.store ∧
    (s.handover row c).mem = s.mem ∧
    (s.handover row c).engine = s.engine ∧
    (s.handover row c).attn.enables = s.attn.enables ∧
    (s.handover row c).attn.config = s.attn.config ∧
    (s.handover row c).records = s.records ∧
    (s.handover row c).generation = s.generation ∧
    (s.handover row c).freeCount = s.freeCount ∧
    (s.handover row c).pending = s.pending ∧
    (s.handover row c).web = s.web ∧
    (s.handover row c).cur = s.cur := by
  unfold State.handover
  dsimp only
  split_ifs <;> simp

@[simp] theorem State.withdraw_frame (row : Word) (c : Fin 8) (s : State) :
    (s.withdraw row c).wpu = s.wpu ∧
    (s.withdraw row c).cylGens = s.cylGens ∧
    (s.withdraw row c).foilGens = s.foilGens ∧
    (s.withdraw row c).mark = s.mark ∧
    (s.withdraw row c).lastRetired = s.lastRetired ∧
    (s.withdraw row c).stations = s.stations ∧
    (s.withdraw row c).jobs = s.jobs ∧
    (s.withdraw row c).store = s.store ∧
    (s.withdraw row c).mem = s.mem ∧
    (s.withdraw row c).engine = s.engine ∧
    (s.withdraw row c).attn.enables = s.attn.enables ∧
    (s.withdraw row c).attn.config = s.attn.config ∧
    (s.withdraw row c).records = s.records ∧
    (s.withdraw row c).generation = s.generation ∧
    (s.withdraw row c).freeCount = s.freeCount ∧
    (s.withdraw row c).pending = s.pending ∧
    (s.withdraw row c).web = s.web ∧
    (s.withdraw row c).cur = s.cur := by
  unfold State.withdraw
  dsimp only
  split_ifs <;> simp

@[simp] theorem State.serving_foilRecheck_frame (st : Fin 4) (s : State) :
    (s.serving st State.foilRecheck).wpu = s.wpu ∧
    (s.serving st State.foilRecheck).cylGens = s.cylGens ∧
    (s.serving st State.foilRecheck).foilGens = s.foilGens ∧
    (s.serving st State.foilRecheck).mark = s.mark ∧
    (s.serving st State.foilRecheck).lastRetired = s.lastRetired ∧
    (s.serving st State.foilRecheck).stations = s.stations ∧
    (s.serving st State.foilRecheck).jobs = s.jobs ∧
    (s.serving st State.foilRecheck).store = s.store ∧
    (s.serving st State.foilRecheck).mem = s.mem ∧
    (s.serving st State.foilRecheck).engine = s.engine ∧
    (s.serving st State.foilRecheck).attn.enables = s.attn.enables ∧
    (s.serving st State.foilRecheck).attn.config = s.attn.config ∧
    (s.serving st State.foilRecheck).records = s.records ∧
    (s.serving st State.foilRecheck).generation = s.generation ∧
    (s.serving st State.foilRecheck).freeCount = s.freeCount ∧
    (s.serving st State.foilRecheck).pending = s.pending ∧
    (s.serving st State.foilRecheck).web = s.web ∧
    (s.serving st State.foilRecheck).cur = s.cur := by
  exact ⟨serving_keeps State.wpu _ _ (by simp) s,
    serving_keeps State.cylGens _ _ (by simp) s,
    serving_keeps State.foilGens _ _ (by simp) s,
    serving_keeps State.mark _ _ (by simp) s,
    serving_keeps State.lastRetired _ _ (by simp) s,
    serving_keeps State.stations _ _ (by simp) s,
    serving_keeps State.jobs _ _ (by simp) s,
    serving_keeps State.store _ _ (by simp) s,
    serving_keeps State.mem _ _ (by simp) s,
    serving_keeps State.engine _ _ (by simp) s,
    serving_keeps (fun s => s.attn.enables) _ _ (by simp) s,
    serving_keeps (fun s => s.attn.config) _ _ (by simp) s,
    serving_keeps State.records _ _ (by simp) s,
    serving_keeps State.generation _ _ (by simp) s,
    serving_keeps State.freeCount _ _ (by simp) s,
    serving_keeps State.pending _ _ (by simp) s,
    serving_keeps State.web _ _ (by simp) s,
    serving_keeps State.cur _ _ (by simp) s⟩

@[simp] theorem State.serving_handover_frame (st : Fin 4) (n : Word) (s : State) :
    (s.serving st (State.handover n)).wpu = s.wpu ∧
    (s.serving st (State.handover n)).cylGens = s.cylGens ∧
    (s.serving st (State.handover n)).foilGens = s.foilGens ∧
    (s.serving st (State.handover n)).mark = s.mark ∧
    (s.serving st (State.handover n)).lastRetired = s.lastRetired ∧
    (s.serving st (State.handover n)).stations = s.stations ∧
    (s.serving st (State.handover n)).jobs = s.jobs ∧
    (s.serving st (State.handover n)).store = s.store ∧
    (s.serving st (State.handover n)).mem = s.mem ∧
    (s.serving st (State.handover n)).engine = s.engine ∧
    (s.serving st (State.handover n)).attn.enables = s.attn.enables ∧
    (s.serving st (State.handover n)).attn.config = s.attn.config ∧
    (s.serving st (State.handover n)).records = s.records ∧
    (s.serving st (State.handover n)).generation = s.generation ∧
    (s.serving st (State.handover n)).freeCount = s.freeCount ∧
    (s.serving st (State.handover n)).pending = s.pending ∧
    (s.serving st (State.handover n)).web = s.web ∧
    (s.serving st (State.handover n)).cur = s.cur := by
  exact ⟨serving_keeps State.wpu _ _ (by simp) s,
    serving_keeps State.cylGens _ _ (by simp) s,
    serving_keeps State.foilGens _ _ (by simp) s,
    serving_keeps State.mark _ _ (by simp) s,
    serving_keeps State.lastRetired _ _ (by simp) s,
    serving_keeps State.stations _ _ (by simp) s,
    serving_keeps State.jobs _ _ (by simp) s,
    serving_keeps State.store _ _ (by simp) s,
    serving_keeps State.mem _ _ (by simp) s,
    serving_keeps State.engine _ _ (by simp) s,
    serving_keeps (fun s => s.attn.enables) _ _ (by simp) s,
    serving_keeps (fun s => s.attn.config) _ _ (by simp) s,
    serving_keeps State.records _ _ (by simp) s,
    serving_keeps State.generation _ _ (by simp) s,
    serving_keeps State.freeCount _ _ (by simp) s,
    serving_keeps State.pending _ _ (by simp) s,
    serving_keeps State.web _ _ (by simp) s,
    serving_keeps State.cur _ _ (by simp) s⟩

@[simp] theorem State.serving_withdraw_frame (st : Fin 4) (n : Word) (s : State) :
    (s.serving st (State.withdraw n)).wpu = s.wpu ∧
    (s.serving st (State.withdraw n)).cylGens = s.cylGens ∧
    (s.serving st (State.withdraw n)).foilGens = s.foilGens ∧
    (s.serving st (State.withdraw n)).mark = s.mark ∧
    (s.serving st (State.withdraw n)).lastRetired = s.lastRetired ∧
    (s.serving st (State.withdraw n)).stations = s.stations ∧
    (s.serving st (State.withdraw n)).jobs = s.jobs ∧
    (s.serving st (State.withdraw n)).store = s.store ∧
    (s.serving st (State.withdraw n)).mem = s.mem ∧
    (s.serving st (State.withdraw n)).engine = s.engine ∧
    (s.serving st (State.withdraw n)).attn.enables = s.attn.enables ∧
    (s.serving st (State.withdraw n)).attn.config = s.attn.config ∧
    (s.serving st (State.withdraw n)).records = s.records ∧
    (s.serving st (State.withdraw n)).generation = s.generation ∧
    (s.serving st (State.withdraw n)).freeCount = s.freeCount ∧
    (s.serving st (State.withdraw n)).pending = s.pending ∧
    (s.serving st (State.withdraw n)).web = s.web ∧
    (s.serving st (State.withdraw n)).cur = s.cur := by
  exact ⟨serving_keeps State.wpu _ _ (by simp) s,
    serving_keeps State.cylGens _ _ (by simp) s,
    serving_keeps State.foilGens _ _ (by simp) s,
    serving_keeps State.mark _ _ (by simp) s,
    serving_keeps State.lastRetired _ _ (by simp) s,
    serving_keeps State.stations _ _ (by simp) s,
    serving_keeps State.jobs _ _ (by simp) s,
    serving_keeps State.store _ _ (by simp) s,
    serving_keeps State.mem _ _ (by simp) s,
    serving_keeps State.engine _ _ (by simp) s,
    serving_keeps (fun s => s.attn.enables) _ _ (by simp) s,
    serving_keeps (fun s => s.attn.config) _ _ (by simp) s,
    serving_keeps State.records _ _ (by simp) s,
    serving_keeps State.generation _ _ (by simp) s,
    serving_keeps State.freeCount _ _ (by simp) s,
    serving_keeps State.pending _ _ (by simp) s,
    serving_keeps State.web _ _ (by simp) s,
    serving_keeps State.cur _ _ (by simp) s⟩

@[simp] theorem State.holdChannel_frame (c : Fin 8) (s : State) :
    (s.holdChannel c).wpu = s.wpu ∧
    (s.holdChannel c).cylGens = s.cylGens ∧
    (s.holdChannel c).foilGens = s.foilGens ∧
    (s.holdChannel c).mark = s.mark ∧
    (s.holdChannel c).track = s.track ∧
    (s.holdChannel c).lastRetired = s.lastRetired ∧
    (s.holdChannel c).stations = s.stations ∧
    (s.holdChannel c).jobs = s.jobs ∧
    (s.holdChannel c).store = s.store ∧
    (s.holdChannel c).mem = s.mem ∧
    (s.holdChannel c).engine = s.engine ∧
    (s.holdChannel c).attn = s.attn ∧
    (s.holdChannel c).records = s.records ∧
    (s.holdChannel c).generation = s.generation ∧
    (s.holdChannel c).freeCount = s.freeCount ∧
    (s.holdChannel c).pending = s.pending ∧
    (s.holdChannel c).web = s.web ∧
    (s.holdChannel c).cur = s.cur := by
  unfold State.holdChannel
  split <;> simp

@[simp] theorem State.idleChannel_frame (c : Fin 8) (s : State) :
    (s.idleChannel c).wpu = s.wpu ∧
    (s.idleChannel c).cylGens = s.cylGens ∧
    (s.idleChannel c).mark = s.mark ∧
    (s.idleChannel c).track = s.track ∧
    (s.idleChannel c).lastRetired = s.lastRetired ∧
    (s.idleChannel c).stations = s.stations ∧
    (s.idleChannel c).jobs = s.jobs ∧
    (s.idleChannel c).store = s.store ∧
    (s.idleChannel c).mem = s.mem ∧
    (s.idleChannel c).engine = s.engine ∧
    (s.idleChannel c).attn = s.attn ∧
    (s.idleChannel c).records = s.records ∧
    (s.idleChannel c).generation = s.generation ∧
    (s.idleChannel c).freeCount = s.freeCount ∧
    (s.idleChannel c).pending = s.pending ∧
    (s.idleChannel c).web = s.web ∧
    (s.idleChannel c).cur = s.cur := by
  simp [State.idleChannel, State.setRatio, State.setGen]

@[simp] theorem State.startChannel_frame (c : Fin 8) (s : State) :
    (s.startChannel c).wpu = s.wpu ∧
    (s.startChannel c).cylGens = s.cylGens ∧
    (s.startChannel c).mark = s.mark ∧
    (s.startChannel c).track = s.track ∧
    (s.startChannel c).lastRetired = s.lastRetired ∧
    (s.startChannel c).stations = s.stations ∧
    (s.startChannel c).jobs = s.jobs ∧
    (s.startChannel c).store = s.store ∧
    (s.startChannel c).mem = s.mem ∧
    (s.startChannel c).engine = s.engine ∧
    (s.startChannel c).attn = s.attn ∧
    (s.startChannel c).records = s.records ∧
    (s.startChannel c).generation = s.generation ∧
    (s.startChannel c).freeCount = s.freeCount ∧
    (s.startChannel c).pending = s.pending ∧
    (s.startChannel c).web = s.web ∧
    (s.startChannel c).cur = s.cur := by
  unfold State.startChannel
  split_ifs <;> simp [State.setRatio, State.setGen]

end Sys2Proof.Machine
end

