-- ==== Sys2Proof/Laws/FramesStations.lean ====
section
/-! SUPPORT. What the operations of the impression stations
leave as it was, one lemma for each: every field of the state that the operation cannot change, and where
it can change part of job control or of the attention logic, the fields of those that it cannot. -/

namespace Sys2Proof.Machine

@[simp] theorem State.openThrow_frame (st : Fin 4) (s : State) :
    (s.openThrow st).wpu = s.wpu ∧
    (s.openThrow st).cylGens = s.cylGens ∧
    (s.openThrow st).foilGens = s.foilGens ∧
    (s.openThrow st).mark = s.mark ∧
    (s.openThrow st).track = s.track ∧
    (s.openThrow st).lastRetired = s.lastRetired ∧
    (s.openThrow st).channels = s.channels ∧
    (s.openThrow st).jobs = s.jobs ∧
    (s.openThrow st).store = s.store ∧
    (s.openThrow st).mem = s.mem ∧
    (s.openThrow st).engine = s.engine ∧
    (s.openThrow st).attn = s.attn ∧
    (s.openThrow st).records = s.records ∧
    (s.openThrow st).generation = s.generation ∧
    (s.openThrow st).freeCount = s.freeCount ∧
    (s.openThrow st).pending = s.pending ∧
    (s.openThrow st).web = s.web ∧
    (s.openThrow st).cur = s.cur := by
  unfold State.openThrow
  simp

@[simp] theorem State.closeTest_frame (st : Fin 4) (s : State) :
    (s.closeTest st).wpu = s.wpu ∧
    (s.closeTest st).cylGens = s.cylGens ∧
    (s.closeTest st).foilGens = s.foilGens ∧
    (s.closeTest st).mark = s.mark ∧
    (s.closeTest st).track = s.track ∧
    (s.closeTest st).lastRetired = s.lastRetired ∧
    (s.closeTest st).channels = s.channels ∧
    (s.closeTest st).jobs = s.jobs ∧
    (s.closeTest st).store = s.store ∧
    (s.closeTest st).mem = s.mem ∧
    (s.closeTest st).engine = s.engine ∧
    (s.closeTest st).attn = s.attn ∧
    (s.closeTest st).records = s.records ∧
    (s.closeTest st).generation = s.generation ∧
    (s.closeTest st).freeCount = s.freeCount ∧
    (s.closeTest st).pending = s.pending ∧
    (s.closeTest st).web = s.web ∧
    (s.closeTest st).cur = s.cur := by
  unfold State.closeTest
  split <;> simp

@[simp] theorem State.withdrawRows_frame (st : Fin 4) (ns : List Word) (s : State) :
    (s.withdrawRows st ns).wpu = s.wpu ∧
    (s.withdrawRows st ns).cylGens = s.cylGens ∧
    (s.withdrawRows st ns).foilGens = s.foilGens ∧
    (s.withdrawRows st ns).mark = s.mark ∧
    (s.withdrawRows st ns).lastRetired = s.lastRetired ∧
    (s.withdrawRows st ns).stations = s.stations ∧
    (s.withdrawRows st ns).jobs = s.jobs ∧
    (s.withdrawRows st ns).store = s.store ∧
    (s.withdrawRows st ns).mem = s.mem ∧
    (s.withdrawRows st ns).engine = s.engine ∧
    (s.withdrawRows st ns).attn.enables = s.attn.enables ∧
    (s.withdrawRows st ns).attn.config = s.attn.config ∧
    (s.withdrawRows st ns).records = s.records ∧
    (s.withdrawRows st ns).generation = s.generation ∧
    (s.withdrawRows st ns).freeCount = s.freeCount ∧
    (s.withdrawRows st ns).pending = s.pending ∧
    (s.withdrawRows st ns).web = s.web ∧
    (s.withdrawRows st ns).cur = s.cur := by
  induction ns generalizing s with
  | nil => simp [State.withdrawRows]
  | cons n ns ih => simp [State.withdrawRows, ih]

@[simp] theorem State.departure_frame (st : Fin 4) (dest : StationState) (s : State) :
    (s.departure st dest).wpu = s.wpu ∧
    (s.departure st dest).cylGens = s.cylGens ∧
    (s.departure st dest).foilGens = s.foilGens ∧
    (s.departure st dest).mark = s.mark ∧
    (s.departure st dest).lastRetired = s.lastRetired ∧
    (s.departure st dest).stations = s.stations ∧
    (s.departure st dest).jobs = s.jobs ∧
    (s.departure st dest).store = s.store ∧
    (s.departure st dest).mem = s.mem ∧
    (s.departure st dest).engine = s.engine ∧
    (s.departure st dest).attn.enables = s.attn.enables ∧
    (s.departure st dest).attn.config = s.attn.config ∧
    (s.departure st dest).records = s.records ∧
    (s.departure st dest).generation = s.generation ∧
    (s.departure st dest).freeCount = s.freeCount ∧
    (s.departure st dest).pending = s.pending ∧
    (s.departure st dest).web = s.web ∧
    (s.departure st dest).cur = s.cur := by
  unfold State.departure
  simp

@[simp] theorem State.setState_frame (st : Fin 4) (dest : StationState) (s : State) :
    (s.setState st dest).wpu = s.wpu ∧
    (s.setState st dest).cylGens = s.cylGens ∧
    (s.setState st dest).foilGens = s.foilGens ∧
    (s.setState st dest).mark = s.mark ∧
    (s.setState st dest).track = s.track ∧
    (s.setState st dest).lastRetired = s.lastRetired ∧
    (s.setState st dest).channels = s.channels ∧
    (s.setState st dest).jobs = s.jobs ∧
    (s.setState st dest).store = s.store ∧
    (s.setState st dest).mem = s.mem ∧
    (s.setState st dest).engine = s.engine ∧
    (s.setState st dest).attn = s.attn ∧
    (s.setState st dest).records = s.records ∧
    (s.setState st dest).generation = s.generation ∧
    (s.setState st dest).freeCount = s.freeCount ∧
    (s.setState st dest).pending = s.pending ∧
    (s.setState st dest).web = s.web ∧
    (s.setState st dest).cur = s.cur := by
  unfold State.setState
  simp

@[simp] theorem State.leaveFor_frame (st : Fin 4) (dest : StationState) (s : State) :
    (s.leaveFor st dest).wpu = s.wpu ∧
    (s.leaveFor st dest).cylGens = s.cylGens ∧
    (s.leaveFor st dest).foilGens = s.foilGens ∧
    (s.leaveFor st dest).mark = s.mark ∧
    (s.leaveFor st dest).lastRetired = s.lastRetired ∧
    (s.leaveFor st dest).jobs = s.jobs ∧
    (s.leaveFor st dest).store = s.store ∧
    (s.leaveFor st dest).mem = s.mem ∧
    (s.leaveFor st dest).engine = s.engine ∧
    (s.leaveFor st dest).attn.enables = s.attn.enables ∧
    (s.leaveFor st dest).attn.config = s.attn.config ∧
    (s.leaveFor st dest).records = s.records ∧
    (s.leaveFor st dest).generation = s.generation ∧
    (s.leaveFor st dest).freeCount = s.freeCount ∧
    (s.leaveFor st dest).pending = s.pending ∧
    (s.leaveFor st dest).web = s.web ∧
    (s.leaveFor st dest).cur = s.cur := by
  unfold State.leaveFor
  dsimp only
  split_ifs <;> simp

@[simp] theorem State.placeRow_frame (st : Fin 4) (r : RowCtx) (s : State) :
    (s.placeRow st r).wpu = s.wpu ∧
    (s.placeRow st r).cylGens = s.cylGens ∧
    (s.placeRow st r).foilGens = s.foilGens ∧
    (s.placeRow st r).mark = s.mark ∧
    (s.placeRow st r).lastRetired = s.lastRetired ∧
    (s.placeRow st r).channels = s.channels ∧
    (s.placeRow st r).jobs = s.jobs ∧
    (s.placeRow st r).store = s.store ∧
    (s.placeRow st r).mem = s.mem ∧
    (s.placeRow st r).engine = s.engine ∧
    (s.placeRow st r).attn = s.attn ∧
    (s.placeRow st r).records = s.records ∧
    (s.placeRow st r).generation = s.generation ∧
    (s.placeRow st r).freeCount = s.freeCount ∧
    (s.placeRow st r).pending = s.pending ∧
    (s.placeRow st r).web = s.web ∧
    (s.placeRow st r).cur = s.cur := by
  unfold State.placeRow
  simp

@[simp] theorem State.latchCommits_frame (st : Fin 4) (s : State) :
    (s.latchCommits st).wpu = s.wpu ∧
    (s.latchCommits st).cylGens = s.cylGens ∧
    (s.latchCommits st).foilGens = s.foilGens ∧
    (s.latchCommits st).mark = s.mark ∧
    (s.latchCommits st).lastRetired = s.lastRetired ∧
    (s.latchCommits st).stations = s.stations ∧
    (s.latchCommits st).channels = s.channels ∧
    (s.latchCommits st).jobs = s.jobs ∧
    (s.latchCommits st).store = s.store ∧
    (s.latchCommits st).mem = s.mem ∧
    (s.latchCommits st).engine = s.engine ∧
    (s.latchCommits st).attn = s.attn ∧
    (s.latchCommits st).records = s.records ∧
    (s.latchCommits st).generation = s.generation ∧
    (s.latchCommits st).freeCount = s.freeCount ∧
    (s.latchCommits st).pending = s.pending ∧
    (s.latchCommits st).web = s.web ∧
    (s.latchCommits st).cur = s.cur := by
  unfold State.latchCommits
  split <;> simp

@[simp] theorem State.shiftRows_frame (st : Fin 4) (k : Int) (moves : RowCtx → Bool) (s : State) :
    (s.shiftRows st k moves).wpu = s.wpu ∧
    (s.shiftRows st k moves).cylGens = s.cylGens ∧
    (s.shiftRows st k moves).foilGens = s.foilGens ∧
    (s.shiftRows st k moves).mark = s.mark ∧
    (s.shiftRows st k moves).lastRetired = s.lastRetired ∧
    (s.shiftRows st k moves).jobs = s.jobs ∧
    (s.shiftRows st k moves).store = s.store ∧
    (s.shiftRows st k moves).mem = s.mem ∧
    (s.shiftRows st k moves).engine = s.engine ∧
    (s.shiftRows st k moves).attn.enables = s.attn.enables ∧
    (s.shiftRows st k moves).attn.config = s.attn.config ∧
    (s.shiftRows st k moves).records = s.records ∧
    (s.shiftRows st k moves).generation = s.generation ∧
    (s.shiftRows st k moves).freeCount = s.freeCount ∧
    (s.shiftRows st k moves).pending = s.pending ∧
    (s.shiftRows st k moves).web = s.web ∧
    (s.shiftRows st k moves).cur = s.cur := by
  unfold State.shiftRows
  simp

@[simp] theorem State.shift_frame (st : Fin 4) (k : Int) (s : State) :
    (s.shift st k).wpu = s.wpu ∧
    (s.shift st k).cylGens = s.cylGens ∧
    (s.shift st k).foilGens = s.foilGens ∧
    (s.shift st k).mark = s.mark ∧
    (s.shift st k).lastRetired = s.lastRetired ∧
    (s.shift st k).jobs = s.jobs ∧
    (s.shift st k).store = s.store ∧
    (s.shift st k).mem = s.mem ∧
    (s.shift st k).engine = s.engine ∧
    (s.shift st k).attn.enables = s.attn.enables ∧
    (s.shift st k).attn.config = s.attn.config ∧
    (s.shift st k).records = s.records ∧
    (s.shift st k).generation = s.generation ∧
    (s.shift st k).freeCount = s.freeCount ∧
    (s.shift st k).pending = s.pending ∧
    (s.shift st k).web = s.web ∧
    (s.shift st k).cur = s.cur := by
  simp [State.shift]

@[simp] theorem State.tickShifts_frame (st : Fin 4) (dir : Int) (waiting : List Word) (n : Nat) (s : State) :
    (s.tickShifts st dir waiting n).wpu = s.wpu ∧
    (s.tickShifts st dir waiting n).cylGens = s.cylGens ∧
    (s.tickShifts st dir waiting n).foilGens = s.foilGens ∧
    (s.tickShifts st dir waiting n).mark = s.mark ∧
    (s.tickShifts st dir waiting n).lastRetired = s.lastRetired ∧
    (s.tickShifts st dir waiting n).jobs = s.jobs ∧
    (s.tickShifts st dir waiting n).store = s.store ∧
    (s.tickShifts st dir waiting n).mem = s.mem ∧
    (s.tickShifts st dir waiting n).engine = s.engine ∧
    (s.tickShifts st dir waiting n).attn.enables = s.attn.enables ∧
    (s.tickShifts st dir waiting n).attn.config = s.attn.config ∧
    (s.tickShifts st dir waiting n).records = s.records ∧
    (s.tickShifts st dir waiting n).generation = s.generation ∧
    (s.tickShifts st dir waiting n).freeCount = s.freeCount ∧
    (s.tickShifts st dir waiting n).pending = s.pending ∧
    (s.tickShifts st dir waiting n).web = s.web ∧
    (s.tickShifts st dir waiting n).cur = s.cur := by
  induction n generalizing s with
  | zero => simp [State.tickShifts]
  | succ n ih => simp [State.tickShifts, ih]

@[simp] theorem State.drift_frame (st : Fin 4) (amount : Int) (s : State) :
    (s.drift st amount).wpu = s.wpu ∧
    (s.drift st amount).cylGens = s.cylGens ∧
    (s.drift st amount).foilGens = s.foilGens ∧
    (s.drift st amount).mark = s.mark ∧
    (s.drift st amount).lastRetired = s.lastRetired ∧
    (s.drift st amount).jobs = s.jobs ∧
    (s.drift st amount).store = s.store ∧
    (s.drift st amount).mem = s.mem ∧
    (s.drift st amount).engine = s.engine ∧
    (s.drift st amount).attn.enables = s.attn.enables ∧
    (s.drift st amount).attn.config = s.attn.config ∧
    (s.drift st amount).records = s.records ∧
    (s.drift st amount).generation = s.generation ∧
    (s.drift st amount).freeCount = s.freeCount ∧
    (s.drift st amount).pending = s.pending ∧
    (s.drift st amount).web = s.web ∧
    (s.drift st amount).cur = s.cur := by
  simp [State.drift]

@[simp] theorem State.deliverCylinder_frame (st : Fin 4) (amount : Int) (s : State) :
    (s.deliverCylinder st amount).wpu = s.wpu ∧
    (s.deliverCylinder st amount).foilGens = s.foilGens ∧
    (s.deliverCylinder st amount).mark = s.mark ∧
    (s.deliverCylinder st amount).track = s.track ∧
    (s.deliverCylinder st amount).lastRetired = s.lastRetired ∧
    (s.deliverCylinder st amount).stations = s.stations ∧
    (s.deliverCylinder st amount).channels = s.channels ∧
    (s.deliverCylinder st amount).jobs = s.jobs ∧
    (s.deliverCylinder st amount).store = s.store ∧
    (s.deliverCylinder st amount).mem = s.mem ∧
    (s.deliverCylinder st amount).engine = s.engine ∧
    (s.deliverCylinder st amount).attn = s.attn ∧
    (s.deliverCylinder st amount).records = s.records ∧
    (s.deliverCylinder st amount).generation = s.generation ∧
    (s.deliverCylinder st amount).freeCount = s.freeCount ∧
    (s.deliverCylinder st amount).pending = s.pending ∧
    (s.deliverCylinder st amount).web = s.web ∧
    (s.deliverCylinder st amount).cur = s.cur := by
  simp [State.deliverCylinder, State.setGen]

@[simp] theorem State.commit_frame (st : Fin 4) (r : RowCtx) (s : State) :
    (s.commit st r).wpu = s.wpu ∧
    (s.commit st r).cylGens = s.cylGens ∧
    (s.commit st r).foilGens = s.foilGens ∧
    (s.commit st r).mark = s.mark ∧
    (s.commit st r).lastRetired = s.lastRetired ∧
    (s.commit st r).jobs = s.jobs ∧
    (s.commit st r).store = s.store ∧
    (s.commit st r).mem = s.mem ∧
    (s.commit st r).engine = s.engine ∧
    (s.commit st r).attn.enables = s.attn.enables ∧
    (s.commit st r).attn.config = s.attn.config ∧
    (s.commit st r).records = s.records ∧
    (s.commit st r).generation = s.generation ∧
    (s.commit st r).freeCount = s.freeCount ∧
    (s.commit st r).pending = s.pending ∧
    (s.commit st r).web = s.web ∧
    (s.commit st r).cur = s.cur := by
  unfold State.commit
  split
  · simp
  · dsimp only
    split_ifs <;> simp

@[simp] theorem State.commitAll_frame (st : Fin 4) (n : Nat) (s : State) :
    (s.commitAll st n).wpu = s.wpu ∧
    (s.commitAll st n).cylGens = s.cylGens ∧
    (s.commitAll st n).foilGens = s.foilGens ∧
    (s.commitAll st n).mark = s.mark ∧
    (s.commitAll st n).lastRetired = s.lastRetired ∧
    (s.commitAll st n).jobs = s.jobs ∧
    (s.commitAll st n).store = s.store ∧
    (s.commitAll st n).mem = s.mem ∧
    (s.commitAll st n).engine = s.engine ∧
    (s.commitAll st n).attn.enables = s.attn.enables ∧
    (s.commitAll st n).attn.config = s.attn.config ∧
    (s.commitAll st n).records = s.records ∧
    (s.commitAll st n).generation = s.generation ∧
    (s.commitAll st n).freeCount = s.freeCount ∧
    (s.commitAll st n).pending = s.pending ∧
    (s.commitAll st n).web = s.web ∧
    (s.commitAll st n).cur = s.cur := by
  induction n generalizing s with
  | zero => simp [State.commitAll]
  | succ n ih =>
    unfold State.commitAll
    split
    · simp [ih]
    · simp

@[simp] theorem State.zoneStartEvent_frame (st : Fin 4) (n : Word) (s : State) :
    (s.zoneStartEvent st n).wpu = s.wpu ∧
    (s.zoneStartEvent st n).cylGens = s.cylGens ∧
    (s.zoneStartEvent st n).foilGens = s.foilGens ∧
    (s.zoneStartEvent st n).mark = s.mark ∧
    (s.zoneStartEvent st n).lastRetired = s.lastRetired ∧
    (s.zoneStartEvent st n).jobs = s.jobs ∧
    (s.zoneStartEvent st n).store = s.store ∧
    (s.zoneStartEvent st n).mem = s.mem ∧
    (s.zoneStartEvent st n).engine = s.engine ∧
    (s.zoneStartEvent st n).attn.enables = s.attn.enables ∧
    (s.zoneStartEvent st n).attn.config = s.attn.config ∧
    (s.zoneStartEvent st n).records = s.records ∧
    (s.zoneStartEvent st n).generation = s.generation ∧
    (s.zoneStartEvent st n).freeCount = s.freeCount ∧
    (s.zoneStartEvent st n).pending = s.pending ∧
    (s.zoneStartEvent st n).web = s.web ∧
    (s.zoneStartEvent st n).cur = s.cur := by
  unfold State.zoneStartEvent
  dsimp only
  split
  · split_ifs <;> simp
  · simp

@[simp] theorem State.applyTrim_frame (st : Fin 4) (t : Int) (s : State) :
    (s.applyTrim st t).wpu = s.wpu ∧
    (s.applyTrim st t).foilGens = s.foilGens ∧
    (s.applyTrim st t).mark = s.mark ∧
    (s.applyTrim st t).lastRetired = s.lastRetired ∧
    (s.applyTrim st t).jobs = s.jobs ∧
    (s.applyTrim st t).store = s.store ∧
    (s.applyTrim st t).mem = s.mem ∧
    (s.applyTrim st t).engine = s.engine ∧
    (s.applyTrim st t).attn.enables = s.attn.enables ∧
    (s.applyTrim st t).attn.config = s.attn.config ∧
    (s.applyTrim st t).records = s.records ∧
    (s.applyTrim st t).generation = s.generation ∧
    (s.applyTrim st t).freeCount = s.freeCount ∧
    (s.applyTrim st t).pending = s.pending ∧
    (s.applyTrim st t).web = s.web ∧
    (s.applyTrim st t).cur = s.cur := by
  unfold State.applyTrim
  split <;> simp

@[simp] theorem State.bandCheck_frame (st : Fin 4) (r : RowCtx) (error : Option Int) (s : State) :
    (s.bandCheck st r error).wpu = s.wpu ∧
    (s.bandCheck st r error).cylGens = s.cylGens ∧
    (s.bandCheck st r error).foilGens = s.foilGens ∧
    (s.bandCheck st r error).mark = s.mark ∧
    (s.bandCheck st r error).lastRetired = s.lastRetired ∧
    (s.bandCheck st r error).jobs = s.jobs ∧
    (s.bandCheck st r error).store = s.store ∧
    (s.bandCheck st r error).mem = s.mem ∧
    (s.bandCheck st r error).engine = s.engine ∧
    (s.bandCheck st r error).attn.enables = s.attn.enables ∧
    (s.bandCheck st r error).attn.config = s.attn.config ∧
    (s.bandCheck st r error).records = s.records ∧
    (s.bandCheck st r error).generation = s.generation ∧
    (s.bandCheck st r error).freeCount = s.freeCount ∧
    (s.bandCheck st r error).pending = s.pending ∧
    (s.bandCheck st r error).web = s.web ∧
    (s.bandCheck st r error).cur = s.cur := by
  unfold State.bandCheck
  split
  · simp
  · cases (s.station st).state <;> dsimp only <;> split_ifs <;> simp

@[simp] theorem State.openAtEnd_frame (st : Fin 4) (n : Word) (s : State) :
    (s.openAtEnd st n).wpu = s.wpu ∧
    (s.openAtEnd st n).cylGens = s.cylGens ∧
    (s.openAtEnd st n).foilGens = s.foilGens ∧
    (s.openAtEnd st n).mark = s.mark ∧
    (s.openAtEnd st n).track = s.track ∧
    (s.openAtEnd st n).lastRetired = s.lastRetired ∧
    (s.openAtEnd st n).channels = s.channels ∧
    (s.openAtEnd st n).jobs = s.jobs ∧
    (s.openAtEnd st n).store = s.store ∧
    (s.openAtEnd st n).mem = s.mem ∧
    (s.openAtEnd st n).engine = s.engine ∧
    (s.openAtEnd st n).attn = s.attn ∧
    (s.openAtEnd st n).records = s.records ∧
    (s.openAtEnd st n).generation = s.generation ∧
    (s.openAtEnd st n).freeCount = s.freeCount ∧
    (s.openAtEnd st n).pending = s.pending ∧
    (s.openAtEnd st n).web = s.web ∧
    (s.openAtEnd st n).cur = s.cur := by
  unfold State.openAtEnd
  split <;> (try split_ifs) <;> simp

@[simp] theorem State.writeRegistration_frame (st : Fin 4) (n : Word) (error : Option Int) (t : Int) (s : State) :
    (s.writeRegistration st n error t).wpu = s.wpu ∧
    (s.writeRegistration st n error t).cylGens = s.cylGens ∧
    (s.writeRegistration st n error t).foilGens = s.foilGens ∧
    (s.writeRegistration st n error t).mark = s.mark ∧
    (s.writeRegistration st n error t).lastRetired = s.lastRetired ∧
    (s.writeRegistration st n error t).channels = s.channels ∧
    (s.writeRegistration st n error t).jobs = s.jobs ∧
    (s.writeRegistration st n error t).store = s.store ∧
    (s.writeRegistration st n error t).mem = s.mem ∧
    (s.writeRegistration st n error t).engine = s.engine ∧
    (s.writeRegistration st n error t).attn = s.attn ∧
    (s.writeRegistration st n error t).records = s.records ∧
    (s.writeRegistration st n error t).generation = s.generation ∧
    (s.writeRegistration st n error t).freeCount = s.freeCount ∧
    (s.writeRegistration st n error t).pending = s.pending ∧
    (s.writeRegistration st n error t).web = s.web ∧
    (s.writeRegistration st n error t).cur = s.cur := by
  unfold State.writeRegistration
  dsimp only
  split <;> simp

@[simp] theorem State.zoneEndEvent_frame (st : Fin 4) (n : Word) (s : State) :
    (s.zoneEndEvent st n).wpu = s.wpu ∧
    (s.zoneEndEvent st n).foilGens = s.foilGens ∧
    (s.zoneEndEvent st n).mark = s.mark ∧
    (s.zoneEndEvent st n).lastRetired = s.lastRetired ∧
    (s.zoneEndEvent st n).jobs = s.jobs ∧
    (s.zoneEndEvent st n).store = s.store ∧
    (s.zoneEndEvent st n).mem = s.mem ∧
    (s.zoneEndEvent st n).engine = s.engine ∧
    (s.zoneEndEvent st n).attn.enables = s.attn.enables ∧
    (s.zoneEndEvent st n).attn.config = s.attn.config ∧
    (s.zoneEndEvent st n).records = s.records ∧
    (s.zoneEndEvent st n).generation = s.generation ∧
    (s.zoneEndEvent st n).freeCount = s.freeCount ∧
    (s.zoneEndEvent st n).pending = s.pending ∧
    (s.zoneEndEvent st n).web = s.web ∧
    (s.zoneEndEvent st n).cur = s.cur := by
  unfold State.zoneEndEvent
  split
  · simp
  · split <;> simp

@[simp] theorem State.zoneEvents_frame (st : Fin 4) (n : Nat) (s : State) :
    (s.zoneEvents st n).wpu = s.wpu ∧
    (s.zoneEvents st n).foilGens = s.foilGens ∧
    (s.zoneEvents st n).mark = s.mark ∧
    (s.zoneEvents st n).lastRetired = s.lastRetired ∧
    (s.zoneEvents st n).jobs = s.jobs ∧
    (s.zoneEvents st n).store = s.store ∧
    (s.zoneEvents st n).mem = s.mem ∧
    (s.zoneEvents st n).engine = s.engine ∧
    (s.zoneEvents st n).attn.enables = s.attn.enables ∧
    (s.zoneEvents st n).attn.config = s.attn.config ∧
    (s.zoneEvents st n).records = s.records ∧
    (s.zoneEvents st n).generation = s.generation ∧
    (s.zoneEvents st n).freeCount = s.freeCount ∧
    (s.zoneEvents st n).pending = s.pending ∧
    (s.zoneEvents st n).web = s.web ∧
    (s.zoneEvents st n).cur = s.cur := by
  induction n generalizing s with
  | zero => simp [State.zoneEvents]
  | succ n ih =>
    unfold State.zoneEvents
    split
    · simp
    · dsimp only
      split_ifs <;> simp [ih]

@[simp] theorem State.runZoneEvents_frame (st : Fin 4) (s : State) :
    (s.runZoneEvents st).wpu = s.wpu ∧
    (s.runZoneEvents st).foilGens = s.foilGens ∧
    (s.runZoneEvents st).mark = s.mark ∧
    (s.runZoneEvents st).lastRetired = s.lastRetired ∧
    (s.runZoneEvents st).jobs = s.jobs ∧
    (s.runZoneEvents st).store = s.store ∧
    (s.runZoneEvents st).mem = s.mem ∧
    (s.runZoneEvents st).engine = s.engine ∧
    (s.runZoneEvents st).attn.enables = s.attn.enables ∧
    (s.runZoneEvents st).attn.config = s.attn.config ∧
    (s.runZoneEvents st).records = s.records ∧
    (s.runZoneEvents st).generation = s.generation ∧
    (s.runZoneEvents st).freeCount = s.freeCount ∧
    (s.runZoneEvents st).pending = s.pending ∧
    (s.runZoneEvents st).web = s.web ∧
    (s.runZoneEvents st).cur = s.cur := by
  unfold State.runZoneEvents
  simp

@[simp] theorem State.stationWeb_frame (p : Pos) (delta : Int) (st : Fin 4) (s : State) :
    (s.stationWeb p delta st).wpu = s.wpu ∧
    (s.stationWeb p delta st).foilGens = s.foilGens ∧
    (s.stationWeb p delta st).mark = s.mark ∧
    (s.stationWeb p delta st).lastRetired = s.lastRetired ∧
    (s.stationWeb p delta st).jobs = s.jobs ∧
    (s.stationWeb p delta st).store = s.store ∧
    (s.stationWeb p delta st).mem = s.mem ∧
    (s.stationWeb p delta st).engine = s.engine ∧
    (s.stationWeb p delta st).attn.enables = s.attn.enables ∧
    (s.stationWeb p delta st).attn.config = s.attn.config ∧
    (s.stationWeb p delta st).records = s.records ∧
    (s.stationWeb p delta st).generation = s.generation ∧
    (s.stationWeb p delta st).freeCount = s.freeCount ∧
    (s.stationWeb p delta st).pending = s.pending ∧
    (s.stationWeb p delta st).web = s.web ∧
    (s.stationWeb p delta st).cur = s.cur := by
  unfold State.stationWeb
  split <;> simp

@[simp] theorem State.sacrifice_frame (st : Fin 4) (n : Word) (s : State) :
    (s.sacrifice st n).wpu = s.wpu ∧
    (s.sacrifice st n).cylGens = s.cylGens ∧
    (s.sacrifice st n).foilGens = s.foilGens ∧
    (s.sacrifice st n).mark = s.mark ∧
    (s.sacrifice st n).lastRetired = s.lastRetired ∧
    (s.sacrifice st n).jobs = s.jobs ∧
    (s.sacrifice st n).store = s.store ∧
    (s.sacrifice st n).mem = s.mem ∧
    (s.sacrifice st n).engine = s.engine ∧
    (s.sacrifice st n).attn.enables = s.attn.enables ∧
    (s.sacrifice st n).attn.config = s.attn.config ∧
    (s.sacrifice st n).records = s.records ∧
    (s.sacrifice st n).generation = s.generation ∧
    (s.sacrifice st n).freeCount = s.freeCount ∧
    (s.sacrifice st n).pending = s.pending ∧
    (s.sacrifice st n).web = s.web ∧
    (s.sacrifice st n).cur = s.cur := by
  unfold State.sacrifice
  dsimp only
  split <;> (try split_ifs) <;> simp

@[simp] theorem State.addRisk_frame (st : Fin 4) (n : Word) (s : State) :
    (s.addRisk st n).wpu = s.wpu ∧
    (s.addRisk st n).cylGens = s.cylGens ∧
    (s.addRisk st n).foilGens = s.foilGens ∧
    (s.addRisk st n).mark = s.mark ∧
    (s.addRisk st n).track = s.track ∧
    (s.addRisk st n).lastRetired = s.lastRetired ∧
    (s.addRisk st n).channels = s.channels ∧
    (s.addRisk st n).jobs.run = s.jobs.run ∧
    (s.addRisk st n).jobs.holdCause = s.jobs.holdCause ∧
    (s.addRisk st n).jobs.next = s.jobs.next ∧
    (s.addRisk st n).jobs.current = s.jobs.current ∧
    (s.addRisk st n).jobs.firstRow = s.jobs.firstRow ∧
    (s.addRisk st n).store = s.store ∧
    (s.addRisk st n).mem = s.mem ∧
    (s.addRisk st n).engine = s.engine ∧
    (s.addRisk st n).attn.enables = s.attn.enables ∧
    (s.addRisk st n).attn.config = s.attn.config ∧
    (s.addRisk st n).records = s.records ∧
    (s.addRisk st n).generation = s.generation ∧
    (s.addRisk st n).freeCount = s.freeCount ∧
    (s.addRisk st n).pending = s.pending ∧
    (s.addRisk st n).web = s.web ∧
    (s.addRisk st n).cur = s.cur := by
  unfold State.addRisk
  split <;> simp

@[simp] theorem State.giveUp_frame (st : Fin 4) (splice : Word) (ns : List Word) (s : State) :
    (s.giveUp st splice ns).wpu = s.wpu ∧
    (s.giveUp st splice ns).cylGens = s.cylGens ∧
    (s.giveUp st splice ns).foilGens = s.foilGens ∧
    (s.giveUp st splice ns).mark = s.mark ∧
    (s.giveUp st splice ns).lastRetired = s.lastRetired ∧
    (s.giveUp st splice ns).jobs.run = s.jobs.run ∧
    (s.giveUp st splice ns).jobs.holdCause = s.jobs.holdCause ∧
    (s.giveUp st splice ns).jobs.next = s.jobs.next ∧
    (s.giveUp st splice ns).jobs.current = s.jobs.current ∧
    (s.giveUp st splice ns).jobs.firstRow = s.jobs.firstRow ∧
    (s.giveUp st splice ns).store = s.store ∧
    (s.giveUp st splice ns).mem = s.mem ∧
    (s.giveUp st splice ns).engine = s.engine ∧
    (s.giveUp st splice ns).attn.enables = s.attn.enables ∧
    (s.giveUp st splice ns).attn.config = s.attn.config ∧
    (s.giveUp st splice ns).records = s.records ∧
    (s.giveUp st splice ns).generation = s.generation ∧
    (s.giveUp st splice ns).freeCount = s.freeCount ∧
    (s.giveUp st splice ns).pending = s.pending ∧
    (s.giveUp st splice ns).web = s.web ∧
    (s.giveUp st splice ns).cur = s.cur := by
  induction ns generalizing s with
  | nil => simp [State.giveUp]
  | cons n ns ih =>
    simp only [State.giveUp, ih]
    split <;> (try split_ifs) <;> simp

@[simp] theorem State.spliceTest_frame (st : Fin 4) (r : RowCtx) (s : State) :
    (s.spliceTest st r).wpu = s.wpu ∧
    (s.spliceTest st r).cylGens = s.cylGens ∧
    (s.spliceTest st r).foilGens = s.foilGens ∧
    (s.spliceTest st r).mark = s.mark ∧
    (s.spliceTest st r).lastRetired = s.lastRetired ∧
    (s.spliceTest st r).jobs.run = s.jobs.run ∧
    (s.spliceTest st r).jobs.holdCause = s.jobs.holdCause ∧
    (s.spliceTest st r).jobs.next = s.jobs.next ∧
    (s.spliceTest st r).jobs.current = s.jobs.current ∧
    (s.spliceTest st r).jobs.firstRow = s.jobs.firstRow ∧
    (s.spliceTest st r).store = s.store ∧
    (s.spliceTest st r).mem = s.mem ∧
    (s.spliceTest st r).engine = s.engine ∧
    (s.spliceTest st r).attn.enables = s.attn.enables ∧
    (s.spliceTest st r).attn.config = s.attn.config ∧
    (s.spliceTest st r).records = s.records ∧
    (s.spliceTest st r).generation = s.generation ∧
    (s.spliceTest st r).freeCount = s.freeCount ∧
    (s.spliceTest st r).pending = s.pending ∧
    (s.spliceTest st r).web = s.web ∧
    (s.spliceTest st r).cur = s.cur := by
  unfold State.spliceTest
  split <;> simp

@[simp] theorem State.stationOpen_frame (r : RowCtx) (st : Fin 4) (s : State) :
    (s.stationOpen r st).wpu = s.wpu ∧
    (s.stationOpen r st).cylGens = s.cylGens ∧
    (s.stationOpen r st).foilGens = s.foilGens ∧
    (s.stationOpen r st).mark = s.mark ∧
    (s.stationOpen r st).lastRetired = s.lastRetired ∧
    (s.stationOpen r st).jobs.run = s.jobs.run ∧
    (s.stationOpen r st).jobs.holdCause = s.jobs.holdCause ∧
    (s.stationOpen r st).jobs.next = s.jobs.next ∧
    (s.stationOpen r st).jobs.current = s.jobs.current ∧
    (s.stationOpen r st).jobs.firstRow = s.jobs.firstRow ∧
    (s.stationOpen r st).store = s.store ∧
    (s.stationOpen r st).mem = s.mem ∧
    (s.stationOpen r st).engine = s.engine ∧
    (s.stationOpen r st).attn.enables = s.attn.enables ∧
    (s.stationOpen r st).attn.config = s.attn.config ∧
    (s.stationOpen r st).records = s.records ∧
    (s.stationOpen r st).generation = s.generation ∧
    (s.stationOpen r st).freeCount = s.freeCount ∧
    (s.stationOpen r st).pending = s.pending ∧
    (s.stationOpen r st).web = s.web ∧
    (s.stationOpen r st).cur = s.cur := by
  unfold State.stationOpen
  split <;> simp

@[simp] theorem State.firstIndex_frame (st : Fin 4) (x : Pos) (s : State) :
    (s.firstIndex st x).wpu = s.wpu ∧
    (s.firstIndex st x).foilGens = s.foilGens ∧
    (s.firstIndex st x).mark = s.mark ∧
    (s.firstIndex st x).lastRetired = s.lastRetired ∧
    (s.firstIndex st x).jobs = s.jobs ∧
    (s.firstIndex st x).store = s.store ∧
    (s.firstIndex st x).mem = s.mem ∧
    (s.firstIndex st x).engine = s.engine ∧
    (s.firstIndex st x).attn.enables = s.attn.enables ∧
    (s.firstIndex st x).attn.config = s.attn.config ∧
    (s.firstIndex st x).records = s.records ∧
    (s.firstIndex st x).generation = s.generation ∧
    (s.firstIndex st x).freeCount = s.freeCount ∧
    (s.firstIndex st x).pending = s.pending ∧
    (s.firstIndex st x).web = s.web ∧
    (s.firstIndex st x).cur = s.cur := by
  unfold State.firstIndex
  simp

@[simp] theorem State.slip_frame (st : Fin 4) (s : State) :
    (s.slip st).wpu = s.wpu ∧
    (s.slip st).cylGens = s.cylGens ∧
    (s.slip st).foilGens = s.foilGens ∧
    (s.slip st).mark = s.mark ∧
    (s.slip st).lastRetired = s.lastRetired ∧
    (s.slip st).jobs.run = s.jobs.run ∧
    (s.slip st).jobs.holdCause = s.jobs.holdCause ∧
    (s.slip st).jobs.next = s.jobs.next ∧
    (s.slip st).jobs.current = s.jobs.current ∧
    (s.slip st).jobs.firstRow = s.jobs.firstRow ∧
    (s.slip st).store = s.store ∧
    (s.slip st).mem = s.mem ∧
    (s.slip st).engine = s.engine ∧
    (s.slip st).attn.enables = s.attn.enables ∧
    (s.slip st).attn.config = s.attn.config ∧
    (s.slip st).records = s.records ∧
    (s.slip st).generation = s.generation ∧
    (s.slip st).freeCount = s.freeCount ∧
    (s.slip st).pending = s.pending ∧
    (s.slip st).web = s.web ∧
    (s.slip st).cur = s.cur := by
  unfold State.slip
  simp

@[simp] theorem State.indexEvent_frame (st : Fin 4) (p : Pos) (s : State) :
    (s.indexEvent st p).wpu = s.wpu ∧
    (s.indexEvent st p).foilGens = s.foilGens ∧
    (s.indexEvent st p).mark = s.mark ∧
    (s.indexEvent st p).lastRetired = s.lastRetired ∧
    (s.indexEvent st p).jobs.run = s.jobs.run ∧
    (s.indexEvent st p).jobs.holdCause = s.jobs.holdCause ∧
    (s.indexEvent st p).jobs.next = s.jobs.next ∧
    (s.indexEvent st p).jobs.current = s.jobs.current ∧
    (s.indexEvent st p).jobs.firstRow = s.jobs.firstRow ∧
    (s.indexEvent st p).store = s.store ∧
    (s.indexEvent st p).mem = s.mem ∧
    (s.indexEvent st p).engine = s.engine ∧
    (s.indexEvent st p).attn.enables = s.attn.enables ∧
    (s.indexEvent st p).attn.config = s.attn.config ∧
    (s.indexEvent st p).records = s.records ∧
    (s.indexEvent st p).generation = s.generation ∧
    (s.indexEvent st p).freeCount = s.freeCount ∧
    (s.indexEvent st p).pending = s.pending ∧
    (s.indexEvent st p).web = s.web ∧
    (s.indexEvent st p).cur = s.cur := by
  unfold State.indexEvent
  dsimp only
  split_ifs <;> simp

@[simp] theorem State.heatLoss_frame (st : Fin 4) (s : State) :
    (s.heatLoss st).wpu = s.wpu ∧
    (s.heatLoss st).cylGens = s.cylGens ∧
    (s.heatLoss st).foilGens = s.foilGens ∧
    (s.heatLoss st).mark = s.mark ∧
    (s.heatLoss st).lastRetired = s.lastRetired ∧
    (s.heatLoss st).jobs.run = s.jobs.run ∧
    (s.heatLoss st).jobs.holdCause = s.jobs.holdCause ∧
    (s.heatLoss st).jobs.next = s.jobs.next ∧
    (s.heatLoss st).jobs.current = s.jobs.current ∧
    (s.heatLoss st).jobs.firstRow = s.jobs.firstRow ∧
    (s.heatLoss st).store = s.store ∧
    (s.heatLoss st).mem = s.mem ∧
    (s.heatLoss st).engine = s.engine ∧
    (s.heatLoss st).attn.enables = s.attn.enables ∧
    (s.heatLoss st).attn.config = s.attn.config ∧
    (s.heatLoss st).records = s.records ∧
    (s.heatLoss st).generation = s.generation ∧
    (s.heatLoss st).freeCount = s.freeCount ∧
    (s.heatLoss st).pending = s.pending ∧
    (s.heatLoss st).web = s.web ∧
    (s.heatLoss st).cur = s.cur := by
  unfold State.heatLoss
  dsimp only
  split <;> simp

@[simp] theorem State.countDwell_frame (st : Fin 4) (s : State) :
    (s.countDwell st).wpu = s.wpu ∧
    (s.countDwell st).cylGens = s.cylGens ∧
    (s.countDwell st).foilGens = s.foilGens ∧
    (s.countDwell st).mark = s.mark ∧
    (s.countDwell st).track = s.track ∧
    (s.countDwell st).lastRetired = s.lastRetired ∧
    (s.countDwell st).channels = s.channels ∧
    (s.countDwell st).jobs = s.jobs ∧
    (s.countDwell st).store = s.store ∧
    (s.countDwell st).mem = s.mem ∧
    (s.countDwell st).engine = s.engine ∧
    (s.countDwell st).attn = s.attn ∧
    (s.countDwell st).records = s.records ∧
    (s.countDwell st).generation = s.generation ∧
    (s.countDwell st).freeCount = s.freeCount ∧
    (s.countDwell st).pending = s.pending ∧
    (s.countDwell st).web = s.web ∧
    (s.countDwell st).cur = s.cur := by
  unfold State.countDwell
  dsimp only
  split_ifs <;> simp

@[simp] theorem State.resumeLifted_frame (st : Fin 4) (s : State) :
    (s.resumeLifted st).wpu = s.wpu ∧
    (s.resumeLifted st).cylGens = s.cylGens ∧
    (s.resumeLifted st).foilGens = s.foilGens ∧
    (s.resumeLifted st).mark = s.mark ∧
    (s.resumeLifted st).track = s.track ∧
    (s.resumeLifted st).lastRetired = s.lastRetired ∧
    (s.resumeLifted st).channels = s.channels ∧
    (s.resumeLifted st).jobs = s.jobs ∧
    (s.resumeLifted st).store = s.store ∧
    (s.resumeLifted st).mem = s.mem ∧
    (s.resumeLifted st).engine = s.engine ∧
    (s.resumeLifted st).attn = s.attn ∧
    (s.resumeLifted st).records = s.records ∧
    (s.resumeLifted st).generation = s.generation ∧
    (s.resumeLifted st).freeCount = s.freeCount ∧
    (s.resumeLifted st).pending = s.pending ∧
    (s.resumeLifted st).web = s.web ∧
    (s.resumeLifted st).cur = s.cur := by
  unfold State.resumeLifted
  split <;> simp

@[simp] theorem State.completeTravel_frame (st : Fin 4) (s : State) :
    (s.completeTravel st).wpu = s.wpu ∧
    (s.completeTravel st).cylGens = s.cylGens ∧
    (s.completeTravel st).foilGens = s.foilGens ∧
    (s.completeTravel st).mark = s.mark ∧
    (s.completeTravel st).track = s.track ∧
    (s.completeTravel st).lastRetired = s.lastRetired ∧
    (s.completeTravel st).channels = s.channels ∧
    (s.completeTravel st).jobs = s.jobs ∧
    (s.completeTravel st).store = s.store ∧
    (s.completeTravel st).mem = s.mem ∧
    (s.completeTravel st).engine = s.engine ∧
    (s.completeTravel st).attn = s.attn ∧
    (s.completeTravel st).records = s.records ∧
    (s.completeTravel st).generation = s.generation ∧
    (s.completeTravel st).freeCount = s.freeCount ∧
    (s.completeTravel st).pending = s.pending ∧
    (s.completeTravel st).web = s.web ∧
    (s.completeTravel st).cur = s.cur := by
  unfold State.completeTravel
  split <;> simp

@[simp] theorem State.stationExpiry_frame (heaters : Four Bool) (st : Fin 4) (s : State) :
    (s.stationExpiry heaters st).wpu = s.wpu ∧
    (s.stationExpiry heaters st).cylGens = s.cylGens ∧
    (s.stationExpiry heaters st).foilGens = s.foilGens ∧
    (s.stationExpiry heaters st).mark = s.mark ∧
    (s.stationExpiry heaters st).track = s.track ∧
    (s.stationExpiry heaters st).lastRetired = s.lastRetired ∧
    (s.stationExpiry heaters st).channels = s.channels ∧
    (s.stationExpiry heaters st).jobs = s.jobs ∧
    (s.stationExpiry heaters st).store = s.store ∧
    (s.stationExpiry heaters st).mem = s.mem ∧
    (s.stationExpiry heaters st).engine = s.engine ∧
    (s.stationExpiry heaters st).attn = s.attn ∧
    (s.stationExpiry heaters st).records = s.records ∧
    (s.stationExpiry heaters st).generation = s.generation ∧
    (s.stationExpiry heaters st).freeCount = s.freeCount ∧
    (s.stationExpiry heaters st).pending = s.pending ∧
    (s.stationExpiry heaters st).web = s.web ∧
    (s.stationExpiry heaters st).cur = s.cur := by
  unfold State.stationExpiry
  simp

@[simp] theorem State.startStation_frame (st : Fin 4) (s : State) :
    (s.startStation st).wpu = s.wpu ∧
    (s.startStation st).foilGens = s.foilGens ∧
    (s.startStation st).mark = s.mark ∧
    (s.startStation st).track = s.track ∧
    (s.startStation st).lastRetired = s.lastRetired ∧
    (s.startStation st).channels = s.channels ∧
    (s.startStation st).jobs = s.jobs ∧
    (s.startStation st).store = s.store ∧
    (s.startStation st).mem = s.mem ∧
    (s.startStation st).engine = s.engine ∧
    (s.startStation st).attn = s.attn ∧
    (s.startStation st).records = s.records ∧
    (s.startStation st).generation = s.generation ∧
    (s.startStation st).freeCount = s.freeCount ∧
    (s.startStation st).pending = s.pending ∧
    (s.startStation st).web = s.web ∧
    (s.startStation st).cur = s.cur := by
  unfold State.startStation
  dsimp only
  split_ifs <;> simp [State.setRatio, State.setGen]

@[simp] theorem State.idleStation_frame (st : Fin 4) (s : State) :
    (s.idleStation st).wpu = s.wpu ∧
    (s.idleStation st).foilGens = s.foilGens ∧
    (s.idleStation st).mark = s.mark ∧
    (s.idleStation st).track = s.track ∧
    (s.idleStation st).lastRetired = s.lastRetired ∧
    (s.idleStation st).channels = s.channels ∧
    (s.idleStation st).jobs = s.jobs ∧
    (s.idleStation st).store = s.store ∧
    (s.idleStation st).mem = s.mem ∧
    (s.idleStation st).engine = s.engine ∧
    (s.idleStation st).attn = s.attn ∧
    (s.idleStation st).records = s.records ∧
    (s.idleStation st).generation = s.generation ∧
    (s.idleStation st).freeCount = s.freeCount ∧
    (s.idleStation st).pending = s.pending ∧
    (s.idleStation st).web = s.web ∧
    (s.idleStation st).cur = s.cur := by
  simp [State.idleStation, State.setRatio, State.setGen]

@[simp] theorem State.holdStation_frame (st : Fin 4) (s : State) :
    (s.holdStation st).wpu = s.wpu ∧
    (s.holdStation st).cylGens = s.cylGens ∧
    (s.holdStation st).foilGens = s.foilGens ∧
    (s.holdStation st).mark = s.mark ∧
    (s.holdStation st).lastRetired = s.lastRetired ∧
    (s.holdStation st).channels = s.channels ∧
    (s.holdStation st).jobs = s.jobs ∧
    (s.holdStation st).store = s.store ∧
    (s.holdStation st).mem = s.mem ∧
    (s.holdStation st).engine = s.engine ∧
    (s.holdStation st).attn = s.attn ∧
    (s.holdStation st).records = s.records ∧
    (s.holdStation st).generation = s.generation ∧
    (s.holdStation st).freeCount = s.freeCount ∧
    (s.holdStation st).pending = s.pending ∧
    (s.holdStation st).web = s.web ∧
    (s.holdStation st).cur = s.cur := by
  unfold State.holdStation
  split <;> simp

@[simp] theorem State.drainStation_frame (st : Fin 4) (s : State) :
    (s.drainStation st).wpu = s.wpu ∧
    (s.drainStation st).cylGens = s.cylGens ∧
    (s.drainStation st).foilGens = s.foilGens ∧
    (s.drainStation st).mark = s.mark ∧
    (s.drainStation st).lastRetired = s.lastRetired ∧
    (s.drainStation st).jobs = s.jobs ∧
    (s.drainStation st).store = s.store ∧
    (s.drainStation st).mem = s.mem ∧
    (s.drainStation st).engine = s.engine ∧
    (s.drainStation st).attn.enables = s.attn.enables ∧
    (s.drainStation st).attn.config = s.attn.config ∧
    (s.drainStation st).records = s.records ∧
    (s.drainStation st).generation = s.generation ∧
    (s.drainStation st).freeCount = s.freeCount ∧
    (s.drainStation st).pending = s.pending ∧
    (s.drainStation st).web = s.web ∧
    (s.drainStation st).cur = s.cur := by
  unfold State.drainStation
  dsimp only
  split_ifs <;> simp

end Sys2Proof.Machine
end

