-- ==== Sys2Proof/Laws/FramesRun.lean ====
section
/-! SUPPORT. What the operations of records, live page, run, mark unit, encoder, timebase, jobs and plates
leave as it was, one lemma for each: every field of the state that the operation cannot change, and where
it can change part of job control or of the attention logic, the fields of those that it cannot. -/

namespace Sys2Proof.Machine

/-- Emptying NEXT leaves the rest of job control as it was. -/
@[simp] theorem JobControl.dropNext_frame (slot : Nat) (j : JobControl) :
    (j.dropNext slot).run = j.run ∧ (j.dropNext slot).holdCause = j.holdCause ∧
      (j.dropNext slot).current = j.current ∧ (j.dropNext slot).firstRow = j.firstRow ∧
      (j.dropNext slot).stopRequest = j.stopRequest ∧
      (j.dropNext slot).stopCauses = j.stopCauses := by
  unfold JobControl.dropNext
  split <;> (try split) <;> simp

@[simp] theorem State.writeRecord_frame (r : RowCtx) (s : State) :
    (s.writeRecord r).wpu = s.wpu ∧
    (s.writeRecord r).cylGens = s.cylGens ∧
    (s.writeRecord r).foilGens = s.foilGens ∧
    (s.writeRecord r).mark = s.mark ∧
    (s.writeRecord r).track = s.track ∧
    (s.writeRecord r).lastRetired = s.lastRetired ∧
    (s.writeRecord r).stations = s.stations ∧
    (s.writeRecord r).channels = s.channels ∧
    (s.writeRecord r).jobs = s.jobs ∧
    (s.writeRecord r).store = s.store ∧
    (s.writeRecord r).engine = s.engine ∧
    (s.writeRecord r).attn = s.attn ∧
    (s.writeRecord r).records = s.records ∧
    (s.writeRecord r).generation = s.generation ∧
    (s.writeRecord r).freeCount = s.freeCount ∧
    (s.writeRecord r).pending = s.pending ∧
    (s.writeRecord r).web = s.web ∧
    (s.writeRecord r).cur = s.cur := by
  simp [State.writeRecord]

@[simp] theorem State.setWrittenThrough_frame (n : Word) (s : State) :
    (s.setWrittenThrough n).wpu = s.wpu ∧
    (s.setWrittenThrough n).cylGens = s.cylGens ∧
    (s.setWrittenThrough n).foilGens = s.foilGens ∧
    (s.setWrittenThrough n).mark = s.mark ∧
    (s.setWrittenThrough n).track = s.track ∧
    (s.setWrittenThrough n).lastRetired = s.lastRetired ∧
    (s.setWrittenThrough n).stations = s.stations ∧
    (s.setWrittenThrough n).channels = s.channels ∧
    (s.setWrittenThrough n).jobs = s.jobs ∧
    (s.setWrittenThrough n).store = s.store ∧
    (s.setWrittenThrough n).engine = s.engine ∧
    (s.setWrittenThrough n).attn = s.attn ∧
    (s.setWrittenThrough n).generation = s.generation ∧
    (s.setWrittenThrough n).freeCount = s.freeCount ∧
    (s.setWrittenThrough n).pending = s.pending ∧
    (s.setWrittenThrough n).web = s.web ∧
    (s.setWrittenThrough n).cur = s.cur := by
  unfold State.setWrittenThrough
  simp

@[simp] theorem State.advanceOldest_frame (n : Word) (s : State) :
    (s.advanceOldest n).wpu = s.wpu ∧
    (s.advanceOldest n).cylGens = s.cylGens ∧
    (s.advanceOldest n).foilGens = s.foilGens ∧
    (s.advanceOldest n).mark = s.mark ∧
    (s.advanceOldest n).track = s.track ∧
    (s.advanceOldest n).lastRetired = s.lastRetired ∧
    (s.advanceOldest n).stations = s.stations ∧
    (s.advanceOldest n).channels = s.channels ∧
    (s.advanceOldest n).jobs = s.jobs ∧
    (s.advanceOldest n).store = s.store ∧
    (s.advanceOldest n).engine = s.engine ∧
    (s.advanceOldest n).attn = s.attn ∧
    (s.advanceOldest n).generation = s.generation ∧
    (s.advanceOldest n).freeCount = s.freeCount ∧
    (s.advanceOldest n).pending = s.pending ∧
    (s.advanceOldest n).web = s.web ∧
    (s.advanceOldest n).cur = s.cur := by
  unfold State.advanceOldest
  split <;> simp

@[simp] theorem State.record_frame (r : RowCtx) (s : State) :
    (s.record r).wpu = s.wpu ∧
    (s.record r).cylGens = s.cylGens ∧
    (s.record r).foilGens = s.foilGens ∧
    (s.record r).mark = s.mark ∧
    (s.record r).track = s.track ∧
    (s.record r).lastRetired = s.lastRetired ∧
    (s.record r).stations = s.stations ∧
    (s.record r).channels = s.channels ∧
    (s.record r).jobs = s.jobs ∧
    (s.record r).store = s.store ∧
    (s.record r).engine = s.engine ∧
    (s.record r).attn.enables = s.attn.enables ∧
    (s.record r).attn.config = s.attn.config ∧
    (s.record r).generation = s.generation ∧
    (s.record r).freeCount = s.freeCount ∧
    (s.record r).pending = s.pending ∧
    (s.record r).web = s.web ∧
    (s.record r).cur = s.cur := by
  unfold State.record
  dsimp only
  split_ifs <;> simp

@[simp] theorem State.retireRows_frame (rs : List RowCtx) (s : State) :
    (s.retireRows rs).wpu = s.wpu ∧
    (s.retireRows rs).cylGens = s.cylGens ∧
    (s.retireRows rs).foilGens = s.foilGens ∧
    (s.retireRows rs).mark = s.mark ∧
    (s.retireRows rs).stations = s.stations ∧
    (s.retireRows rs).channels = s.channels ∧
    (s.retireRows rs).jobs = s.jobs ∧
    (s.retireRows rs).store = s.store ∧
    (s.retireRows rs).engine = s.engine ∧
    (s.retireRows rs).attn.enables = s.attn.enables ∧
    (s.retireRows rs).attn.config = s.attn.config ∧
    (s.retireRows rs).generation = s.generation ∧
    (s.retireRows rs).freeCount = s.freeCount ∧
    (s.retireRows rs).pending = s.pending ∧
    (s.retireRows rs).web = s.web ∧
    (s.retireRows rs).cur = s.cur := by
  induction rs generalizing s with
  | nil => simp [State.retireRows]
  | cons n ns ih => simp [State.retireRows, ih]

@[simp] theorem State.retireHead_frame (s : State) :
    (s.retireHead).wpu = s.wpu ∧
    (s.retireHead).cylGens = s.cylGens ∧
    (s.retireHead).foilGens = s.foilGens ∧
    (s.retireHead).mark = s.mark ∧
    (s.retireHead).stations = s.stations ∧
    (s.retireHead).channels = s.channels ∧
    (s.retireHead).jobs = s.jobs ∧
    (s.retireHead).store = s.store ∧
    (s.retireHead).engine = s.engine ∧
    (s.retireHead).attn.enables = s.attn.enables ∧
    (s.retireHead).attn.config = s.attn.config ∧
    (s.retireHead).generation = s.generation ∧
    (s.retireHead).freeCount = s.freeCount ∧
    (s.retireHead).pending = s.pending ∧
    (s.retireHead).web = s.web ∧
    (s.retireHead).cur = s.cur := by
  unfold State.retireHead
  split <;> simp

@[simp] theorem State.bumpGeneration_frame (s : State) :
    (s.bumpGeneration).wpu = s.wpu ∧
    (s.bumpGeneration).cylGens = s.cylGens ∧
    (s.bumpGeneration).foilGens = s.foilGens ∧
    (s.bumpGeneration).mark = s.mark ∧
    (s.bumpGeneration).track = s.track ∧
    (s.bumpGeneration).lastRetired = s.lastRetired ∧
    (s.bumpGeneration).stations = s.stations ∧
    (s.bumpGeneration).channels = s.channels ∧
    (s.bumpGeneration).jobs = s.jobs ∧
    (s.bumpGeneration).store = s.store ∧
    (s.bumpGeneration).engine = s.engine ∧
    (s.bumpGeneration).attn = s.attn ∧
    (s.bumpGeneration).records = s.records ∧
    (s.bumpGeneration).freeCount = s.freeCount ∧
    (s.bumpGeneration).pending = s.pending ∧
    (s.bumpGeneration).web = s.web ∧
    (s.bumpGeneration).cur = s.cur := by
  unfold State.bumpGeneration
  simp

@[simp] theorem State.liveUpdate_frame (s : State) :
    (s.liveUpdate).wpu = s.wpu ∧
    (s.liveUpdate).cylGens = s.cylGens ∧
    (s.liveUpdate).foilGens = s.foilGens ∧
    (s.liveUpdate).mark = s.mark ∧
    (s.liveUpdate).track = s.track ∧
    (s.liveUpdate).lastRetired = s.lastRetired ∧
    (s.liveUpdate).stations = s.stations ∧
    (s.liveUpdate).channels = s.channels ∧
    (s.liveUpdate).jobs = s.jobs ∧
    (s.liveUpdate).store = s.store ∧
    (s.liveUpdate).engine = s.engine ∧
    (s.liveUpdate).attn = s.attn ∧
    (s.liveUpdate).records = s.records ∧
    (s.liveUpdate).freeCount = s.freeCount ∧
    (s.liveUpdate).pending = s.pending ∧
    (s.liveUpdate).web = s.web ∧
    (s.liveUpdate).cur = s.cur := by
  unfold State.liveUpdate
  simp

@[simp] theorem State.enterIdle_frame (s : State) :
    (s.enterIdle).jobs.next = s.jobs.next ∧
    (s.enterIdle).jobs.current = s.jobs.current ∧
    (s.enterIdle).jobs.firstRow = s.jobs.firstRow ∧
    (s.enterIdle).store = s.store ∧
    (s.enterIdle).mem = s.mem ∧
    (s.enterIdle).engine = s.engine ∧
    (s.enterIdle).attn.enables = s.attn.enables ∧
    (s.enterIdle).attn.config = s.attn.config ∧
    (s.enterIdle).records = s.records ∧
    (s.enterIdle).generation = s.generation ∧
    (s.enterIdle).freeCount = s.freeCount ∧
    (s.enterIdle).pending = s.pending ∧
    (s.enterIdle).cur = s.cur := by
  simp [State.enterIdle, forStations, forChannels, State.cur]

@[simp] theorem State.hold_frame (cause : HoldCause) (s : State) :
    (s.hold cause).wpu = s.wpu ∧
    (s.hold cause).cylGens = s.cylGens ∧
    (s.hold cause).foilGens = s.foilGens ∧
    (s.hold cause).jobs.next = s.jobs.next ∧
    (s.hold cause).jobs.current = s.jobs.current ∧
    (s.hold cause).jobs.firstRow = s.jobs.firstRow ∧
    (s.hold cause).store = s.store ∧
    (s.hold cause).engine = s.engine ∧
    (s.hold cause).attn.enables = s.attn.enables ∧
    (s.hold cause).attn.config = s.attn.config ∧
    (s.hold cause).generation = s.generation ∧
    (s.hold cause).freeCount = s.freeCount ∧
    (s.hold cause).pending = s.pending ∧
    (s.hold cause).web = s.web ∧
    (s.hold cause).cur = s.cur := by
  simp [State.hold, forStations, forChannels, State.cur]

@[simp] theorem State.handHold_frame (cause : HoldCause) (s : State) :
    (s.handHold cause).wpu = s.wpu ∧
    (s.handHold cause).cylGens = s.cylGens ∧
    (s.handHold cause).foilGens = s.foilGens ∧
    (s.handHold cause).jobs.next = s.jobs.next ∧
    (s.handHold cause).jobs.current = s.jobs.current ∧
    (s.handHold cause).jobs.firstRow = s.jobs.firstRow ∧
    (s.handHold cause).store = s.store ∧
    (s.handHold cause).engine = s.engine ∧
    (s.handHold cause).attn.enables = s.attn.enables ∧
    (s.handHold cause).attn.config = s.attn.config ∧
    (s.handHold cause).generation = s.generation ∧
    (s.handHold cause).freeCount = s.freeCount ∧
    (s.handHold cause).pending = s.pending ∧
    (s.handHold cause).web = s.web ∧
    (s.handHold cause).cur = s.cur := by
  unfold State.handHold
  split <;> simp

@[simp] theorem State.enterDraining_frame (s : State) :
    (s.enterDraining).wpu = s.wpu ∧
    (s.enterDraining).cylGens = s.cylGens ∧
    (s.enterDraining).foilGens = s.foilGens ∧
    (s.enterDraining).lastRetired = s.lastRetired ∧
    (s.enterDraining).jobs.next = s.jobs.next ∧
    (s.enterDraining).jobs.current = s.jobs.current ∧
    (s.enterDraining).jobs.firstRow = s.jobs.firstRow ∧
    (s.enterDraining).store = s.store ∧
    (s.enterDraining).mem = s.mem ∧
    (s.enterDraining).engine = s.engine ∧
    (s.enterDraining).attn.enables = s.attn.enables ∧
    (s.enterDraining).attn.config = s.attn.config ∧
    (s.enterDraining).records = s.records ∧
    (s.enterDraining).generation = s.generation ∧
    (s.enterDraining).freeCount = s.freeCount ∧
    (s.enterDraining).pending = s.pending ∧
    (s.enterDraining).web = s.web ∧
    (s.enterDraining).cur = s.cur := by
  simp [State.enterDraining, forStations, State.cur]

@[simp] theorem State.setLane_frame (l : Fin 4) (n : Word) (e : LaneEntry) (s : State) :
    (s.setLane l n e).wpu = s.wpu ∧
    (s.setLane l n e).cylGens = s.cylGens ∧
    (s.setLane l n e).foilGens = s.foilGens ∧
    (s.setLane l n e).mark = s.mark ∧
    (s.setLane l n e).lastRetired = s.lastRetired ∧
    (s.setLane l n e).stations = s.stations ∧
    (s.setLane l n e).channels = s.channels ∧
    (s.setLane l n e).jobs = s.jobs ∧
    (s.setLane l n e).store = s.store ∧
    (s.setLane l n e).mem = s.mem ∧
    (s.setLane l n e).engine = s.engine ∧
    (s.setLane l n e).attn = s.attn ∧
    (s.setLane l n e).records = s.records ∧
    (s.setLane l n e).generation = s.generation ∧
    (s.setLane l n e).freeCount = s.freeCount ∧
    (s.setLane l n e).pending = s.pending ∧
    (s.setLane l n e).web = s.web ∧
    (s.setLane l n e).cur = s.cur := by
  unfold State.setLane
  simp

@[simp] theorem State.setWindow_frame (l : Fin 4) (w : Option LaneWindow) (s : State) :
    (s.setWindow l w).wpu = s.wpu ∧
    (s.setWindow l w).cylGens = s.cylGens ∧
    (s.setWindow l w).foilGens = s.foilGens ∧
    (s.setWindow l w).track = s.track ∧
    (s.setWindow l w).lastRetired = s.lastRetired ∧
    (s.setWindow l w).stations = s.stations ∧
    (s.setWindow l w).channels = s.channels ∧
    (s.setWindow l w).jobs = s.jobs ∧
    (s.setWindow l w).store = s.store ∧
    (s.setWindow l w).mem = s.mem ∧
    (s.setWindow l w).engine = s.engine ∧
    (s.setWindow l w).attn = s.attn ∧
    (s.setWindow l w).records = s.records ∧
    (s.setWindow l w).generation = s.generation ∧
    (s.setWindow l w).freeCount = s.freeCount ∧
    (s.setWindow l w).pending = s.pending ∧
    (s.setWindow l w).web = s.web ∧
    (s.setWindow l w).cur = s.cur := by
  unfold State.setWindow
  simp

@[simp] theorem State.setHeld_frame (l : Fin 4) (p : Option Pos) (s : State) :
    (s.setHeld l p).wpu = s.wpu ∧
    (s.setHeld l p).cylGens = s.cylGens ∧
    (s.setHeld l p).foilGens = s.foilGens ∧
    (s.setHeld l p).track = s.track ∧
    (s.setHeld l p).lastRetired = s.lastRetired ∧
    (s.setHeld l p).stations = s.stations ∧
    (s.setHeld l p).channels = s.channels ∧
    (s.setHeld l p).jobs = s.jobs ∧
    (s.setHeld l p).store = s.store ∧
    (s.setHeld l p).mem = s.mem ∧
    (s.setHeld l p).engine = s.engine ∧
    (s.setHeld l p).attn = s.attn ∧
    (s.setHeld l p).records = s.records ∧
    (s.setHeld l p).generation = s.generation ∧
    (s.setHeld l p).freeCount = s.freeCount ∧
    (s.setHeld l p).pending = s.pending ∧
    (s.setHeld l p).web = s.web ∧
    (s.setHeld l p).cur = s.cur := by
  unfold State.setHeld
  simp

@[simp] theorem State.laneFound_frame (l : Fin 4) (w : LaneWindow) (p : Pos) (s : State) :
    (s.laneFound l w p).wpu = s.wpu ∧
    (s.laneFound l w p).cylGens = s.cylGens ∧
    (s.laneFound l w p).foilGens = s.foilGens ∧
    (s.laneFound l w p).lastRetired = s.lastRetired ∧
    (s.laneFound l w p).stations = s.stations ∧
    (s.laneFound l w p).channels = s.channels ∧
    (s.laneFound l w p).jobs = s.jobs ∧
    (s.laneFound l w p).store = s.store ∧
    (s.laneFound l w p).mem = s.mem ∧
    (s.laneFound l w p).engine = s.engine ∧
    (s.laneFound l w p).attn = s.attn ∧
    (s.laneFound l w p).records = s.records ∧
    (s.laneFound l w p).generation = s.generation ∧
    (s.laneFound l w p).freeCount = s.freeCount ∧
    (s.laneFound l w p).pending = s.pending ∧
    (s.laneFound l w p).web = s.web ∧
    (s.laneFound l w p).cur = s.cur := by
  unfold State.laneFound
  simp

@[simp] theorem State.laneMissing_frame (l : Fin 4) (w : LaneWindow) (s : State) :
    (s.laneMissing l w).wpu = s.wpu ∧
    (s.laneMissing l w).cylGens = s.cylGens ∧
    (s.laneMissing l w).foilGens = s.foilGens ∧
    (s.laneMissing l w).lastRetired = s.lastRetired ∧
    (s.laneMissing l w).stations = s.stations ∧
    (s.laneMissing l w).channels = s.channels ∧
    (s.laneMissing l w).jobs = s.jobs ∧
    (s.laneMissing l w).store = s.store ∧
    (s.laneMissing l w).mem = s.mem ∧
    (s.laneMissing l w).engine = s.engine ∧
    (s.laneMissing l w).attn = s.attn ∧
    (s.laneMissing l w).records = s.records ∧
    (s.laneMissing l w).generation = s.generation ∧
    (s.laneMissing l w).freeCount = s.freeCount ∧
    (s.laneMissing l w).pending = s.pending ∧
    (s.laneMissing l w).web = s.web ∧
    (s.laneMissing l w).cur = s.cur := by
  unfold State.laneMissing
  simp

@[simp] theorem State.openLane_frame (n : Word) (lead : Pos) (l : Fin 4) (s : State) :
    (s.openLane n lead l).wpu = s.wpu ∧
    (s.openLane n lead l).cylGens = s.cylGens ∧
    (s.openLane n lead l).foilGens = s.foilGens ∧
    (s.openLane n lead l).lastRetired = s.lastRetired ∧
    (s.openLane n lead l).stations = s.stations ∧
    (s.openLane n lead l).channels = s.channels ∧
    (s.openLane n lead l).jobs = s.jobs ∧
    (s.openLane n lead l).store = s.store ∧
    (s.openLane n lead l).mem = s.mem ∧
    (s.openLane n lead l).engine = s.engine ∧
    (s.openLane n lead l).attn = s.attn ∧
    (s.openLane n lead l).records = s.records ∧
    (s.openLane n lead l).generation = s.generation ∧
    (s.openLane n lead l).freeCount = s.freeCount ∧
    (s.openLane n lead l).pending = s.pending ∧
    (s.openLane n lead l).web = s.web ∧
    (s.openLane n lead l).cur = s.cur := by
  unfold State.openLane
  cases s.mark.held.get l <;> dsimp only <;> split_ifs <;> simp

@[simp] theorem State.noteStatus_frame (m : MarkStatus) (s : State) :
    (s.noteStatus m).wpu = s.wpu ∧
    (s.noteStatus m).cylGens = s.cylGens ∧
    (s.noteStatus m).foilGens = s.foilGens ∧
    (s.noteStatus m).track = s.track ∧
    (s.noteStatus m).lastRetired = s.lastRetired ∧
    (s.noteStatus m).stations = s.stations ∧
    (s.noteStatus m).channels = s.channels ∧
    (s.noteStatus m).jobs.run = s.jobs.run ∧
    (s.noteStatus m).jobs.holdCause = s.jobs.holdCause ∧
    (s.noteStatus m).jobs.next = s.jobs.next ∧
    (s.noteStatus m).jobs.current = s.jobs.current ∧
    (s.noteStatus m).jobs.firstRow = s.jobs.firstRow ∧
    (s.noteStatus m).store = s.store ∧
    (s.noteStatus m).mem = s.mem ∧
    (s.noteStatus m).engine = s.engine ∧
    (s.noteStatus m).attn.enables = s.attn.enables ∧
    (s.noteStatus m).attn.config = s.attn.config ∧
    (s.noteStatus m).records = s.records ∧
    (s.noteStatus m).generation = s.generation ∧
    (s.noteStatus m).freeCount = s.freeCount ∧
    (s.noteStatus m).pending = s.pending ∧
    (s.noteStatus m).web = s.web ∧
    (s.noteStatus m).cur = s.cur := by
  unfold State.noteStatus
  dsimp only
  split <;> (try split_ifs) <;> simp

@[simp] theorem State.appendRow_frame (r : RowCtx) (s : State) :
    (s.appendRow r).wpu = s.wpu ∧
    (s.appendRow r).cylGens = s.cylGens ∧
    (s.appendRow r).foilGens = s.foilGens ∧
    (s.appendRow r).lastRetired = s.lastRetired ∧
    (s.appendRow r).stations = s.stations ∧
    (s.appendRow r).channels = s.channels ∧
    (s.appendRow r).jobs = s.jobs ∧
    (s.appendRow r).store = s.store ∧
    (s.appendRow r).engine = s.engine ∧
    (s.appendRow r).attn.enables = s.attn.enables ∧
    (s.appendRow r).attn.config = s.attn.config ∧
    (s.appendRow r).records = s.records ∧
    (s.appendRow r).generation = s.generation ∧
    (s.appendRow r).freeCount = s.freeCount ∧
    (s.appendRow r).pending = s.pending ∧
    (s.appendRow r).web = s.web ∧
    (s.appendRow r).cur = s.cur := by
  unfold State.appendRow
  dsimp only
  split_ifs <;> simp

@[simp] theorem State.noteFirst_frame (m : MarkStatus) (s : State) :
    (s.noteFirst m).wpu = s.wpu ∧
    (s.noteFirst m).cylGens = s.cylGens ∧
    (s.noteFirst m).foilGens = s.foilGens ∧
    (s.noteFirst m).mark = s.mark ∧
    (s.noteFirst m).track = s.track ∧
    (s.noteFirst m).lastRetired = s.lastRetired ∧
    (s.noteFirst m).stations = s.stations ∧
    (s.noteFirst m).channels = s.channels ∧
    (s.noteFirst m).jobs.next = s.jobs.next ∧
    (s.noteFirst m).jobs.current = s.jobs.current ∧
    (s.noteFirst m).jobs.firstRow = s.jobs.firstRow ∧
    (s.noteFirst m).store = s.store ∧
    (s.noteFirst m).mem = s.mem ∧
    (s.noteFirst m).engine = s.engine ∧
    (s.noteFirst m).attn = s.attn ∧
    (s.noteFirst m).records = s.records ∧
    (s.noteFirst m).generation = s.generation ∧
    (s.noteFirst m).freeCount = s.freeCount ∧
    (s.noteFirst m).pending = s.pending ∧
    (s.noteFirst m).web = s.web ∧
    (s.noteFirst m).cur = s.cur := by
  unfold State.noteFirst
  split <;> simp [State.cur]

@[simp] theorem State.openRow_frame (m : MarkStatus) (lead : Pos) (s : State) :
    (s.openRow m lead).wpu = s.wpu ∧
    (s.openRow m lead).cylGens = s.cylGens ∧
    (s.openRow m lead).foilGens = s.foilGens ∧
    (s.openRow m lead).jobs.next = s.jobs.next ∧
    (s.openRow m lead).jobs.current = s.jobs.current ∧
    (s.openRow m lead).jobs.firstRow = s.jobs.firstRow ∧
    (s.openRow m lead).store = s.store ∧
    (s.openRow m lead).engine = s.engine ∧
    (s.openRow m lead).attn.enables = s.attn.enables ∧
    (s.openRow m lead).attn.config = s.attn.config ∧
    (s.openRow m lead).generation = s.generation ∧
    (s.openRow m lead).freeCount = s.freeCount ∧
    (s.openRow m lead).pending = s.pending ∧
    (s.openRow m lead).web = s.web ∧
    (s.openRow m lead).cur = s.cur := by
  unfold State.openRow
  split_ifs <;> simp [forLanes, forStations]

@[simp] theorem State.leadingEdge_frame (p : Pos) (n : Nat) (s : State) :
    (s.leadingEdge p n).wpu = s.wpu ∧
    (s.leadingEdge p n).cylGens = s.cylGens ∧
    (s.leadingEdge p n).foilGens = s.foilGens ∧
    (s.leadingEdge p n).jobs.next = s.jobs.next ∧
    (s.leadingEdge p n).jobs.current = s.jobs.current ∧
    (s.leadingEdge p n).jobs.firstRow = s.jobs.firstRow ∧
    (s.leadingEdge p n).store = s.store ∧
    (s.leadingEdge p n).engine = s.engine ∧
    (s.leadingEdge p n).attn.enables = s.attn.enables ∧
    (s.leadingEdge p n).attn.config = s.attn.config ∧
    (s.leadingEdge p n).generation = s.generation ∧
    (s.leadingEdge p n).freeCount = s.freeCount ∧
    (s.leadingEdge p n).pending = s.pending ∧
    (s.leadingEdge p n).web = s.web ∧
    (s.leadingEdge p n).cur = s.cur := by
  induction n generalizing s with
  | zero => simp [State.leadingEdge]
  | succ n ih =>
    unfold State.leadingEdge
    split
    · split_ifs <;> simp [ih]
    · simp

@[simp] theorem State.laneEdge_frame (l : Fin 4) (p : Pos) (s : State) :
    (s.laneEdge l p).wpu = s.wpu ∧
    (s.laneEdge l p).cylGens = s.cylGens ∧
    (s.laneEdge l p).foilGens = s.foilGens ∧
    (s.laneEdge l p).lastRetired = s.lastRetired ∧
    (s.laneEdge l p).stations = s.stations ∧
    (s.laneEdge l p).channels = s.channels ∧
    (s.laneEdge l p).jobs = s.jobs ∧
    (s.laneEdge l p).store = s.store ∧
    (s.laneEdge l p).mem = s.mem ∧
    (s.laneEdge l p).engine = s.engine ∧
    (s.laneEdge l p).attn = s.attn ∧
    (s.laneEdge l p).records = s.records ∧
    (s.laneEdge l p).generation = s.generation ∧
    (s.laneEdge l p).freeCount = s.freeCount ∧
    (s.laneEdge l p).pending = s.pending ∧
    (s.laneEdge l p).web = s.web ∧
    (s.laneEdge l p).cur = s.cur := by
  unfold State.laneEdge
  split <;> (try split_ifs) <;> simp

@[simp] theorem State.takeMark_frame (l : Fin 4) (p : Pos) (s : State) :
    (s.takeMark l p).wpu = s.wpu ∧
    (s.takeMark l p).cylGens = s.cylGens ∧
    (s.takeMark l p).foilGens = s.foilGens ∧
    (s.takeMark l p).jobs.next = s.jobs.next ∧
    (s.takeMark l p).jobs.current = s.jobs.current ∧
    (s.takeMark l p).jobs.firstRow = s.jobs.firstRow ∧
    (s.takeMark l p).store = s.store ∧
    (s.takeMark l p).engine = s.engine ∧
    (s.takeMark l p).attn.enables = s.attn.enables ∧
    (s.takeMark l p).attn.config = s.attn.config ∧
    (s.takeMark l p).generation = s.generation ∧
    (s.takeMark l p).freeCount = s.freeCount ∧
    (s.takeMark l p).pending = s.pending ∧
    (s.takeMark l p).web = s.web ∧
    (s.takeMark l p).cur = s.cur := by
  unfold State.takeMark
  split_ifs <;> (try split) <;> simp

@[simp] theorem State.closeLane_frame (p : Pos) (l : Fin 4) (s : State) :
    (s.closeLane p l).wpu = s.wpu ∧
    (s.closeLane p l).cylGens = s.cylGens ∧
    (s.closeLane p l).foilGens = s.foilGens ∧
    (s.closeLane p l).lastRetired = s.lastRetired ∧
    (s.closeLane p l).stations = s.stations ∧
    (s.closeLane p l).channels = s.channels ∧
    (s.closeLane p l).jobs = s.jobs ∧
    (s.closeLane p l).store = s.store ∧
    (s.closeLane p l).mem = s.mem ∧
    (s.closeLane p l).engine = s.engine ∧
    (s.closeLane p l).attn = s.attn ∧
    (s.closeLane p l).records = s.records ∧
    (s.closeLane p l).generation = s.generation ∧
    (s.closeLane p l).freeCount = s.freeCount ∧
    (s.closeLane p l).pending = s.pending ∧
    (s.closeLane p l).web = s.web ∧
    (s.closeLane p l).cur = s.cur := by
  unfold State.closeLane
  split <;> (try split_ifs) <;> simp

@[simp] theorem State.closeLeading_frame (p : Pos) (s : State) :
    (s.closeLeading p).wpu = s.wpu ∧
    (s.closeLeading p).cylGens = s.cylGens ∧
    (s.closeLeading p).foilGens = s.foilGens ∧
    (s.closeLeading p).jobs.next = s.jobs.next ∧
    (s.closeLeading p).jobs.current = s.jobs.current ∧
    (s.closeLeading p).jobs.firstRow = s.jobs.firstRow ∧
    (s.closeLeading p).store = s.store ∧
    (s.closeLeading p).engine = s.engine ∧
    (s.closeLeading p).attn.enables = s.attn.enables ∧
    (s.closeLeading p).attn.config = s.attn.config ∧
    (s.closeLeading p).generation = s.generation ∧
    (s.closeLeading p).freeCount = s.freeCount ∧
    (s.closeLeading p).pending = s.pending ∧
    (s.closeLeading p).web = s.web ∧
    (s.closeLeading p).cur = s.cur := by
  unfold State.closeLeading
  split <;> (try split_ifs) <;> simp

@[simp] theorem State.markWeb_frame (p : Pos) (s : State) :
    (s.markWeb p).wpu = s.wpu ∧
    (s.markWeb p).cylGens = s.cylGens ∧
    (s.markWeb p).foilGens = s.foilGens ∧
    (s.markWeb p).jobs.next = s.jobs.next ∧
    (s.markWeb p).jobs.current = s.jobs.current ∧
    (s.markWeb p).jobs.firstRow = s.jobs.firstRow ∧
    (s.markWeb p).store = s.store ∧
    (s.markWeb p).engine = s.engine ∧
    (s.markWeb p).attn.enables = s.attn.enables ∧
    (s.markWeb p).attn.config = s.attn.config ∧
    (s.markWeb p).generation = s.generation ∧
    (s.markWeb p).freeCount = s.freeCount ∧
    (s.markWeb p).pending = s.pending ∧
    (s.markWeb p).web = s.web ∧
    (s.markWeb p).cur = s.cur := by
  simp [State.markWeb, forLanes]

@[simp] theorem State.setMarkLevel_frame (l : Fin 4) (level : Bool) (s : State) :
    (s.setMarkLevel l level).wpu = s.wpu ∧
    (s.setMarkLevel l level).cylGens = s.cylGens ∧
    (s.setMarkLevel l level).foilGens = s.foilGens ∧
    (s.setMarkLevel l level).track = s.track ∧
    (s.setMarkLevel l level).lastRetired = s.lastRetired ∧
    (s.setMarkLevel l level).stations = s.stations ∧
    (s.setMarkLevel l level).channels = s.channels ∧
    (s.setMarkLevel l level).jobs = s.jobs ∧
    (s.setMarkLevel l level).store = s.store ∧
    (s.setMarkLevel l level).mem = s.mem ∧
    (s.setMarkLevel l level).engine = s.engine ∧
    (s.setMarkLevel l level).attn = s.attn ∧
    (s.setMarkLevel l level).records = s.records ∧
    (s.setMarkLevel l level).generation = s.generation ∧
    (s.setMarkLevel l level).freeCount = s.freeCount ∧
    (s.setMarkLevel l level).pending = s.pending ∧
    (s.setMarkLevel l level).web = s.web ∧
    (s.setMarkLevel l level).cur = s.cur := by
  unfold State.setMarkLevel
  simp

@[simp] theorem State.setPair_frame (a b : Bool) (s : State) :
    (s.setPair a b).cylGens = s.cylGens ∧
    (s.setPair a b).foilGens = s.foilGens ∧
    (s.setPair a b).mark = s.mark ∧
    (s.setPair a b).track = s.track ∧
    (s.setPair a b).lastRetired = s.lastRetired ∧
    (s.setPair a b).stations = s.stations ∧
    (s.setPair a b).channels = s.channels ∧
    (s.setPair a b).jobs = s.jobs ∧
    (s.setPair a b).store = s.store ∧
    (s.setPair a b).mem = s.mem ∧
    (s.setPair a b).engine = s.engine ∧
    (s.setPair a b).attn = s.attn ∧
    (s.setPair a b).records = s.records ∧
    (s.setPair a b).generation = s.generation ∧
    (s.setPair a b).freeCount = s.freeCount ∧
    (s.setPair a b).pending = s.pending ∧
    (s.setPair a b).cur = s.cur := by
  unfold State.setPair
  simp

@[simp] theorem State.reverseCheck_frame (s : State) :
    (s.reverseCheck).wpu = s.wpu ∧
    (s.reverseCheck).cylGens = s.cylGens ∧
    (s.reverseCheck).foilGens = s.foilGens ∧
    (s.reverseCheck).jobs.next = s.jobs.next ∧
    (s.reverseCheck).jobs.current = s.jobs.current ∧
    (s.reverseCheck).jobs.firstRow = s.jobs.firstRow ∧
    (s.reverseCheck).store = s.store ∧
    (s.reverseCheck).engine = s.engine ∧
    (s.reverseCheck).attn.enables = s.attn.enables ∧
    (s.reverseCheck).attn.config = s.attn.config ∧
    (s.reverseCheck).generation = s.generation ∧
    (s.reverseCheck).freeCount = s.freeCount ∧
    (s.reverseCheck).pending = s.pending ∧
    (s.reverseCheck).web = s.web ∧
    (s.reverseCheck).cur = s.cur := by
  unfold State.reverseCheck
  split <;> simp

@[simp] theorem State.webChange_frame (p : Pos) (s : State) :
    (s.webChange p).jobs.next = s.jobs.next ∧
    (s.webChange p).jobs.current = s.jobs.current ∧
    (s.webChange p).jobs.firstRow = s.jobs.firstRow ∧
    (s.webChange p).store = s.store ∧
    (s.webChange p).engine = s.engine ∧
    (s.webChange p).attn.enables = s.attn.enables ∧
    (s.webChange p).attn.config = s.attn.config ∧
    (s.webChange p).generation = s.generation ∧
    (s.webChange p).freeCount = s.freeCount ∧
    (s.webChange p).pending = s.pending ∧
    (s.webChange p).cur = s.cur := by
  simp [State.webChange, forStations, forChannels]

@[simp] theorem State.count_frame (d : Direction) (s : State) :
    (s.count d).jobs.next = s.jobs.next ∧
    (s.count d).jobs.current = s.jobs.current ∧
    (s.count d).jobs.firstRow = s.jobs.firstRow ∧
    (s.count d).store = s.store ∧
    (s.count d).engine = s.engine ∧
    (s.count d).attn.enables = s.attn.enables ∧
    (s.count d).attn.config = s.attn.config ∧
    (s.count d).generation = s.generation ∧
    (s.count d).freeCount = s.freeCount ∧
    (s.count d).pending = s.pending ∧
    (s.count d).cur = s.cur := by
  unfold State.count
  dsimp only
  split_ifs <;> simp

@[simp] theorem State.overspeedCheck_frame (s : State) :
    (s.overspeedCheck).cylGens = s.cylGens ∧
    (s.overspeedCheck).foilGens = s.foilGens ∧
    (s.overspeedCheck).mark = s.mark ∧
    (s.overspeedCheck).track = s.track ∧
    (s.overspeedCheck).lastRetired = s.lastRetired ∧
    (s.overspeedCheck).stations = s.stations ∧
    (s.overspeedCheck).channels = s.channels ∧
    (s.overspeedCheck).jobs.run = s.jobs.run ∧
    (s.overspeedCheck).jobs.holdCause = s.jobs.holdCause ∧
    (s.overspeedCheck).jobs.next = s.jobs.next ∧
    (s.overspeedCheck).jobs.current = s.jobs.current ∧
    (s.overspeedCheck).jobs.firstRow = s.jobs.firstRow ∧
    (s.overspeedCheck).store = s.store ∧
    (s.overspeedCheck).mem = s.mem ∧
    (s.overspeedCheck).engine = s.engine ∧
    (s.overspeedCheck).attn.enables = s.attn.enables ∧
    (s.overspeedCheck).attn.config = s.attn.config ∧
    (s.overspeedCheck).records = s.records ∧
    (s.overspeedCheck).generation = s.generation ∧
    (s.overspeedCheck).freeCount = s.freeCount ∧
    (s.overspeedCheck).pending = s.pending ∧
    (s.overspeedCheck).cur = s.cur := by
  unfold State.overspeedCheck
  split_ifs <;> simp

@[simp] theorem State.speedUpdate_frame (s : State) :
    (s.speedUpdate).cylGens = s.cylGens ∧
    (s.speedUpdate).foilGens = s.foilGens ∧
    (s.speedUpdate).mark = s.mark ∧
    (s.speedUpdate).track = s.track ∧
    (s.speedUpdate).lastRetired = s.lastRetired ∧
    (s.speedUpdate).stations = s.stations ∧
    (s.speedUpdate).channels = s.channels ∧
    (s.speedUpdate).jobs.run = s.jobs.run ∧
    (s.speedUpdate).jobs.holdCause = s.jobs.holdCause ∧
    (s.speedUpdate).jobs.next = s.jobs.next ∧
    (s.speedUpdate).jobs.current = s.jobs.current ∧
    (s.speedUpdate).jobs.firstRow = s.jobs.firstRow ∧
    (s.speedUpdate).store = s.store ∧
    (s.speedUpdate).mem = s.mem ∧
    (s.speedUpdate).engine = s.engine ∧
    (s.speedUpdate).attn.enables = s.attn.enables ∧
    (s.speedUpdate).attn.config = s.attn.config ∧
    (s.speedUpdate).records = s.records ∧
    (s.speedUpdate).generation = s.generation ∧
    (s.speedUpdate).freeCount = s.freeCount ∧
    (s.speedUpdate).pending = s.pending ∧
    (s.speedUpdate).cur = s.cur := by
  unfold State.speedUpdate
  simp

@[simp] theorem State.channelExpiry_frame (c : Fin 8) (s : State) :
    (s.channelExpiry c).wpu = s.wpu ∧
    (s.channelExpiry c).cylGens = s.cylGens ∧
    (s.channelExpiry c).foilGens = s.foilGens ∧
    (s.channelExpiry c).mark = s.mark ∧
    (s.channelExpiry c).lastRetired = s.lastRetired ∧
    (s.channelExpiry c).stations = s.stations ∧
    (s.channelExpiry c).jobs = s.jobs ∧
    (s.channelExpiry c).store = s.store ∧
    (s.channelExpiry c).mem = s.mem ∧
    (s.channelExpiry c).engine = s.engine ∧
    (s.channelExpiry c).attn.enables = s.attn.enables ∧
    (s.channelExpiry c).attn.config = s.attn.config ∧
    (s.channelExpiry c).records = s.records ∧
    (s.channelExpiry c).generation = s.generation ∧
    (s.channelExpiry c).freeCount = s.freeCount ∧
    (s.channelExpiry c).pending = s.pending ∧
    (s.channelExpiry c).web = s.web ∧
    (s.channelExpiry c).cur = s.cur := by
  unfold State.channelExpiry
  split <;> simp

@[simp] theorem State.retire_frame (s : State) :
    (s.retire).jobs.next = s.jobs.next ∧
    (s.retire).jobs.current = s.jobs.current ∧
    (s.retire).jobs.firstRow = s.jobs.firstRow ∧
    (s.retire).store = s.store ∧
    (s.retire).engine = s.engine ∧
    (s.retire).attn.enables = s.attn.enables ∧
    (s.retire).attn.config = s.attn.config ∧
    (s.retire).generation = s.generation ∧
    (s.retire).freeCount = s.freeCount ∧
    (s.retire).pending = s.pending ∧
    (s.retire).cur = s.cur := by
  unfold State.retire
  dsimp only
  split_ifs <;> simp

@[simp] theorem State.setIndexLevel_frame (st : Fin 4) (level : Bool) (s : State) :
    (s.setIndexLevel st level).wpu = s.wpu ∧
    (s.setIndexLevel st level).cylGens = s.cylGens ∧
    (s.setIndexLevel st level).foilGens = s.foilGens ∧
    (s.setIndexLevel st level).mark = s.mark ∧
    (s.setIndexLevel st level).track = s.track ∧
    (s.setIndexLevel st level).lastRetired = s.lastRetired ∧
    (s.setIndexLevel st level).channels = s.channels ∧
    (s.setIndexLevel st level).jobs = s.jobs ∧
    (s.setIndexLevel st level).store = s.store ∧
    (s.setIndexLevel st level).mem = s.mem ∧
    (s.setIndexLevel st level).engine = s.engine ∧
    (s.setIndexLevel st level).attn = s.attn ∧
    (s.setIndexLevel st level).records = s.records ∧
    (s.setIndexLevel st level).generation = s.generation ∧
    (s.setIndexLevel st level).freeCount = s.freeCount ∧
    (s.setIndexLevel st level).pending = s.pending ∧
    (s.setIndexLevel st level).web = s.web ∧
    (s.setIndexLevel st level).cur = s.cur := by
  unfold State.setIndexLevel
  simp

@[simp] theorem State.writeReport_frame (fs : List Failure) (s : State) :
    (s.writeReport fs).wpu = s.wpu ∧
    (s.writeReport fs).cylGens = s.cylGens ∧
    (s.writeReport fs).foilGens = s.foilGens ∧
    (s.writeReport fs).mark = s.mark ∧
    (s.writeReport fs).track = s.track ∧
    (s.writeReport fs).lastRetired = s.lastRetired ∧
    (s.writeReport fs).stations = s.stations ∧
    (s.writeReport fs).channels = s.channels ∧
    (s.writeReport fs).jobs = s.jobs ∧
    (s.writeReport fs).store = s.store ∧
    (s.writeReport fs).engine = s.engine ∧
    (s.writeReport fs).attn = s.attn ∧
    (s.writeReport fs).records = s.records ∧
    (s.writeReport fs).generation = s.generation ∧
    (s.writeReport fs).freeCount = s.freeCount ∧
    (s.writeReport fs).pending = s.pending ∧
    (s.writeReport fs).web = s.web ∧
    (s.writeReport fs).cur = s.cur := by
  unfold State.writeReport
  simp

@[simp] theorem State.beginRun_frame (c : Current) (first : Word) (s : State) :
    (s.beginRun c first).jobs.stopRequest = s.jobs.stopRequest ∧
    (s.beginRun c first).jobs.stopCauses = s.jobs.stopCauses ∧
    (s.beginRun c first).store = s.store ∧
    (s.beginRun c first).mem = s.mem ∧
    (s.beginRun c first).engine = s.engine ∧
    (s.beginRun c first).attn = s.attn ∧
    (s.beginRun c first).generation = s.generation ∧
    (s.beginRun c first).freeCount = s.freeCount ∧
    (s.beginRun c first).pending = s.pending := by
  simp [State.beginRun, forStations, forChannels]

@[simp] theorem State.writePlateFault_frame (f : PlateFault) (s : State) :
    (s.writePlateFault f).wpu = s.wpu ∧
    (s.writePlateFault f).cylGens = s.cylGens ∧
    (s.writePlateFault f).foilGens = s.foilGens ∧
    (s.writePlateFault f).mark = s.mark ∧
    (s.writePlateFault f).track = s.track ∧
    (s.writePlateFault f).lastRetired = s.lastRetired ∧
    (s.writePlateFault f).stations = s.stations ∧
    (s.writePlateFault f).channels = s.channels ∧
    (s.writePlateFault f).jobs = s.jobs ∧
    (s.writePlateFault f).store = s.store ∧
    (s.writePlateFault f).engine = s.engine ∧
    (s.writePlateFault f).attn = s.attn ∧
    (s.writePlateFault f).records = s.records ∧
    (s.writePlateFault f).generation = s.generation ∧
    (s.writePlateFault f).freeCount = s.freeCount ∧
    (s.writePlateFault f).pending = s.pending ∧
    (s.writePlateFault f).web = s.web ∧
    (s.writePlateFault f).cur = s.cur := by
  unfold State.writePlateFault
  simp

@[simp] theorem State.setSlot_frame (n : Nat) (x : PlateSlot) (s : State) :
    (s.setSlot n x).wpu = s.wpu ∧
    (s.setSlot n x).cylGens = s.cylGens ∧
    (s.setSlot n x).foilGens = s.foilGens ∧
    (s.setSlot n x).mark = s.mark ∧
    (s.setSlot n x).track = s.track ∧
    (s.setSlot n x).lastRetired = s.lastRetired ∧
    (s.setSlot n x).stations = s.stations ∧
    (s.setSlot n x).channels = s.channels ∧
    (s.setSlot n x).jobs = s.jobs ∧
    (s.setSlot n x).mem = s.mem ∧
    (s.setSlot n x).engine = s.engine ∧
    (s.setSlot n x).attn = s.attn ∧
    (s.setSlot n x).records = s.records ∧
    (s.setSlot n x).generation = s.generation ∧
    (s.setSlot n x).freeCount = s.freeCount ∧
    (s.setSlot n x).pending = s.pending ∧
    (s.setSlot n x).web = s.web ∧
    (s.setSlot n x).cur = s.cur := by
  unfold State.setSlot
  simp

@[simp] theorem State.startCycle_frame (slot : Nat) (working : Memory) (s : State) :
    (s.startCycle slot working).wpu = s.wpu ∧
    (s.startCycle slot working).cylGens = s.cylGens ∧
    (s.startCycle slot working).foilGens = s.foilGens ∧
    (s.startCycle slot working).mark = s.mark ∧
    (s.startCycle slot working).track = s.track ∧
    (s.startCycle slot working).lastRetired = s.lastRetired ∧
    (s.startCycle slot working).stations = s.stations ∧
    (s.startCycle slot working).channels = s.channels ∧
    (s.startCycle slot working).jobs.run = s.jobs.run ∧
    (s.startCycle slot working).jobs.holdCause = s.jobs.holdCause ∧
    (s.startCycle slot working).jobs.current = s.jobs.current ∧
    (s.startCycle slot working).jobs.firstRow = s.jobs.firstRow ∧
    (s.startCycle slot working).jobs.stopRequest = s.jobs.stopRequest ∧
    (s.startCycle slot working).jobs.stopCauses = s.jobs.stopCauses ∧
    (s.startCycle slot working).mem = s.mem ∧
    (s.startCycle slot working).attn = s.attn ∧
    (s.startCycle slot working).records = s.records ∧
    (s.startCycle slot working).generation = s.generation ∧
    (s.startCycle slot working).freeCount = s.freeCount ∧
    (s.startCycle slot working).pending = s.pending ∧
    (s.startCycle slot working).web = s.web ∧
    (s.startCycle slot working).cur = s.cur := by
  simp [State.startCycle, State.cur]

end Sys2Proof.Machine
end

