-- ==== Sys2Proof/Laws/Rows.lean ====
section
/-! SUPPORT. What a row keeps while it is on the track: its number, its job tag, its leading mark position,
its mark status, its verdict and its verdict source, under every operation that neither opens nor retires
rows. -/

namespace Sys2Proof.Machine

/-- What a row keeps from its opening to its retirement (R31). -/
def RowCtx.fixed (r : RowCtx) : Word × Word × Pos × MarkStatus × Verdict × Source :=
  (r.row, r.jobTag, r.lead, r.status, r.verdict, r.source)

/-- What the rows of the track keep, in track order. -/
def State.rows (s : State) : List (Word × Word × Pos × MarkStatus × Verdict × Source) :=
  s.track.map RowCtx.fixed

/-- The rows of the track are read from the track alone. -/
@[simp] theorem State.with_rows (s : State) :
    (∀ x, (s.withWpu x).rows = s.rows) ∧
    (∀ x, (s.withCylGens x).rows = s.rows) ∧
    (∀ x, (s.withFoilGens x).rows = s.rows) ∧
    (∀ x, (s.withMark x).rows = s.rows) ∧
    (∀ x, (s.withLastRetired x).rows = s.rows) ∧
    (∀ x, (s.withStations x).rows = s.rows) ∧
    (∀ x, (s.withChannels x).rows = s.rows) ∧
    (∀ x, (s.withJobs x).rows = s.rows) ∧
    (∀ x, (s.withStore x).rows = s.rows) ∧
    (∀ x, (s.withMem x).rows = s.rows) ∧
    (∀ x, (s.withEngine x).rows = s.rows) ∧
    (∀ x, (s.withAttn x).rows = s.rows) ∧
    (∀ x, (s.withRecords x).rows = s.rows) ∧
    (∀ x, (s.withGeneration x).rows = s.rows) ∧
    (∀ x, (s.withFreeCount x).rows = s.rows) ∧
    (∀ x, (s.withPending x).rows = s.rows) := by
  and_intros <;> exact fun _ => rfl

/-- Changing a station's entry keeps what the row keeps. -/
@[simp] theorem RowCtx.mapStation_fixed (r : RowCtx) (st : Fin 4) (f : StationEntry → StationEntry) :
    (r.mapStation st f).fixed = r.fixed := rfl

/-- Changing a channel's entry keeps what the row keeps. -/
@[simp] theorem RowCtx.mapChannel_fixed (r : RowCtx) (c : Fin 8) (f : ChannelEntry → ChannelEntry) :
    (r.mapChannel c f).fixed = r.fixed := rfl

/-- A change of every row that keeps what rows keep. -/
theorem State.rows_map (s : State) (f : RowCtx → RowCtx) (h : ∀ r, (f r).fixed = r.fixed) :
    (s.withTrack (s.track.map f)).rows = s.rows := by
  simp [State.rows, Function.comp_def, h]

/-- A change of the contexts of one row that keeps what rows keep. -/
theorem State.rows_mapRow (s : State) (n : Word) (f : RowCtx → RowCtx)
    (h : ∀ r, (f r).fixed = r.fixed) : (s.mapRow n f).rows = s.rows := by
  refine State.rows_map s _ fun r => ?_
  split
  · exact h r
  · rfl

@[simp] theorem State.writeMem_rows (a : Nat) (bs : List Byte) (s : State) :
    (s.writeMem a bs).rows = s.rows := by
  simp [State.rows]

@[simp] theorem State.writeWord_rows (a : Nat) (w : Word) (s : State) :
    (s.writeWord a w).rows = s.rows := by
  simp [State.rows]

@[simp] theorem State.raise_rows (c : AttnCause) (s : State) :
    (s.raise c).rows = s.rows := by
  simp [State.rows]

@[simp] theorem State.handStop_rows (c : StopCause) (s : State) :
    (s.handStop c).rows = s.rows := by
  simp [State.rows]

@[simp] theorem State.raiseStop_rows (a : AttnCause) (c : StopCause) (s : State) :
    (s.raiseStop a c).rows = s.rows := by
  simp [State.rows]

@[simp] theorem State.setGen_rows (i : GenId) (g : StepGen) (s : State) :
    (s.setGen i g).rows = s.rows := by
  simp [State.rows]

@[simp] theorem State.setRatio_rows (i : GenId) (r : Nat) (s : State) :
    (s.setRatio i r).rows = s.rows := by
  simp [State.rows]

@[simp] theorem State.setStation_rows (st : Fin 4) (x : Station) (s : State) :
    (s.setStation st x).rows = s.rows := by
  simp [State.rows]

@[simp] theorem State.setChannel_rows (c : Fin 8) (x : Channel) (s : State) :
    (s.setChannel c x).rows = s.rows := by
  simp [State.rows]

@[simp] theorem State.mapEntries_rows (st : Fin 4) (f : StationEntry → StationEntry) (s : State) :
    (s.mapEntries st f).rows = s.rows := by
  exact State.rows_map s _ fun _ => rfl

@[simp] theorem State.mapEntry_rows (st : Fin 4) (n : Word) (f : StationEntry → StationEntry) (s : State) :
    (s.mapEntry st n f).rows = s.rows := by
  exact State.rows_mapRow s _ _ fun _ => rfl

@[simp] theorem State.mapCharge_rows (c : Fin 8) (n : Word) (f : ChannelEntry → ChannelEntry) (s : State) :
    (s.mapCharge c n f).rows = s.rows := by
  exact State.rows_mapRow s _ _ fun _ => rfl

@[simp] theorem State.foilTick_rows (c : Fin 8) (s : State) :
    (s.foilTick c).rows = s.rows := by
  unfold State.foilTick
  dsimp only
  cases (s.channel c).chargedRow <;> dsimp only <;> split_ifs <;> simp [State.setGen]

@[simp] theorem State.foilMotion_rows (c : Fin 8) (s : State) :
    (s.foilMotion c).rows = s.rows := by
  unfold State.foilMotion
  dsimp only
  split_ifs <;> simp

@[simp] theorem State.markLate_rows (c : Fin 8) (n : Word) (s : State) :
    (s.markLate c n).rows = s.rows := by
  unfold State.markLate
  simp

@[simp] theorem State.tryRampUp_rows (c : Fin 8) (h : Pos) (s : State) :
    (s.tryRampUp c h).rows = s.rows := by
  unfold State.tryRampUp
  split
  · split
    · dsimp only
      split_ifs <;> simp
    · simp
  · simp

@[simp] theorem State.hop_rows (c : Fin 8) (x y : Stroke) (len : Nat) (s : State) :
    (s.hop c x y len).rows = s.rows := by
  unfold State.hop
  simp

@[simp] theorem State.merge_rows (c : Fin 8) (h : Pos) (x y : Stroke) (s : State) :
    (s.merge c h x y).rows = s.rows := by
  unfold State.merge
  simp

@[simp] theorem State.strokeEnd_rows (c : Fin 8) (h : Pos) (x : Stroke) (s : State) :
    (s.strokeEnd c h x).rows = s.rows := by
  unfold State.strokeEnd
  dsimp only
  split
  · simp
  · split_ifs <;> simp

@[simp] theorem State.strokeEnds_rows (c : Fin 8) (h : Pos) (n : Nat) (s : State) :
    (s.strokeEnds c h n).rows = s.rows := by
  induction n generalizing s with
  | zero => rfl
  | succ n ih =>
    unfold State.strokeEnds
    split
    · split <;> simp [ih]
    · rfl

@[simp] theorem State.mergeGapEnd_rows (c : Fin 8) (h : Pos) (s : State) :
    (s.mergeGapEnd c h).rows = s.rows := by
  simp [State.rows]

@[simp] theorem State.syncActions_rows (c : Fin 8) (h : Pos) (s : State) :
    (s.syncActions c h).rows = s.rows := by
  unfold State.syncActions
  simp

@[simp] theorem State.rampUpEnd_rows (c : Fin 8) (h : Pos) (s : State) :
    (s.rampUpEnd c h).rows = s.rows := by
  unfold State.rampUpEnd
  simp

@[simp] theorem State.rampDownEnd_rows (c : Fin 8) (h : Pos) (s : State) :
    (s.rampDownEnd c h).rows = s.rows := by
  unfold State.rampDownEnd
  simp

@[simp] theorem State.foilActions_rows (c : Fin 8) (h : Pos) (s : State) :
    (s.foilActions c h).rows = s.rows := by
  unfold State.foilActions
  dsimp only
  split <;> (try split_ifs) <;> simp

@[simp] theorem State.webTick_rows (c : Fin 8) (h : Pos) (s : State) :
    (s.webTick c h).rows = s.rows := by
  unfold State.webTick
  simp

@[simp] theorem State.webTicks_rows (c : Fin 8) (n : Nat) (h : Pos) (s : State) :
    (s.webTicks c n h).rows = s.rows := by
  induction n generalizing s h with
  | zero => rfl
  | succ n ih => simp [State.webTicks, ih]

@[simp] theorem State.foilAdvance_rows (h : Pos) (n : Nat) (c : Fin 8) (s : State) :
    (s.foilAdvance h n c).rows = s.rows := by
  unfold State.foilAdvance
  split <;> simp

@[simp] theorem State.foilRecheck_rows (c : Fin 8) (s : State) :
    (s.foilRecheck c).rows = s.rows := by
  unfold State.foilRecheck
  split <;> simp

@[simp] theorem State.handover_rows (row : Word) (c : Fin 8) (s : State) :
    (s.handover row c).rows = s.rows := by
  unfold State.handover
  dsimp only
  split_ifs <;> simp

@[simp] theorem State.withdraw_rows (row : Word) (c : Fin 8) (s : State) :
    (s.withdraw row c).rows = s.rows := by
  unfold State.withdraw
  dsimp only
  split_ifs <;> simp

@[simp] theorem State.serving_foilRecheck_rows (st : Fin 4) (s : State) :
    (s.serving st State.foilRecheck).rows = s.rows := by
  unfold State.serving
  apply forChannels_keeps (fun s => s.rows)
  intro c s
  split_ifs <;> simp

@[simp] theorem State.serving_handover_rows (st : Fin 4) (n : Word) (s : State) :
    (s.serving st (State.handover n)).rows = s.rows := by
  unfold State.serving
  apply forChannels_keeps (fun s => s.rows)
  intro c s
  split_ifs <;> simp

@[simp] theorem State.serving_withdraw_rows (st : Fin 4) (n : Word) (s : State) :
    (s.serving st (State.withdraw n)).rows = s.rows := by
  unfold State.serving
  apply forChannels_keeps (fun s => s.rows)
  intro c s
  split_ifs <;> simp

@[simp] theorem State.holdChannel_rows (c : Fin 8) (s : State) :
    (s.holdChannel c).rows = s.rows := by
  simp [State.rows]

@[simp] theorem State.idleChannel_rows (c : Fin 8) (s : State) :
    (s.idleChannel c).rows = s.rows := by
  simp [State.rows]

@[simp] theorem State.startChannel_rows (c : Fin 8) (s : State) :
    (s.startChannel c).rows = s.rows := by
  simp [State.rows]

@[simp] theorem State.openThrow_rows (st : Fin 4) (s : State) :
    (s.openThrow st).rows = s.rows := by
  simp [State.rows]

@[simp] theorem State.closeTest_rows (st : Fin 4) (s : State) :
    (s.closeTest st).rows = s.rows := by
  simp [State.rows]

@[simp] theorem State.withdrawRows_rows (st : Fin 4) (ns : List Word) (s : State) :
    (s.withdrawRows st ns).rows = s.rows := by
  induction ns generalizing s with
  | nil => rfl
  | cons n ns ih => simp [State.withdrawRows, ih]

@[simp] theorem State.departure_rows (st : Fin 4) (dest : StationState) (s : State) :
    (s.departure st dest).rows = s.rows := by
  unfold State.departure
  simp

@[simp] theorem State.setState_rows (st : Fin 4) (dest : StationState) (s : State) :
    (s.setState st dest).rows = s.rows := by
  simp [State.rows]

@[simp] theorem State.leaveFor_rows (st : Fin 4) (dest : StationState) (s : State) :
    (s.leaveFor st dest).rows = s.rows := by
  unfold State.leaveFor
  dsimp only
  split_ifs <;> simp

@[simp] theorem State.placeRow_rows (st : Fin 4) (r : RowCtx) (s : State) :
    (s.placeRow st r).rows = s.rows := by
  unfold State.placeRow
  simp only [State.setStation_rows]
  exact State.rows_mapRow s _ _ fun _ => rfl

/-- What latching commits keeps of a row of the track: all but the latch of its entry (R81). -/
theorem latchCommits_fixed (st : Fin 4) (reached : StationEntry → Bool) (draining ahead : Bool) (l : List RowCtx) :
    (latchCommits st reached draining ahead l).map RowCtx.fixed = l.map RowCtx.fixed := by
  induction l generalizing ahead with
  | nil => rfl
  | cons r rest ih => simp [latchCommits, ih]

/-- The row with the latch of one station's commit down. -/
def RowCtx.unlatched (r : RowCtx) (st : Fin 4) : RowCtx :=
  r.mapStation st fun e => { e with commitOwed := false }

/-- A change of the latch alone is none to the row with its latch down. -/
theorem RowCtx.unlatched_mapStation (r : RowCtx) (st : Fin 4) (f : StationEntry → Bool) :
    (r.mapStation st fun e => { e with commitOwed := f e }).unlatched st = r.unlatched st := by
  have twice (x y : Option StationEntry) : (r.stations.set st x).set st y = r.stations.set st y :=
    Four.ext_get fun i => by simp only [Four.get_set]; split <;> rfl
  simp [RowCtx.unlatched, RowCtx.mapStation, twice, Function.comp_def]

/-- A test for commits changes the latches of its station's commits and nothing else of the rows (R81). -/
theorem latchCommits_unlatched (st : Fin 4) (reached : StationEntry → Bool) (draining ahead : Bool)
    (l : List RowCtx) :
    (latchCommits st reached draining ahead l).map (fun r => r.unlatched st) =
      l.map fun r => r.unlatched st := by
  induction l generalizing ahead with
  | nil => rfl
  | cons r rest ih => simp only [latchCommits, List.map_cons, RowCtx.unlatched_mapStation, ih]

/-- The same of the track: a test for commits raises latches at its station and changes nothing else. -/
theorem State.latchCommits_unlatched (st : Fin 4) (s : State) :
    (s.latchCommits st).track.map (fun r => r.unlatched st) = s.track.map fun r => r.unlatched st := by
  unfold State.latchCommits
  split
  · exact Machine.latchCommits_unlatched _ _ _ _ _
  · rfl

@[simp] theorem State.latchCommits_rows (st : Fin 4) (s : State) : (s.latchCommits st).rows = s.rows := by
  unfold State.latchCommits
  split
  · exact latchCommits_fixed _ _ _ _ _
  · rfl

@[simp] theorem State.shiftRows_rows (st : Fin 4) (k : Int) (moves : RowCtx → Bool) (s : State) :
    (s.shiftRows st k moves).rows = s.rows := by
  unfold State.shiftRows
  simp only [State.closeTest_rows, State.serving_foilRecheck_rows, State.latchCommits_rows]
  rw [State.rows_map _ _ fun r => by split <;> rfl, State.setStation_rows]

@[simp] theorem State.shift_rows (st : Fin 4) (k : Int) (s : State) :
    (s.shift st k).rows = s.rows := by
  simp [State.shift]

@[simp] theorem State.tickShifts_rows (st : Fin 4) (dir : Int) (waiting : List Word) (n : Nat)
    (s : State) : (s.tickShifts st dir waiting n).rows = s.rows := by
  induction n generalizing s with
  | zero => rfl
  | succ n ih => simp [State.tickShifts, ih]

@[simp] theorem State.drift_rows (st : Fin 4) (amount : Int) (s : State) :
    (s.drift st amount).rows = s.rows := by
  simp [State.drift]

@[simp] theorem State.deliverCylinder_rows (st : Fin 4) (amount : Int) (s : State) :
    (s.deliverCylinder st amount).rows = s.rows := by
  simp [State.rows]

@[simp] theorem State.commit_rows (st : Fin 4) (r : RowCtx) (s : State) :
    (s.commit st r).rows = s.rows := by
  unfold State.commit
  split
  · simp
  · dsimp only
    split_ifs <;> simp

@[simp] theorem State.commitAll_rows (st : Fin 4) (n : Nat) (s : State) :
    (s.commitAll st n).rows = s.rows := by
  induction n generalizing s with
  | zero => rfl
  | succ n ih =>
    unfold State.commitAll
    split
    · simp [ih]
    · rfl

@[simp] theorem State.zoneStartEvent_rows (st : Fin 4) (n : Word) (s : State) :
    (s.zoneStartEvent st n).rows = s.rows := by
  unfold State.zoneStartEvent
  dsimp only
  split
  · split_ifs <;> simp
  · simp

@[simp] theorem State.applyTrim_rows (st : Fin 4) (t : Int) (s : State) :
    (s.applyTrim st t).rows = s.rows := by
  unfold State.applyTrim
  split <;> simp

@[simp] theorem State.bandCheck_rows (st : Fin 4) (r : RowCtx) (error : Option Int) (s : State) :
    (s.bandCheck st r error).rows = s.rows := by
  unfold State.bandCheck
  split
  · simp
  · cases (s.station st).state <;> dsimp only <;> split_ifs <;> simp

@[simp] theorem State.openAtEnd_rows (st : Fin 4) (n : Word) (s : State) :
    (s.openAtEnd st n).rows = s.rows := by
  simp [State.rows]

@[simp] theorem State.writeRegistration_rows (st : Fin 4) (n : Word) (error : Option Int) (t : Int) (s : State) :
    (s.writeRegistration st n error t).rows = s.rows := by
  unfold State.writeRegistration
  dsimp only
  split <;> simp

@[simp] theorem State.zoneEndEvent_rows (st : Fin 4) (n : Word) (s : State) :
    (s.zoneEndEvent st n).rows = s.rows := by
  unfold State.zoneEndEvent
  split
  · simp
  · split <;> simp

@[simp] theorem State.zoneEvents_rows (st : Fin 4) (n : Nat) (s : State) :
    (s.zoneEvents st n).rows = s.rows := by
  induction n generalizing s with
  | zero => rfl
  | succ n ih =>
    unfold State.zoneEvents
    split
    · rfl
    · dsimp only
      split_ifs <;> simp [ih]

@[simp] theorem State.runZoneEvents_rows (st : Fin 4) (s : State) :
    (s.runZoneEvents st).rows = s.rows := by
  unfold State.runZoneEvents
  simp

@[simp] theorem State.stationWeb_rows (p : Pos) (delta : Int) (st : Fin 4) (s : State) :
    (s.stationWeb p delta st).rows = s.rows := by
  unfold State.stationWeb
  split <;> simp

@[simp] theorem State.sacrifice_rows (st : Fin 4) (n : Word) (s : State) :
    (s.sacrifice st n).rows = s.rows := by
  unfold State.sacrifice
  dsimp only
  split <;> (try split_ifs) <;> simp

@[simp] theorem State.addRisk_rows (st : Fin 4) (n : Word) (s : State) :
    (s.addRisk st n).rows = s.rows := by
  simp [State.rows]

@[simp] theorem State.giveUp_rows (st : Fin 4) (splice : Word) (ns : List Word) (s : State) :
    (s.giveUp st splice ns).rows = s.rows := by
  induction ns generalizing s with
  | nil => rfl
  | cons n ns ih =>
    unfold State.giveUp
    rw [ih]
    split
    · split_ifs <;> simp
    · rfl

@[simp] theorem State.spliceTest_rows (st : Fin 4) (r : RowCtx) (s : State) :
    (s.spliceTest st r).rows = s.rows := by
  unfold State.spliceTest
  split <;> simp

@[simp] theorem State.stationOpen_rows (r : RowCtx) (st : Fin 4) (s : State) :
    (s.stationOpen r st).rows = s.rows := by
  unfold State.stationOpen
  split <;> simp

@[simp] theorem State.firstIndex_rows (st : Fin 4) (x : Pos) (s : State) :
    (s.firstIndex st x).rows = s.rows := by
  unfold State.firstIndex
  simp only [State.closeTest_rows, State.runZoneEvents_rows, State.serving_foilRecheck_rows]
  rw [State.latchCommits_rows]
  exact State.rows_map _ _ fun _ => rfl

@[simp] theorem State.slip_rows (st : Fin 4) (s : State) :
    (s.slip st).rows = s.rows := by
  unfold State.slip
  simp

@[simp] theorem State.indexEvent_rows (st : Fin 4) (p : Pos) (s : State) :
    (s.indexEvent st p).rows = s.rows := by
  unfold State.indexEvent
  dsimp only
  split_ifs <;> simp

@[simp] theorem State.heatLoss_rows (st : Fin 4) (s : State) :
    (s.heatLoss st).rows = s.rows := by
  unfold State.heatLoss
  dsimp only
  split <;> simp

@[simp] theorem State.countDwell_rows (st : Fin 4) (s : State) :
    (s.countDwell st).rows = s.rows := by
  simp [State.rows]

@[simp] theorem State.resumeLifted_rows (st : Fin 4) (s : State) :
    (s.resumeLifted st).rows = s.rows := by
  simp [State.rows]

@[simp] theorem State.completeTravel_rows (st : Fin 4) (s : State) :
    (s.completeTravel st).rows = s.rows := by
  simp [State.rows]

@[simp] theorem State.stationExpiry_rows (heaters : Four Bool) (st : Fin 4) (s : State) :
    (s.stationExpiry heaters st).rows = s.rows := by
  simp [State.rows]

@[simp] theorem State.startStation_rows (st : Fin 4) (s : State) :
    (s.startStation st).rows = s.rows := by
  simp [State.rows]

@[simp] theorem State.idleStation_rows (st : Fin 4) (s : State) :
    (s.idleStation st).rows = s.rows := by
  simp [State.rows]

@[simp] theorem State.holdStation_rows (st : Fin 4) (s : State) :
    (s.holdStation st).rows = s.rows := by
  unfold State.holdStation
  split <;> simp

@[simp] theorem State.drainStation_rows (st : Fin 4) (s : State) :
    (s.drainStation st).rows = s.rows := by
  unfold State.drainStation
  dsimp only
  split_ifs <;> simp

@[simp] theorem State.writeRecord_rows (r : RowCtx) (s : State) :
    (s.writeRecord r).rows = s.rows := by
  simp [State.rows]

@[simp] theorem State.setWrittenThrough_rows (n : Word) (s : State) :
    (s.setWrittenThrough n).rows = s.rows := by
  simp [State.rows]

@[simp] theorem State.advanceOldest_rows (n : Word) (s : State) :
    (s.advanceOldest n).rows = s.rows := by
  simp [State.rows]

@[simp] theorem State.record_rows (r : RowCtx) (s : State) :
    (s.record r).rows = s.rows := by
  simp [State.rows]

@[simp] theorem State.bumpGeneration_rows (s : State) :
    (s.bumpGeneration).rows = s.rows := by
  simp [State.rows]

@[simp] theorem State.liveUpdate_rows (s : State) :
    (s.liveUpdate).rows = s.rows := by
  simp [State.rows]

@[simp] theorem State.enterDraining_rows (s : State) :
    (s.enterDraining).rows = s.rows := by
  simp [State.enterDraining, forStations]

@[simp] theorem State.setLane_rows (l : Fin 4) (n : Word) (e : LaneEntry) (s : State) :
    (s.setLane l n e).rows = s.rows := by
  exact State.rows_mapRow s _ _ fun _ => rfl

@[simp] theorem State.setWindow_rows (l : Fin 4) (w : Option LaneWindow) (s : State) :
    (s.setWindow l w).rows = s.rows := by
  simp [State.rows]

@[simp] theorem State.setHeld_rows (l : Fin 4) (p : Option Pos) (s : State) :
    (s.setHeld l p).rows = s.rows := by
  simp [State.rows]

@[simp] theorem State.laneFound_rows (l : Fin 4) (w : LaneWindow) (p : Pos) (s : State) :
    (s.laneFound l w p).rows = s.rows := by
  unfold State.laneFound
  simp

@[simp] theorem State.laneMissing_rows (l : Fin 4) (w : LaneWindow) (s : State) :
    (s.laneMissing l w).rows = s.rows := by
  unfold State.laneMissing
  simp

@[simp] theorem State.openLane_rows (n : Word) (lead : Pos) (l : Fin 4) (s : State) :
    (s.openLane n lead l).rows = s.rows := by
  unfold State.openLane
  cases s.mark.held.get l <;> dsimp only <;> split_ifs <;> simp

@[simp] theorem State.noteStatus_rows (m : MarkStatus) (s : State) :
    (s.noteStatus m).rows = s.rows := by
  simp [State.rows]

@[simp] theorem State.noteFirst_rows (m : MarkStatus) (s : State) :
    (s.noteFirst m).rows = s.rows := by
  simp [State.rows]

@[simp] theorem State.laneEdge_rows (l : Fin 4) (p : Pos) (s : State) :
    (s.laneEdge l p).rows = s.rows := by
  unfold State.laneEdge
  split <;> (try split_ifs) <;> simp

@[simp] theorem State.closeLane_rows (p : Pos) (l : Fin 4) (s : State) :
    (s.closeLane p l).rows = s.rows := by
  unfold State.closeLane
  split <;> (try split_ifs) <;> simp

@[simp] theorem State.setMarkLevel_rows (l : Fin 4) (level : Bool) (s : State) :
    (s.setMarkLevel l level).rows = s.rows := by
  simp [State.rows]

@[simp] theorem State.setPair_rows (a b : Bool) (s : State) :
    (s.setPair a b).rows = s.rows := by
  simp [State.rows]

@[simp] theorem State.overspeedCheck_rows (s : State) :
    (s.overspeedCheck).rows = s.rows := by
  simp [State.rows]

@[simp] theorem State.speedUpdate_rows (s : State) :
    (s.speedUpdate).rows = s.rows := by
  simp [State.rows]

@[simp] theorem State.channelExpiry_rows (c : Fin 8) (s : State) :
    (s.channelExpiry c).rows = s.rows := by
  unfold State.channelExpiry
  split <;> simp

@[simp] theorem State.setIndexLevel_rows (st : Fin 4) (level : Bool) (s : State) :
    (s.setIndexLevel st level).rows = s.rows := by
  simp [State.rows]

@[simp] theorem State.writeReport_rows (fs : List Failure) (s : State) :
    (s.writeReport fs).rows = s.rows := by
  simp [State.rows]

@[simp] theorem State.writePlateFault_rows (f : PlateFault) (s : State) :
    (s.writePlateFault f).rows = s.rows := by
  simp [State.rows]

@[simp] theorem State.setSlot_rows (n : Nat) (x : PlateSlot) (s : State) :
    (s.setSlot n x).rows = s.rows := by
  simp [State.rows]

@[simp] theorem State.startCycle_rows (slot : Nat) (working : Memory) (s : State) :
    (s.startCycle slot working).rows = s.rows := by
  simp [State.rows]

end Sys2Proof.Machine
end

