-- ==== Sys2Proof/Laws/Attention.lean ====
section
/-! SUPPORT. The attention logic: what the condition, a message and a raised cause amount to, and that every
operation of the part's blocks changes the attention logic by raising causes and in no other way. -/

namespace Sys2Proof.Machine

/-! ## The condition, the messages and the causes -/

/-- The attention condition is true where some cause is both set and enabled (R184). -/
theorem Attention.condition_iff (a : Attention) :
    a.condition = true ↔
      ∃ k : Fin 18, a.causes.getLsbD k = true ∧ a.enables.getLsbD k = true := by
  unfold Attention.condition
  rw [bne_iff_ne]
  constructor
  · intro h
    by_contra hc
    push Not at hc
    apply h
    apply BitVec.eq_of_getLsbD_eq
    intro i hi
    simpa [BitVec.getLsbD_and] using hc ⟨i, hi⟩
  · rintro ⟨k, h1, h2⟩ h
    have hk := congrArg (fun x => BitVec.getLsbD x k) h
    simp only [BitVec.getLsbD_and, h1, h2] at hk
    exact absurd hk (by simp)

/-- Signalling counts one message where the new state can deliver one and the old could not (R185). -/
theorem Attention.signal_sent (a b : Attention) :
    (a.signal b).sent = b.sent + if b.deliverable = true ∧ a.deliverable = false then 1 else 0 := by
  unfold Attention.signal
  by_cases h : b.deliverable = true <;> by_cases h2 : a.deliverable = true <;> simp [h, h2]

/-- The message signalling sends carries the programmed address and data (R185). -/
theorem Attention.signal_lastSent (a b : Attention) :
    (a.signal b).lastSent =
      if b.deliverable = true ∧ a.deliverable = false then
        some { address := b.config.msiAddress, data := b.config.msiData }
      else b.lastSent := by
  unfold Attention.signal
  by_cases h : b.deliverable = true <;> by_cases h2 : a.deliverable = true <;> simp [h, h2]

/-- Signalling does not change the condition. -/
@[simp] theorem Attention.signal_condition (a b : Attention) :
    (a.signal b).condition = b.condition := by
  simp [Attention.condition]

/-- Signalling does not change whether a message can be delivered. -/
@[simp] theorem Attention.signal_deliverable (a b : Attention) :
    (a.signal b).deliverable = b.deliverable := by
  simp [Attention.deliverable]

/-- Every cause has its bit below 18. -/
theorem AttnCause.bit_lt (c : AttnCause) : c.bit < 18 := by cases c <;> decide

/-- A cause raised stands, and every other stands as before (R183). -/
theorem Attention.raise_has (a : Attention) (c d : AttnCause) :
    (a.raise c).has d = true ↔ d = c ∨ a.has d = true := by
  have hd := d.bit_lt
  simp only [Attention.has, Attention.raise_frame, BitVec.getLsbD_or, BitVec.getLsbD_twoPow,
    Bool.or_eq_true, Bool.and_eq_true, decide_eq_true_eq]
  constructor
  · rintro (h | ⟨_, h⟩)
    · exact .inr h
    · left
      cases c <;> cases d <;> simp [AttnCause.bit] at h <;> rfl
  · rintro (rfl | h)
    · exact .inr ⟨by omega, rfl⟩
    · exact .inl h

/-! ## Attention states reached by raising causes -/

/-- One attention state comes from another by raising causes, one after another. -/
def Attention.Raised (a b : Attention) : Prop := ∃ cs : List AttnCause, b = cs.foldl Attention.raise a

/-- Raising no cause. -/
theorem Attention.Raised.refl (a : Attention) : a.Raised a := ⟨[], rfl⟩

/-- Raising one cause more. -/
theorem Attention.Raised.raise {a b : Attention} (h : a.Raised b) (c : AttnCause) :
    a.Raised (b.raise c) := by
  obtain ⟨cs, rfl⟩ := h
  exact ⟨cs ++ [c], by simp⟩

/-- Raising causes, then further causes. -/
theorem Attention.Raised.trans {a b c : Attention} (h : a.Raised b) (k : b.Raised c) :
    a.Raised c := by
  obtain ⟨cs, rfl⟩ := h
  obtain ⟨ds, rfl⟩ := k
  exact ⟨cs ++ ds, by simp⟩

/-- Raising causes clears none. -/
theorem Attention.Raised.causes {a b : Attention} (h : a.Raised b) (k : Nat)
    (hk : a.causes.getLsbD k = true) : b.causes.getLsbD k = true := by
  obtain ⟨cs, rfl⟩ := h
  induction cs generalizing a with
  | nil => exact hk
  | cons d cs ih =>
    exact ih (by simp only [Attention.raise_frame, BitVec.getLsbD_or, hk, Bool.true_or])

/-- A cause that stands still stands after causes are raised. -/
theorem Attention.Raised.has {a b : Attention} (h : a.Raised b) (c : AttnCause)
    (hc : a.has c = true) : b.has c = true := h.causes _ hc

/-- Raising causes leaves the enables and the configuration space. -/
theorem Attention.Raised.frame {a b : Attention} (h : a.Raised b) :
    b.enables = a.enables ∧ b.config = a.config := by
  obtain ⟨cs, rfl⟩ := h
  induction cs generalizing a with
  | nil => exact ⟨rfl, rfl⟩
  | cons d cs ih =>
    obtain ⟨h1, h2⟩ := @ih (a.raise d)
    simp only [List.foldl_cons, h1, h2, Attention.raise_frame, and_self]

/-- Raising causes keeps a message deliverable. -/
theorem Attention.Raised.deliverable {a b : Attention} (h : a.Raised b)
    (hd : a.deliverable = true) : b.deliverable = true := by
  simp only [Attention.deliverable, Bool.and_eq_true, Attention.condition_iff] at *
  obtain ⟨⟨⟨k, h1, h2⟩, h3⟩, h4⟩ := hd
  obtain ⟨e1, e2⟩ := h.frame
  exact ⟨⟨⟨k, h.causes _ h1, e1 ▸ h2⟩, e2 ▸ h3⟩, e2 ▸ h4⟩

/-- Raising causes sends one message where one comes to be deliverable, and none otherwise (R185). -/
theorem Attention.Raised.sent {a b : Attention} (h : a.Raised b) :
    b.sent = a.sent + if b.deliverable = true ∧ a.deliverable = false then 1 else 0 := by
  obtain ⟨cs, rfl⟩ := h
  induction cs generalizing a with
  | nil => by_cases h : a.deliverable = true <;> simp [h]
  | cons d cs ih =>
    have h1 : (a.raise d).sent =
        a.sent + if (a.raise d).deliverable = true ∧ a.deliverable = false then 1 else 0 := by
      simp only [Attention.raise, Attention.signal_sent, Attention.signal_deliverable]
    have h2 := @ih (a.raise d)
    have h3 : (a.raise d).Raised (cs.foldl Attention.raise (a.raise d)) := ⟨cs, rfl⟩
    have h4 := h3.deliverable
    have h5 := ((Attention.Raised.refl a).raise d).deliverable
    simp only [List.foldl_cons]
    rw [h2, h1]
    by_cases ha : a.deliverable = true <;> by_cases hb : (a.raise d).deliverable = true <;>
      by_cases hc : (cs.foldl Attention.raise (a.raise d)).deliverable = true <;> simp_all

/-! ## Every operation only raises causes -/

variable {old : Attention}

/-- What each action does to the attention logic, taking them for all eight channels does. -/
theorem forChannels_raised (f : Fin 8 → State → State)
    (h : ∀ c s, old.Raised s.attn → old.Raised (f c s).attn) {s : State} (hs : old.Raised s.attn) :
    old.Raised (forChannels f s).attn :=
  h _ _ (h _ _ (h _ _ (h _ _ (h _ _ (h _ _ (h _ _ (h _ _ hs)))))))

/-- What each action does to the attention logic, taking them for all four stations does. -/
theorem forStations_raised (f : Fin 4 → State → State)
    (h : ∀ st s, old.Raised s.attn → old.Raised (f st s).attn) {s : State} (hs : old.Raised s.attn) :
    old.Raised (forStations f s).attn :=
  h _ _ (h _ _ (h _ _ (h _ _ hs)))

/-- What each action does to the attention logic, taking them for all four lanes does. -/
theorem forLanes_raised (f : Fin 4 → State → State)
    (h : ∀ l s, old.Raised s.attn → old.Raised (f l s).attn) {s : State} (hs : old.Raised s.attn) :
    old.Raised (forLanes f s).attn :=
  h _ _ (h _ _ (h _ _ (h _ _ hs)))

/-- What an action does to the attention logic, taking it at the channels that serve a station does. -/
theorem serving_raised (st : Fin 4) (f : Fin 8 → State → State)
    (h : ∀ c s, old.Raised s.attn → old.Raised (f c s).attn) {s : State} (hs : old.Raised s.attn) :
    old.Raised (s.serving st f).attn := by
  refine forChannels_raised _ (fun c s hs => ?_) hs
  split
  · exact h c s hs
  · exact hs

theorem State.writeMem_raised (a : Nat) (bs : List Byte) {s : State} (hs : old.Raised s.attn) :
    old.Raised (s.writeMem a bs).attn := by
  simpa using hs

theorem State.writeWord_raised (a : Nat) (w : Word) {s : State} (hs : old.Raised s.attn) :
    old.Raised (s.writeWord a w).attn := by
  simpa using hs

theorem State.raise_raised (c : AttnCause) {s : State} (hs : old.Raised s.attn) :
    old.Raised (s.raise c).attn := by
  exact hs.raise c

theorem State.handStop_raised (c : StopCause) {s : State} (hs : old.Raised s.attn) :
    old.Raised (s.handStop c).attn := by
  simpa using hs

theorem State.raiseStop_raised (a : AttnCause) (c : StopCause) {s : State} (hs : old.Raised s.attn) :
    old.Raised (s.raiseStop a c).attn := by
  unfold State.raiseStop
  repeat (first
        | exact hs
        | with_reducible apply State.raise_raised
        | with_reducible apply State.handStop_raised)

theorem State.setGen_raised (i : GenId) (g : StepGen) {s : State} (hs : old.Raised s.attn) :
    old.Raised (s.setGen i g).attn := by
  simpa using hs

theorem State.setRatio_raised (i : GenId) (r : Nat) {s : State} (hs : old.Raised s.attn) :
    old.Raised (s.setRatio i r).attn := by
  simpa using hs

theorem State.setStation_raised (st : Fin 4) (x : Station) {s : State} (hs : old.Raised s.attn) :
    old.Raised (s.setStation st x).attn := by
  simpa using hs

theorem State.setChannel_raised (c : Fin 8) (x : Channel) {s : State} (hs : old.Raised s.attn) :
    old.Raised (s.setChannel c x).attn := by
  simpa using hs

theorem State.mapRow_raised (n : Word) (f : RowCtx → RowCtx) {s : State} (hs : old.Raised s.attn) :
    old.Raised (s.mapRow n f).attn := by
  simpa using hs

theorem State.mapEntries_raised (st : Fin 4) (f : StationEntry → StationEntry) {s : State} (hs : old.Raised s.attn) :
    old.Raised (s.mapEntries st f).attn := by
  simpa using hs

theorem State.mapEntry_raised (st : Fin 4) (n : Word) (f : StationEntry → StationEntry) {s : State} (hs : old.Raised s.attn) :
    old.Raised (s.mapEntry st n f).attn := by
  simpa using hs

theorem State.mapCharge_raised (c : Fin 8) (n : Word) (f : ChannelEntry → ChannelEntry) {s : State} (hs : old.Raised s.attn) :
    old.Raised (s.mapCharge c n f).attn := by
  simpa using hs

theorem State.foilTick_raised (c : Fin 8) {s : State} (hs : old.Raised s.attn) :
    old.Raised (s.foilTick c).attn := by
  unfold State.foilTick
  dsimp only
  (repeat' split) <;>
    (repeat (first
        | exact hs
        | with_reducible apply State.raise_raised
        | with_reducible apply State.raiseStop_raised
        | with_reducible apply State.setGen_raised
        | with_reducible apply State.setChannel_raised
        | with_reducible apply State.mapCharge_raised))

theorem State.foilMotion_raised (c : Fin 8) {s : State} (hs : old.Raised s.attn) :
    old.Raised (s.foilMotion c).attn := by
  unfold State.foilMotion
  dsimp only
  (repeat' split) <;>
    (repeat (first
        | exact hs
        | with_reducible apply State.setChannel_raised
        | with_reducible apply State.foilTick_raised))

theorem State.markLate_raised (c : Fin 8) (n : Word) {s : State} (hs : old.Raised s.attn) :
    old.Raised (s.markLate c n).attn := by
  unfold State.markLate
  repeat (first
        | exact hs
        | with_reducible apply State.raise_raised
        | with_reducible apply State.mapCharge_raised)

theorem State.tryRampUp_raised (c : Fin 8) (h : Pos) {s : State} (hs : old.Raised s.attn) :
    old.Raised (s.tryRampUp c h).attn := by
  unfold State.tryRampUp
  dsimp only
  (repeat' split) <;>
    (repeat (first
        | exact hs
        | with_reducible apply State.setChannel_raised
        | with_reducible apply State.markLate_raised))

theorem State.hop_raised (c : Fin 8) (x y : Stroke) (len : Nat) {s : State} (hs : old.Raised s.attn) :
    old.Raised (s.hop c x y len).attn := by
  simpa using hs

theorem State.merge_raised (c : Fin 8) (h : Pos) (x y : Stroke) {s : State} (hs : old.Raised s.attn) :
    old.Raised (s.merge c h x y).attn := by
  simpa using hs

theorem State.strokeEnd_raised (c : Fin 8) (h : Pos) (x : Stroke) {s : State} (hs : old.Raised s.attn) :
    old.Raised (s.strokeEnd c h x).attn := by
  simpa using hs

theorem State.strokeEnds_raised (c : Fin 8) (h : Pos) (n : Nat) {s : State} (hs : old.Raised s.attn) :
    old.Raised (s.strokeEnds c h n).attn := by
  simpa using hs

theorem State.mergeGapEnd_raised (c : Fin 8) (h : Pos) {s : State} (hs : old.Raised s.attn) :
    old.Raised (s.mergeGapEnd c h).attn := by
  simpa using hs

theorem State.syncActions_raised (c : Fin 8) (h : Pos) {s : State} (hs : old.Raised s.attn) :
    old.Raised (s.syncActions c h).attn := by
  simpa using hs

theorem State.rampUpEnd_raised (c : Fin 8) (h : Pos) {s : State} (hs : old.Raised s.attn) :
    old.Raised (s.rampUpEnd c h).attn := by
  simpa using hs

theorem State.rampDownEnd_raised (c : Fin 8) (h : Pos) {s : State} (hs : old.Raised s.attn) :
    old.Raised (s.rampDownEnd c h).attn := by
  unfold State.rampDownEnd
  dsimp only
  repeat (first
        | exact hs
        | with_reducible apply State.setChannel_raised
        | with_reducible apply State.tryRampUp_raised)

theorem State.foilActions_raised (c : Fin 8) (h : Pos) {s : State} (hs : old.Raised s.attn) :
    old.Raised (s.foilActions c h).attn := by
  unfold State.foilActions
  dsimp only
  (repeat' split) <;>
    (repeat (first
        | exact hs
        | with_reducible apply State.tryRampUp_raised
        | with_reducible apply State.syncActions_raised
        | with_reducible apply State.rampUpEnd_raised
        | with_reducible apply State.rampDownEnd_raised))

theorem State.webTick_raised (c : Fin 8) (h : Pos) {s : State} (hs : old.Raised s.attn) :
    old.Raised (s.webTick c h).attn := by
  unfold State.webTick
  repeat (first
        | exact hs
        | with_reducible apply State.foilMotion_raised
        | with_reducible apply State.foilActions_raised)

theorem State.webTicks_raised (c : Fin 8) (n : Nat) (h : Pos) {s : State} (hs : old.Raised s.attn) :
    old.Raised (s.webTicks c n h).attn := by
  induction n generalizing s h with
  | zero => exact hs
  | succ n ih => exact ih _ (State.webTick_raised _ _ hs)

theorem State.foilAdvance_raised (h : Pos) (n : Nat) (c : Fin 8) {s : State} (hs : old.Raised s.attn) :
    old.Raised (s.foilAdvance h n c).attn := by
  unfold State.foilAdvance
  (repeat' split) <;>
    (repeat (first
        | exact hs
        | with_reducible apply State.webTicks_raised))

theorem State.foilRecheck_raised (c : Fin 8) {s : State} (hs : old.Raised s.attn) :
    old.Raised (s.foilRecheck c).attn := by
  unfold State.foilRecheck
  (repeat' split) <;>
    (repeat (first
        | exact hs
        | with_reducible apply State.tryRampUp_raised
        | with_reducible apply State.syncActions_raised))

theorem State.handover_raised (row : Word) (c : Fin 8) {s : State} (hs : old.Raised s.attn) :
    old.Raised (s.handover row c).attn := by
  unfold State.handover
  dsimp only
  (repeat' split) <;>
    (repeat (first
        | exact hs
        | with_reducible apply State.setChannel_raised
        | with_reducible apply State.markLate_raised
        | with_reducible apply State.tryRampUp_raised))

theorem State.withdraw_raised (row : Word) (c : Fin 8) {s : State} (hs : old.Raised s.attn) :
    old.Raised (s.withdraw row c).attn := by
  unfold State.withdraw
  dsimp only
  (repeat' split) <;>
    (repeat (first
        | exact hs
        | with_reducible apply State.setChannel_raised
        | with_reducible apply State.tryRampUp_raised))

theorem State.serving_foilRecheck_raised (st : Fin 4) {s : State} (hs : old.Raised s.attn) :
    old.Raised (s.serving st State.foilRecheck).attn := by
  exact serving_raised st _ (fun _ _ hs => State.foilRecheck_raised _ hs) hs

theorem State.serving_handover_raised (st : Fin 4) (n : Word) {s : State} (hs : old.Raised s.attn) :
    old.Raised (s.serving st (State.handover n)).attn := by
  exact serving_raised st _ (fun _ _ hs => State.handover_raised _ _ hs) hs

theorem State.serving_withdraw_raised (st : Fin 4) (n : Word) {s : State} (hs : old.Raised s.attn) :
    old.Raised (s.serving st (State.withdraw n)).attn := by
  exact serving_raised st _ (fun _ _ hs => State.withdraw_raised _ _ hs) hs

theorem State.holdChannel_raised (c : Fin 8) {s : State} (hs : old.Raised s.attn) :
    old.Raised (s.holdChannel c).attn := by
  simpa using hs

theorem State.idleChannel_raised (c : Fin 8) {s : State} (hs : old.Raised s.attn) :
    old.Raised (s.idleChannel c).attn := by
  simpa using hs

theorem State.startChannel_raised (c : Fin 8) {s : State} (hs : old.Raised s.attn) :
    old.Raised (s.startChannel c).attn := by
  simpa using hs

theorem State.openThrow_raised (st : Fin 4) {s : State} (hs : old.Raised s.attn) :
    old.Raised (s.openThrow st).attn := by
  simpa using hs

theorem State.closeTest_raised (st : Fin 4) {s : State} (hs : old.Raised s.attn) :
    old.Raised (s.closeTest st).attn := by
  simpa using hs

theorem State.withdrawRows_raised (st : Fin 4) (ns : List Word) {s : State} (hs : old.Raised s.attn) :
    old.Raised (s.withdrawRows st ns).attn := by
  induction ns generalizing s with
  | nil => exact hs
  | cons n ns ih => exact ih (State.serving_withdraw_raised _ _ hs)

theorem State.departure_raised (st : Fin 4) (dest : StationState) {s : State} (hs : old.Raised s.attn) :
    old.Raised (s.departure st dest).attn := by
  unfold State.departure
  dsimp only
  repeat (first
        | exact hs
        | with_reducible apply State.mapEntries_raised
        | with_reducible apply State.withdrawRows_raised)

theorem State.setState_raised (st : Fin 4) (dest : StationState) {s : State} (hs : old.Raised s.attn) :
    old.Raised (s.setState st dest).attn := by
  simpa using hs

theorem State.leaveFor_raised (st : Fin 4) (dest : StationState) {s : State} (hs : old.Raised s.attn) :
    old.Raised (s.leaveFor st dest).attn := by
  unfold State.leaveFor
  dsimp only
  (repeat' split) <;>
    (repeat (first
        | exact hs
        | with_reducible apply State.openThrow_raised
        | with_reducible apply State.departure_raised
        | with_reducible apply State.setState_raised))

theorem State.placeRow_raised (st : Fin 4) (r : RowCtx) {s : State} (hs : old.Raised s.attn) :
    old.Raised (s.placeRow st r).attn := by
  simpa using hs

theorem State.latchCommits_raised (st : Fin 4) {s : State} (hs : old.Raised s.attn) :
    old.Raised (s.latchCommits st).attn := by
  simpa using hs

theorem State.shiftRows_raised (st : Fin 4) (k : Int) (moves : RowCtx → Bool) {s : State}
    (hs : old.Raised s.attn) : old.Raised (s.shiftRows st k moves).attn :=
  State.closeTest_raised _ (State.serving_foilRecheck_raised _ (by simpa using hs))

theorem State.shift_raised (st : Fin 4) (k : Int) {s : State} (hs : old.Raised s.attn) :
    old.Raised (s.shift st k).attn :=
  State.shiftRows_raised st k _ hs

theorem State.tickShifts_raised (st : Fin 4) (dir : Int) (waiting : List Word) (n : Nat) {s : State}
    (hs : old.Raised s.attn) : old.Raised (s.tickShifts st dir waiting n).attn := by
  induction n generalizing s with
  | zero => exact hs
  | succ n ih => exact ih (State.shiftRows_raised st dir _ hs)

theorem State.drift_raised (st : Fin 4) (amount : Int) {s : State} (hs : old.Raised s.attn) :
    old.Raised (s.drift st amount).attn :=
  State.tickShifts_raised st _ _ _ (State.setStation_raised _ _ hs)

theorem State.deliverCylinder_raised (st : Fin 4) (amount : Int) {s : State} (hs : old.Raised s.attn) :
    old.Raised (s.deliverCylinder st amount).attn := by
  simpa using hs

theorem State.commit_raised (st : Fin 4) (r : RowCtx) {s : State} (hs : old.Raised s.attn) :
    old.Raised (s.commit st r).attn := by
  unfold State.commit
  split
  · exact hs
  · dsimp only
    have h1 := fun x f => State.setStation_raised st x (State.mapEntry_raised st r.row f hs)
    split_ifs
    · exact State.closeTest_raised _ (State.serving_handover_raised _ _ (h1 _ _))
    · exact State.openThrow_raised _ (h1 _ _)
    · exact h1 _ _

theorem State.commitAll_raised (st : Fin 4) (n : Nat) {s : State} (hs : old.Raised s.attn) :
    old.Raised (s.commitAll st n).attn := by
  induction n generalizing s with
  | zero => exact hs
  | succ n ih =>
    unfold State.commitAll
    split
    · exact ih (State.commit_raised _ _ hs)
    · exact hs

theorem State.zoneStartEvent_raised (st : Fin 4) (n : Word) {s : State} (hs : old.Raised s.attn) :
    old.Raised (s.zoneStartEvent st n).attn := by
  unfold State.zoneStartEvent
  dsimp only
  (repeat' split) <;>
    (repeat (first
        | exact hs
        | with_reducible apply State.mapEntry_raised
        | with_reducible apply State.commit_raised))

theorem State.applyTrim_raised (st : Fin 4) (t : Int) {s : State} (hs : old.Raised s.attn) :
    old.Raised (s.applyTrim st t).attn := by
  unfold State.applyTrim
  dsimp only
  (repeat' split) <;>
    (repeat (first
        | exact hs
        | with_reducible apply State.setStation_raised
        | with_reducible apply State.shift_raised
        | with_reducible apply State.drift_raised
        | with_reducible apply State.deliverCylinder_raised))

theorem State.bandCheck_raised (st : Fin 4) (r : RowCtx) (error : Option Int) {s : State} (hs : old.Raised s.attn) :
    old.Raised (s.bandCheck st r error).attn := by
  unfold State.bandCheck
  (repeat' split) <;>
    (repeat (first
        | exact hs
        | with_reducible apply State.raise_raised
        | with_reducible apply State.setState_raised
        | with_reducible apply State.leaveFor_raised))

theorem State.openAtEnd_raised (st : Fin 4) (n : Word) {s : State} (hs : old.Raised s.attn) :
    old.Raised (s.openAtEnd st n).attn := by
  simpa using hs

theorem State.writeRegistration_raised (st : Fin 4) (n : Word) (error : Option Int) (t : Int) {s : State} (hs : old.Raised s.attn) :
    old.Raised (s.writeRegistration st n error t).attn := by
  simpa using hs

theorem State.zoneEndEvent_raised (st : Fin 4) (n : Word) {s : State} (hs : old.Raised s.attn) :
    old.Raised (s.zoneEndEvent st n).attn := by
  unfold State.zoneEndEvent
  dsimp only
  (repeat' split) <;>
    (repeat (first
        | exact hs
        | with_reducible apply State.applyTrim_raised
        | with_reducible apply State.bandCheck_raised
        | with_reducible apply State.openAtEnd_raised
        | with_reducible apply State.writeRegistration_raised))

theorem State.zoneEvents_raised (st : Fin 4) (n : Nat) {s : State} (hs : old.Raised s.attn) :
    old.Raised (s.zoneEvents st n).attn := by
  induction n generalizing s with
  | zero => exact hs
  | succ n ih =>
    unfold State.zoneEvents
    split
    · exact hs
    · dsimp only
      split_ifs
      · exact ih (State.zoneEndEvent_raised _ _ hs)
      · exact ih (State.zoneStartEvent_raised _ _ hs)

theorem State.runZoneEvents_raised (st : Fin 4) {s : State} (hs : old.Raised s.attn) :
    old.Raised (s.runZoneEvents st).attn := by
  unfold State.runZoneEvents
  repeat (first
        | exact hs
        | with_reducible apply State.zoneEvents_raised)

theorem State.stationWeb_raised (p : Pos) (delta : Int) (st : Fin 4) {s : State} (hs : old.Raised s.attn) :
    old.Raised (s.stationWeb p delta st).attn := by
  unfold State.stationWeb
  dsimp only
  (repeat' split) <;>
    (repeat (first
        | exact hs
        | with_reducible apply State.mapEntries_raised
        | with_reducible apply State.latchCommits_raised
        | with_reducible apply State.closeTest_raised
        | with_reducible apply State.drift_raised
        | with_reducible apply State.deliverCylinder_raised
        | with_reducible apply State.runZoneEvents_raised))

theorem State.sacrifice_raised (st : Fin 4) (n : Word) {s : State} (hs : old.Raised s.attn) :
    old.Raised (s.sacrifice st n).attn := by
  unfold State.sacrifice
  dsimp only
  have h1 := fun f => State.serving_withdraw_raised st n (State.mapEntry_raised st n f hs)
  split
  · split_ifs
    · exact h1 _
    · exact State.openThrow_raised _ (h1 _)
  · exact State.openThrow_raised _ (h1 _)

theorem State.addRisk_raised (st : Fin 4) (n : Word) {s : State} (hs : old.Raised s.attn) :
    old.Raised (s.addRisk st n).attn := by
  unfold State.addRisk
  dsimp only
  (repeat' split) <;>
    (repeat (first
        | exact hs
        | with_reducible apply State.raiseStop_raised
        | with_reducible apply State.setStation_raised))

theorem State.giveUp_raised (st : Fin 4) (splice : Word) (ns : List Word) {s : State} (hs : old.Raised s.attn) :
    old.Raised (s.giveUp st splice ns).attn := by
  induction ns generalizing s with
  | nil => exact hs
  | cons n ns ih =>
    unfold State.giveUp
    apply ih
    split
    · split_ifs
      · exact State.addRisk_raised _ _ hs
      · exact State.sacrifice_raised _ _ hs
    · exact hs

theorem State.spliceTest_raised (st : Fin 4) (r : RowCtx) {s : State} (hs : old.Raised s.attn) :
    old.Raised (s.spliceTest st r).attn := by
  unfold State.spliceTest
  (repeat' split) <;>
    (repeat (first
        | exact hs
        | with_reducible apply State.giveUp_raised))

theorem State.stationOpen_raised (r : RowCtx) (st : Fin 4) {s : State} (hs : old.Raised s.attn) :
    old.Raised (s.stationOpen r st).attn := by
  unfold State.stationOpen
  (repeat' split) <;>
    (repeat (first
        | exact hs
        | with_reducible apply State.placeRow_raised
        | with_reducible apply State.spliceTest_raised))

theorem State.firstIndex_raised (st : Fin 4) (x : Pos) {s : State} (hs : old.Raised s.attn) :
    old.Raised (s.firstIndex st x).attn := by
  exact State.closeTest_raised _ (State.runZoneEvents_raised _
    (State.serving_foilRecheck_raised _ (State.latchCommits_raised _ (by exact hs))))

theorem State.slip_raised (st : Fin 4) {s : State} (hs : old.Raised s.attn) :
    old.Raised (s.slip st).attn := by
  unfold State.slip
  dsimp only
  repeat (first
        | exact hs
        | with_reducible apply State.raiseStop_raised
        | with_reducible apply State.setStation_raised
        | with_reducible apply State.leaveFor_raised)

theorem State.indexEvent_raised (st : Fin 4) (p : Pos) {s : State} (hs : old.Raised s.attn) :
    old.Raised (s.indexEvent st p).attn := by
  unfold State.indexEvent
  dsimp only
  (repeat' split) <;>
    (repeat (first
        | exact hs
        | with_reducible apply State.firstIndex_raised
        | with_reducible apply State.slip_raised))

theorem State.heatLoss_raised (st : Fin 4) {s : State} (hs : old.Raised s.attn) :
    old.Raised (s.heatLoss st).attn := by
  unfold State.heatLoss
  dsimp only
  (repeat' split) <;>
    (repeat (first
        | exact hs
        | with_reducible apply State.raiseStop_raised
        | with_reducible apply State.leaveFor_raised))

theorem State.countDwell_raised (st : Fin 4) {s : State} (hs : old.Raised s.attn) :
    old.Raised (s.countDwell st).attn := by
  simpa using hs

theorem State.resumeLifted_raised (st : Fin 4) {s : State} (hs : old.Raised s.attn) :
    old.Raised (s.resumeLifted st).attn := by
  simpa using hs

theorem State.completeTravel_raised (st : Fin 4) {s : State} (hs : old.Raised s.attn) :
    old.Raised (s.completeTravel st).attn := by
  simpa using hs

theorem State.stationExpiry_raised (heaters : Four Bool) (st : Fin 4) {s : State} (hs : old.Raised s.attn) :
    old.Raised (s.stationExpiry heaters st).attn := by
  simpa using hs

theorem State.startStation_raised (st : Fin 4) {s : State} (hs : old.Raised s.attn) :
    old.Raised (s.startStation st).attn := by
  simpa using hs

theorem State.idleStation_raised (st : Fin 4) {s : State} (hs : old.Raised s.attn) :
    old.Raised (s.idleStation st).attn := by
  simpa using hs

theorem State.holdStation_raised (st : Fin 4) {s : State} (hs : old.Raised s.attn) :
    old.Raised (s.holdStation st).attn := by
  simpa using hs

theorem State.drainStation_raised (st : Fin 4) {s : State} (hs : old.Raised s.attn) :
    old.Raised (s.drainStation st).attn := by
  unfold State.drainStation
  dsimp only
  (repeat' split) <;>
    (repeat (first
        | exact hs
        | with_reducible apply State.openThrow_raised
        | with_reducible apply State.commitAll_raised))

theorem State.writeRecord_raised (r : RowCtx) {s : State} (hs : old.Raised s.attn) :
    old.Raised (s.writeRecord r).attn := by
  simpa using hs

theorem State.setWrittenThrough_raised (n : Word) {s : State} (hs : old.Raised s.attn) :
    old.Raised (s.setWrittenThrough n).attn := by
  simpa using hs

theorem State.advanceOldest_raised (n : Word) {s : State} (hs : old.Raised s.attn) :
    old.Raised (s.advanceOldest n).attn := by
  simpa using hs

theorem State.record_raised (r : RowCtx) {s : State} (hs : old.Raised s.attn) :
    old.Raised (s.record r).attn := by
  have h1 : old.Raised (if s.laps r.row then s.raise .recordLapped else s).attn := by
    split
    · exact State.raise_raised _ hs
    · exact hs
  have key : ∀ u : State, old.Raised u.attn →
      old.Raised (if u.tallyDue r.row then u.raise .tally else u).attn := by
    intro u hu
    split
    · exact State.raise_raised _ hu
    · exact hu
  exact key _ (State.advanceOldest_raised r.row
    (State.setWrittenThrough_raised r.row (State.writeRecord_raised r h1)))

theorem State.retireRows_raised (rs : List RowCtx) {s : State} (hs : old.Raised s.attn) :
    old.Raised (s.retireRows rs).attn := by
  induction rs generalizing s with
  | nil => exact hs
  | cons n ns ih => exact ih (State.record_raised _ hs)

theorem State.retireHead_raised {s : State} (hs : old.Raised s.attn) :
    old.Raised (s.retireHead).attn := by
  unfold State.retireHead
  split
  · exact hs
  · exact State.record_raised _ hs

theorem State.bumpGeneration_raised {s : State} (hs : old.Raised s.attn) :
    old.Raised (s.bumpGeneration).attn := by
  simpa using hs

theorem State.liveUpdate_raised {s : State} (hs : old.Raised s.attn) :
    old.Raised (s.liveUpdate).attn := by
  simpa using hs

theorem State.enterIdle_raised {s : State} (hs : old.Raised s.attn) :
    old.Raised (s.enterIdle).attn := by
  unfold State.enterIdle
  simp only [State.withLastRetired_attn, State.withTrack_attn, State.withWpu_attn]
  refine forChannels_raised _ (fun _ _ hs => State.idleChannel_raised _ hs) ?_
  refine forStations_raised _ (fun _ _ hs => State.idleStation_raised _ hs) ?_
  exact State.raise_raised .runIdle hs

theorem State.hold_raised (cause : HoldCause) {s : State} (hs : old.Raised s.attn) :
    old.Raised (s.hold cause).attn := by
  unfold State.hold
  simp only [State.withLastRetired_attn]
  refine State.retireRows_raised _ ?_
  simp only [State.withMark_attn]
  refine forChannels_raised _ (fun _ _ hs => State.holdChannel_raised _ hs) ?_
  refine forStations_raised _ (fun _ _ hs => State.holdStation_raised _ hs) ?_
  exact State.raiseStop_raised .runHeld _ hs

theorem State.handHold_raised (cause : HoldCause) {s : State} (hs : old.Raised s.attn) :
    old.Raised (s.handHold cause).attn := by
  unfold State.handHold
  split
  · exact State.hold_raised _ hs
  · exact hs

theorem State.enterDraining_raised {s : State} (hs : old.Raised s.attn) :
    old.Raised (s.enterDraining).attn := by
  unfold State.enterDraining
  exact forStations_raised _ (fun _ _ hs => State.drainStation_raised _ hs) hs

theorem State.setLane_raised (l : Fin 4) (n : Word) (e : LaneEntry) {s : State} (hs : old.Raised s.attn) :
    old.Raised (s.setLane l n e).attn := by
  simpa using hs

theorem State.setWindow_raised (l : Fin 4) (w : Option LaneWindow) {s : State} (hs : old.Raised s.attn) :
    old.Raised (s.setWindow l w).attn := by
  simpa using hs

theorem State.setHeld_raised (l : Fin 4) (p : Option Pos) {s : State} (hs : old.Raised s.attn) :
    old.Raised (s.setHeld l p).attn := by
  simpa using hs

theorem State.laneFound_raised (l : Fin 4) (w : LaneWindow) (p : Pos) {s : State} (hs : old.Raised s.attn) :
    old.Raised (s.laneFound l w p).attn := by
  simpa using hs

theorem State.laneMissing_raised (l : Fin 4) (w : LaneWindow) {s : State} (hs : old.Raised s.attn) :
    old.Raised (s.laneMissing l w).attn := by
  simpa using hs

theorem State.openLane_raised (n : Word) (lead : Pos) (l : Fin 4) {s : State} (hs : old.Raised s.attn) :
    old.Raised (s.openLane n lead l).attn := by
  simpa using hs

theorem State.noteStatus_raised (m : MarkStatus) {s : State} (hs : old.Raised s.attn) :
    old.Raised (s.noteStatus m).attn := by
  unfold State.noteStatus
  dsimp only
  (repeat' split) <;>
    (repeat (first
        | exact hs
        | with_reducible apply State.raise_raised
        | with_reducible apply State.raiseStop_raised))

theorem State.appendRow_raised (r : RowCtx) {s : State} (hs : old.Raised s.attn) :
    old.Raised (s.appendRow r).attn := by
  have h1 : old.Raised (if r.source.defaulted then s.raise .verdictDefaulted else s).attn := by
    split
    · exact State.raise_raised _ hs
    · exact hs
  unfold State.appendRow
  exact State.writeWord_raised _ _ h1

theorem State.noteFirst_raised (m : MarkStatus) {s : State} (hs : old.Raised s.attn) :
    old.Raised (s.noteFirst m).attn := by
  simpa using hs

theorem State.openRow_raised (m : MarkStatus) (lead : Pos) {s : State} (hs : old.Raised s.attn) :
    old.Raised (s.openRow m lead).attn := by
  unfold State.openRow
  split
  · exact State.handHold_raised _ hs
  · refine forStations_raised _ (fun _ _ hs => State.stationOpen_raised _ _ hs) ?_
    refine State.noteFirst_raised _ (State.noteStatus_raised _ ?_)
    simp only [State.withMark_attn]
    refine forLanes_raised _ (fun _ _ hs => State.openLane_raised _ _ _ hs) ?_
    exact State.appendRow_raised _ hs

theorem State.leadingEdge_raised (p : Pos) (n : Nat) {s : State} (hs : old.Raised s.attn) :
    old.Raised (s.leadingEdge p n).attn := by
  induction n generalizing s with
  | zero => exact hs
  | succ n ih =>
    unfold State.leadingEdge
    split
    · split_ifs
      · exact hs
      · exact ih (State.openRow_raised _ _ hs)
      · exact State.openRow_raised _ _ hs
      · exact State.openRow_raised _ _ hs
    · exact hs

theorem State.laneEdge_raised (l : Fin 4) (p : Pos) {s : State} (hs : old.Raised s.attn) :
    old.Raised (s.laneEdge l p).attn := by
  simpa using hs

theorem State.takeMark_raised (l : Fin 4) (p : Pos) {s : State} (hs : old.Raised s.attn) :
    old.Raised (s.takeMark l p).attn := by
  unfold State.takeMark
  (repeat' split) <;>
    (repeat (first
        | exact hs
        | with_reducible apply State.setHeld_raised
        | with_reducible apply State.openRow_raised
        | with_reducible apply State.leadingEdge_raised
        | with_reducible apply State.laneEdge_raised))

theorem State.closeLane_raised (p : Pos) (l : Fin 4) {s : State} (hs : old.Raised s.attn) :
    old.Raised (s.closeLane p l).attn := by
  simpa using hs

theorem State.closeLeading_raised (p : Pos) {s : State} (hs : old.Raised s.attn) :
    old.Raised (s.closeLeading p).attn := by
  unfold State.closeLeading
  (repeat' split) <;>
    (repeat (first
        | exact hs
        | with_reducible apply State.openRow_raised))

theorem State.markWeb_raised (p : Pos) {s : State} (hs : old.Raised s.attn) :
    old.Raised (s.markWeb p).attn := by
  have lanes : ∀ {u : State}, old.Raised u.attn → old.Raised (forLanes (State.closeLane p) u).attn :=
    fun hu => forLanes_raised _ (fun _ _ h => State.closeLane_raised _ _ h) hu
  exact lanes (State.closeLeading_raised _ (lanes hs))

theorem State.setMarkLevel_raised (l : Fin 4) (level : Bool) {s : State} (hs : old.Raised s.attn) :
    old.Raised (s.setMarkLevel l level).attn := by
  simpa using hs

theorem State.setPair_raised (a b : Bool) {s : State} (hs : old.Raised s.attn) :
    old.Raised (s.setPair a b).attn := by
  simpa using hs

theorem State.reverseCheck_raised {s : State} (hs : old.Raised s.attn) :
    old.Raised (s.reverseCheck).attn := by
  unfold State.reverseCheck
  split
  · exact State.hold_raised _ hs
  · exact hs

theorem State.webChange_raised (p : Pos) {s : State} (hs : old.Raised s.attn) :
    old.Raised (s.webChange p).attn := by
  unfold State.webChange
  refine State.reverseCheck_raised (State.markWeb_raised _ ?_)
  refine forStations_raised _ (fun _ _ hs => State.stationWeb_raised _ _ _ hs) ?_
  exact forChannels_raised _ (fun _ _ hs => State.foilAdvance_raised _ _ _ hs) hs

theorem State.count_raised (d : Direction) {s : State} (hs : old.Raised s.attn) :
    old.Raised (s.count d).attn := by
  unfold State.count
  dsimp only
  split
  · exact hs
  · exact State.webChange_raised _ hs

theorem State.overspeedCheck_raised {s : State} (hs : old.Raised s.attn) :
    old.Raised (s.overspeedCheck).attn := by
  unfold State.overspeedCheck
  dsimp only
  (repeat' split) <;>
    (repeat (first
        | exact hs
        | with_reducible apply State.raiseStop_raised))

theorem State.speedUpdate_raised {s : State} (hs : old.Raised s.attn) :
    old.Raised (s.speedUpdate).attn := by
  unfold State.speedUpdate
  repeat (first
        | exact hs
        | with_reducible apply State.overspeedCheck_raised)

theorem State.channelExpiry_raised (c : Fin 8) {s : State} (hs : old.Raised s.attn) :
    old.Raised (s.channelExpiry c).attn := by
  unfold State.channelExpiry
  (repeat' split) <;>
    (repeat (first
        | exact hs
        | with_reducible apply State.tryRampUp_raised))

theorem State.retire_raised {s : State} (hs : old.Raised s.attn) :
    old.Raised (s.retire).attn := by
  unfold State.retire
  dsimp only
  split
  · exact State.enterIdle_raised (State.retireHead_raised hs)
  · exact State.retireHead_raised hs

theorem State.setIndexLevel_raised (st : Fin 4) (level : Bool) {s : State} (hs : old.Raised s.attn) :
    old.Raised (s.setIndexLevel st level).attn := by
  simpa using hs

theorem State.writeReport_raised (fs : List Failure) {s : State} (hs : old.Raised s.attn) :
    old.Raised (s.writeReport fs).attn := by
  simpa using hs

theorem State.beginRun_raised (c : Current) (first : Word) {s : State} (hs : old.Raised s.attn) :
    old.Raised (s.beginRun c first).attn := by
  simpa using hs

theorem State.writePlateFault_raised (f : PlateFault) {s : State} (hs : old.Raised s.attn) :
    old.Raised (s.writePlateFault f).attn := by
  simpa using hs

theorem State.setSlot_raised (n : Nat) (x : PlateSlot) {s : State} (hs : old.Raised s.attn) :
    old.Raised (s.setSlot n x).attn := by
  simpa using hs

theorem State.startCycle_raised (slot : Nat) (working : Memory) {s : State} (hs : old.Raised s.attn) :
    old.Raised (s.startCycle slot working).attn := by
  simpa using hs

end Sys2Proof.Machine
end

