-- ==== Sys2Proof/Laws/Codes.lean ====
section
/-! SUPPORT. The code lists of the statements are the codes that the part writes: one lemma for each list. -/

namespace Sys2Proof.Machine

/-- R201. -/
theorem code_of_mem_holdCauseCodes : ∀ p ∈ holdCauseCodes, p.1.code = p.2 := by decide

/-- R201. -/
theorem code_of_mem_stationStateCodes : ∀ p ∈ stationStateCodes, p.1.code = p.2 := by decide

/-- R201. -/
theorem code_of_mem_throwCodes : ∀ p ∈ throwCodes, p.1.code = p.2 := by decide

/-- R201. -/
theorem code_of_mem_channelStateCodes : ∀ p ∈ channelStateCodes, p.1.code = p.2 := by decide

/-- R201. -/
theorem bit_of_mem_stopCauseBits : ∀ p ∈ stopCauseBits, p.1.bit = p.2 := by decide

/-- R202. -/
theorem code_of_mem_scopeCodes : ∀ p ∈ scopeCodes, p.1.code = p.2 := by decide

/-- R202. -/
theorem code_of_mem_errorCodes : ∀ p ∈ errorCodes, p.1.code = p.2 := by decide

end Sys2Proof.Machine
end

