-- ==== Sys2Proof/Laws/Commands.lean ====
section
/-! SUPPORT. The command engine: the CMD word, a write to a busy engine, a write to a free engine, and what
executing each command comes to where the engine is free. -/

namespace Sys2Proof.Machine

/-! ## The CMD word -/

/-- The bits of a CMD word: the code, the argument, and PEND (R199). -/
theorem cmdWord_getLsbD (c : BitVec 8) (a : BitVec 16) (i : Nat) : (cmdWord c a).getLsbD i =
    if i < 8 then c.getLsbD i else if i < 24 then a.getLsbD (i - 8) else (0x80#8).getLsbD (i - 24) := by
  show BitVec.getLsbD (0x80#8 ++ a ++ c : BitVec (8 + 16 + 8)) i = _
  rw [BitVec.getLsbD_append, BitVec.getLsbD_append]
  simp only [show ∀ i, (i - 8 < 16 ↔ i < 24) from fun i => by omega, show i - 8 - 16 = i - 24 from by omega]

/-- The code of a CMD word. -/
theorem cmdWord_code (c : BitVec 8) (a : BitVec 16) : (cmdWord c a).extractLsb' 0 8 = c := by
  apply BitVec.eq_of_getLsbD_eq; intro i hi
  rw [BitVec.getLsbD_extractLsb', cmdWord_getLsbD]
  simp [hi]

/-- The argument of a CMD word. -/
theorem cmdWord_arg (c : BitVec 8) (a : BitVec 16) : (cmdWord c a).extractLsb' 8 16 = a := by
  apply BitVec.eq_of_getLsbD_eq; intro i hi
  rw [BitVec.getLsbD_extractLsb', cmdWord_getLsbD, if_neg (by omega), if_pos (by omega)]
  simp [hi]

/-- A CMD word has PEND set. -/
theorem cmdWord_pend (c : BitVec 8) (a : BitVec 16) : (cmdWord c a).getLsbD 31 = true := by
  rw [cmdWord_getLsbD]; rfl

/-! ## Writes to CMD -/

/-- A write to CMD with PEND set does what its code and argument give: the unused bits do nothing (R172, R178,
R199). -/
theorem State.writeCmd_fields (s : State) (v : Word) (hp : v.getLsbD 31 = true) :
    s.writeCmd v = s.writeCmd (cmdWord (v.extractLsb' 0 8) (v.extractLsb' 8 16)) := by
  unfold State.writeCmd
  rw [cmdWord_code, cmdWord_arg, cmdWord_pend, hp]

/-- A busy engine accepts nothing (R179). -/
theorem State.serveEngine_busy (s : State) (h : s.engine.executing ≠ none) : s.serveEngine = s := by
  unfold State.serveEngine
  rw [if_neg]
  cases hx : s.engine.executing <;> simp_all

/-- A write to CMD while a command executes: the word waits (R178). -/
theorem State.writeCmd_busy (s : State) (v : Word) (h : s.engine.executing ≠ none) :
    s.writeCmd v = { s with engine := { s.engine with code := v.extractLsb' 0 8, arg := v.extractLsb' 8 16, pend := v.getLsbD 31 } } := by
  unfold State.writeCmd
  rw [State.serveEngine_busy]
  · rfl
  · exact h

/-- The state a command begins in: CMD and CMD_STATUS as its acceptance leaves them (R179). -/
def State.accepted (s : State) (code : BitVec 8) (arg : BitVec 16) : State :=
  s.withEngine { code := code, arg := arg, pend := false, statusCode := code, seq := s.engine.seq + 1, result := .none, phase := .executing, executing := none }

/-- A command written to a free engine: what it begins, then its completion where it ends there. -/
theorem State.writeCmd_free (s : State) (v : Word) (hp : v.getLsbD 31 = true) (h : s.engine.executing = none) :
    s.writeCmd v = match (State.accepted s (v.extractLsb' 0 8) (v.extractLsb' 8 16)).begin (v.extractLsb' 0 8) (v.extractLsb' 8 16) with
      | (t, some r) => t.complete r
      | (t, none) => t := by
  unfold State.writeCmd State.serveEngine
  rw [if_pos (by simp [hp, h])]
  unfold State.accept Engine.accept State.accepted
  simp only [State.withEngine_engine, h]
  rfl

/-- A command row sent to a free engine. -/
theorem State.writeCmd_cmdWord (s : State) (c : BitVec 8) (a : BitVec 16) (h : s.engine.executing = none) :
    s.writeCmd (cmdWord c a) = match (State.accepted s c a).begin c a with
      | (t, some r) => t.complete r
      | (t, none) => t := by
  rw [State.writeCmd_free s _ (cmdWord_pend c a) h, cmdWord_code, cmdWord_arg]

/-- A completion that follows its acceptance at once. -/
theorem State.complete_accepted (s : State) (c a r) : (State.accepted s c a).complete r = { s with engine := s.engine.done c a r, attn := s.attn.raise .cmdDone } := rfl

/-- A completion changes CMD_STATUS and attention alone (R180). -/
@[simp] theorem State.complete_frame (r : CmdResult) (s : State) :
    (s.complete r).wpu = s.wpu ∧
    (s.complete r).cylGens = s.cylGens ∧
    (s.complete r).foilGens = s.foilGens ∧
    (s.complete r).mark = s.mark ∧
    (s.complete r).track = s.track ∧
    (s.complete r).lastRetired = s.lastRetired ∧
    (s.complete r).stations = s.stations ∧
    (s.complete r).channels = s.channels ∧
    (s.complete r).jobs = s.jobs ∧
    (s.complete r).store = s.store ∧
    (s.complete r).mem = s.mem ∧
    (s.complete r).records = s.records ∧
    (s.complete r).generation = s.generation ∧
    (s.complete r).freeCount = s.freeCount ∧
    (s.complete r).pending = s.pending ∧
    (s.complete r).engine = s.engine.complete r ∧
    (s.complete r).attn = s.attn.raise .cmdDone ∧
    (∀ st, (s.complete r).station st = s.station st) ∧
    (∀ c, (s.complete r).channel c = s.channel c) ∧
    (s.complete r).cur = s.cur := by
  and_intros <;> first | rfl | exact fun _ => rfl

/-- An acceptance changes CMD and CMD_STATUS alone (R179). -/
@[simp] theorem State.accepted_frame (s : State) (code : BitVec 8) (arg : BitVec 16) :
    (s.accepted code arg).wpu = s.wpu ∧
    (s.accepted code arg).cylGens = s.cylGens ∧
    (s.accepted code arg).foilGens = s.foilGens ∧
    (s.accepted code arg).mark = s.mark ∧
    (s.accepted code arg).track = s.track ∧
    (s.accepted code arg).lastRetired = s.lastRetired ∧
    (s.accepted code arg).stations = s.stations ∧
    (s.accepted code arg).channels = s.channels ∧
    (s.accepted code arg).jobs = s.jobs ∧
    (s.accepted code arg).store = s.store ∧
    (s.accepted code arg).mem = s.mem ∧
    (s.accepted code arg).records = s.records ∧
    (s.accepted code arg).generation = s.generation ∧
    (s.accepted code arg).freeCount = s.freeCount ∧
    (s.accepted code arg).pending = s.pending ∧
    (s.accepted code arg).attn = s.attn ∧
    (∀ st, (s.accepted code arg).station st = s.station st) ∧
    (∀ c, (s.accepted code arg).channel c = s.channel c) ∧
    (s.accepted code arg).cur = s.cur ∧
    (s.accepted code arg).web = s.web := by
  and_intros <;> first | rfl | exact fun _ => rfl

/-! ## The rows, with the engine free -/

/-- START_RUN State.accepted by a free engine. -/
theorem exec_startRun (s : State) (arg : BitVec 16) (h : s.engine.executing = none) :
    exec (.startRun arg) s = .next (State.complete ((State.accepted s 2 arg).startRun).2 ((State.accepted s 2 arg).startRun).1) := by
  show Host.Outcome.next (s.writeCmd (cmdWord 2 arg)) = _
  rw [State.writeCmd_cmdWord s _ _ h]; rfl

/-- END_RUN State.accepted by a free engine. -/
theorem exec_endRun (s : State) (arg : BitVec 16) (h : s.engine.executing = none) :
    exec (.endRun arg) s = .next (State.complete ((State.accepted s 3 arg).endRun).2 ((State.accepted s 3 arg).endRun).1) := by
  show Host.Outcome.next (s.writeCmd (cmdWord 3 arg)) = _
  rw [State.writeCmd_cmdWord s _ _ h]; rfl

/-- HOLD_RUN State.accepted by a free engine. -/
theorem exec_holdRun (s : State) (arg : BitVec 16) (h : s.engine.executing = none) :
    exec (.holdRun arg) s = .next (State.complete ((State.accepted s 4 arg).holdRun).2 ((State.accepted s 4 arg).holdRun).1) := by
  show Host.Outcome.next (s.writeCmd (cmdWord 4 arg)) = _
  rw [State.writeCmd_cmdWord s _ _ h]; rfl

/-- RESUME_RUN State.accepted by a free engine. -/
theorem exec_resumeRun (s : State) (arg : BitVec 16) (h : s.engine.executing = none) :
    exec (.resumeRun arg) s = .next (State.complete ((State.accepted s 5 arg).resumeRun).2 ((State.accepted s 5 arg).resumeRun).1) := by
  show Host.Outcome.next (s.writeCmd (cmdWord 5 arg)) = _
  rw [State.writeCmd_cmdWord s _ _ h]; rfl

/-- REARM_STATION State.accepted by a free engine. -/
theorem exec_rearmStation (s : State) (arg : BitVec 16) (h : s.engine.executing = none) :
    exec (.rearmStation arg) s = .next (State.complete (State.rearmStation arg (State.accepted s 6 arg)).2 (State.rearmStation arg (State.accepted s 6 arg)).1) := by
  show Host.Outcome.next (s.writeCmd (cmdWord 6 arg)) = _
  rw [State.writeCmd_cmdWord s _ _ h]; rfl

/-- REFILL_FOIL State.accepted by a free engine. -/
theorem exec_refillFoil (s : State) (arg : BitVec 16) (h : s.engine.executing = none) :
    exec (.refillFoil arg) s = .next (State.complete (State.refillFoil arg (State.accepted s 7 arg)).2 (State.refillFoil arg (State.accepted s 7 arg)).1) := by
  show Host.Outcome.next (s.writeCmd (cmdWord 7 arg)) = _
  rw [State.writeCmd_cmdWord s _ _ h]; rfl

/-- PLATE_READ State.accepted by a free engine. -/
theorem exec_plateRead (s : State) (arg : BitVec 16) (h : s.engine.executing = none) :
    exec (.plateRead arg) s = .next (State.complete (State.plateRead arg (State.accepted s 9 arg)).2 (State.plateRead arg (State.accepted s 9 arg)).1) := by
  show Host.Outcome.next (s.writeCmd (cmdWord 9 arg)) = _
  rw [State.writeCmd_cmdWord s _ _ h]; rfl

/-- ACK_STOP State.accepted by a free engine. -/
theorem exec_ackStop (s : State) (arg : BitVec 16) (h : s.engine.executing = none) :
    exec (.ackStop arg) s = .next (State.complete ((State.accepted s 10 arg).ackStop).2 ((State.accepted s 10 arg).ackStop).1) := by
  show Host.Outcome.next (s.writeCmd (cmdWord 10 arg)) = _
  rw [State.writeCmd_cmdWord s _ _ h]; rfl

/-- PLATE_SAVE State.accepted by a free engine. -/
theorem exec_plateSave (s : State) (arg : BitVec 16) (h : s.engine.executing = none) :
    exec (.plateSave arg) s = .next (match State.plateSave arg (State.accepted s 8 arg) with
      | (t, some r) => t.complete r
      | (t, none) => t) := by
  show Host.Outcome.next (s.writeCmd (cmdWord 8 arg)) = _
  rw [State.writeCmd_cmdWord s _ _ h]; rfl

/-- LOAD_JOB State.accepted by a free engine. -/
theorem exec_loadJob (s : State) (arg : BitVec 16) (h : s.engine.executing = none) :
    exec (.loadJob arg) s = .next (State.accepted s 1 arg).loadJob.1 := by
  show Host.Outcome.next (s.writeCmd (cmdWord 1 arg)) = _
  rw [State.writeCmd_cmdWord s _ _ h]; rfl

/-- A code that names no command begins nothing and is BAD_CODE (R181). -/
theorem State.begin_badCode (s : State) (code a) (h : (Instr.unknownCommand code a).wellFormed = true) :
    s.begin code a = (s, some .badCode) := by
  simp only [Instr.wellFormed, knownCode, Bool.not_eq_true', Bool.and_eq_false_iff, decide_eq_false_iff_not] at h
  unfold State.begin
  split <;> first | omega | rfl

/-- UNKNOWN_COMMAND State.accepted by a free engine. -/
theorem exec_unknownCommand (s : State) (code) (arg : BitVec 16) (h : s.engine.executing = none) (hw : (Instr.unknownCommand code arg).wellFormed = true) :
    exec (.unknownCommand code arg) s = .next (State.complete .badCode (State.accepted s code arg)) := by
  show Host.Outcome.next (s.writeCmd (cmdWord code arg)) = _
  rw [State.writeCmd_cmdWord s _ _ h, State.begin_badCode _ _ _ hw]

end Sys2Proof.Machine
end

