-- ==== Sys2Proof/Laws/Run.lean ====
section
/-! SUPPORT. What taking an action for every station and every channel does to each of them, and what entry to
IDLE and a hold do to the blocks. -/

namespace Sys2Proof.Machine

/-! ## One station, one channel, and all of them -/

/-- A station just replaced reads as replaced, and the others as before. -/
@[simp] theorem State.station_setStation (s : State) (i j : Fin 4) (x : Station) : (s.setStation i x).station j = if j = i then x else s.station j := by
  simp [State.setStation, State.station]

/-- A channel just replaced reads as replaced, and the others as before. -/
@[simp] theorem State.channel_setChannel (s : State) (i j : Fin 8) (x : Channel) : (s.setChannel i x).channel j = if j = i then x else s.channel j := by
  simp [State.setChannel, State.channel]

/-- What taking an action for every station leaves of each station, where each action changes its own
station alone, by a rule that reads only what every action keeps. -/
theorem forStations_station (f : Fin 4 → State → State) (g : Fin 4 → Station → Station) (P : State → Prop)
    (hP : ∀ k s, P s → P (f k s))
    (hf : ∀ k st s, P s → (f k s).station st = if st = k then g k (s.station k) else s.station st)
    (s : State) (h : P s) (st : Fin 4) : (forStations f s).station st = g st (s.station st) := by
  unfold forStations
  have h0 := hP 0 s h
  have h1 := hP 1 _ h0
  have h2 := hP 2 _ h1
  rw [hf 3 st _ h2, hf 2 _ _ h1, hf 2 _ _ h1, hf 1 _ _ h0, hf 1 _ _ h0, hf 1 _ _ h0, hf 0 _ _ h, hf 0 _ _ h, hf 0 _ _ h, hf 0 _ _ h]
  fin_cases st <;> rfl

/-- What taking an action for every channel leaves of each channel, likewise. -/
theorem forChannels_channel (f : Fin 8 → State → State) (g : Fin 8 → Channel → Channel) (P : State → Prop)
    (hP : ∀ k s, P s → P (f k s))
    (hf : ∀ k st s, P s → (f k s).channel st = if st = k then g k (s.channel k) else s.channel st)
    (s : State) (h : P s) (st : Fin 8) : (forChannels f s).channel st = g st (s.channel st) := by
  unfold forChannels
  have h0 := hP 0 s h
  have h1 := hP 1 _ h0
  have h2 := hP 2 _ h1
  have h3 := hP 3 _ h2
  have h4 := hP 4 _ h3
  have h5 := hP 5 _ h4
  have h6 := hP 6 _ h5
  simp only [hf 7 _ _ h6, hf 6 _ _ h5, hf 5 _ _ h4, hf 4 _ _ h3, hf 3 _ _ h2, hf 2 _ _ h1, hf 1 _ _ h0, hf 0 _ _ h]
  fin_cases st <;> rfl

/-- What taking an action for every station leaves of each cylinder generator, likewise. -/
theorem forStations_cylGens (f : Fin 4 → State → State) (g : Fin 4 → StepGen → StepGen) (P : State → Prop)
    (hP : ∀ k s, P s → P (f k s))
    (hf : ∀ k st s, P s → (f k s).cylGens.get st = if st = k then g k (s.cylGens.get k) else s.cylGens.get st)
    (s : State) (h : P s) (st : Fin 4) : (forStations f s).cylGens.get st = g st (s.cylGens.get st) := by
  unfold forStations
  have h0 := hP 0 s h
  have h1 := hP 1 _ h0
  have h2 := hP 2 _ h1
  rw [hf 3 st _ h2, hf 2 _ _ h1, hf 2 _ _ h1, hf 1 _ _ h0, hf 1 _ _ h0, hf 1 _ _ h0, hf 0 _ _ h, hf 0 _ _ h, hf 0 _ _ h, hf 0 _ _ h]
  fin_cases st <;> rfl

/-- What taking an action for every channel leaves of each foil generator, likewise. -/
theorem forChannels_foilGens (f : Fin 8 → State → State) (g : Fin 8 → StepGen → StepGen) (P : State → Prop)
    (hP : ∀ k s, P s → P (f k s))
    (hf : ∀ k st s, P s → (f k s).foilGens.get st = if st = k then g k (s.foilGens.get k) else s.foilGens.get st)
    (s : State) (h : P s) (st : Fin 8) : (forChannels f s).foilGens.get st = g st (s.foilGens.get st) := by
  unfold forChannels
  have h0 := hP 0 s h
  have h1 := hP 1 _ h0
  have h2 := hP 2 _ h1
  have h3 := hP 3 _ h2
  have h4 := hP 4 _ h3
  have h5 := hP 5 _ h4
  have h6 := hP 6 _ h5
  simp only [hf 7 _ _ h6, hf 6 _ _ h5, hf 5 _ _ h4, hf 4 _ _ h3, hf 3 _ _ h2, hf 2 _ _ h1, hf 1 _ _ h0, hf 0 _ _ h]
  fin_cases st <;> rfl

/-! ## Entry to IDLE -/

/-- The stations at entry to IDLE (R99). -/
theorem State.idleStation_station (s : State) (st : Fin 4) : (forStations State.idleStation s).station st = (s.station st).toInactive :=
  forStations_station State.idleStation (fun _ x => x.toInactive) (fun _ => True) (fun _ _ _ => trivial)
    (fun k st s _ => by
      show (s.setStation k _).station st = _
      simp) s trivial st

/-- The cylinder ratios at entry to IDLE (R15). -/
theorem State.idleStation_cylGens (s : State) (st : Fin 4) : (forStations State.idleStation s).cylGens.get st = { s.cylGens.get st with ratio := 0 } :=
  forStations_cylGens State.idleStation (fun _ x => { x with ratio := 0 }) (fun _ => True) (fun _ _ _ => trivial)
    (fun k st s _ => by
      show (s.cylGens.set k _).get st = _
      rw [Four.get_set]; rfl) s trivial st

/-- The channels at entry to IDLE (R105). -/
theorem State.idleChannel_channel (s : State) (st : Fin 8) : (forChannels State.idleChannel s).channel st = (s.channel st).toIdle :=
  forChannels_channel State.idleChannel (fun _ x => x.toIdle) (fun _ => True) (fun _ _ _ => trivial)
    (fun k st s _ => by
      show (s.setChannel k _).channel st = _
      simp) s trivial st

/-- The foil ratios at entry to IDLE (R16). -/
theorem State.idleChannel_foilGens (s : State) (st : Fin 8) : (forChannels State.idleChannel s).foilGens.get st = { s.foilGens.get st with ratio := 0 } :=
  forChannels_foilGens State.idleChannel (fun _ x => { x with ratio := 0 }) (fun _ => True) (fun _ _ _ => trivial)
    (fun k st s _ => by
      show (s.foilGens.set k _).get st = _
      rw [Eight.get_set]; rfl) s trivial st

/-- All that entry to IDLE does (R12, R38, R99, R105, R147). -/
theorem State.enterIdle_spec (s : State) : 
    s.enterIdle.jobs = { s.jobs with run := .idle, holdCause := .none } ∧ s.enterIdle.attn = s.attn.raise .runIdle ∧
    s.enterIdle.mark = s.mark.clear ∧ s.enterIdle.wpu = { s.wpu with overspeed := false } ∧ s.enterIdle.track = [] ∧
    s.enterIdle.lastRetired = none ∧
    (∀ st, s.enterIdle.station st = (s.station st).toInactive ∧ s.enterIdle.cylGens.get st = { s.cylGens.get st with ratio := 0 }) ∧
    (∀ c, s.enterIdle.channel c = (s.channel c).toIdle ∧ s.enterIdle.foilGens.get c = { s.foilGens.get c with ratio := 0 }) ∧
    s.enterIdle.mem = s.mem ∧ s.enterIdle.records = s.records ∧ s.enterIdle.engine = s.engine ∧ s.enterIdle.store = s.store ∧
    s.enterIdle.generation = s.generation ∧ s.enterIdle.freeCount = s.freeCount ∧ s.enterIdle.pending = s.pending := by
  have hst : ∀ u : State, ∀ c, ((forStations State.idleStation u).channel c = u.channel c) := fun u c => by simp [forStations, State.channel]
  have hch : ∀ u : State, ∀ c, ((forChannels State.idleChannel u).station c = u.station c) := fun u c => by simp [forChannels, State.station]
  obtain ⟨u, hu⟩ : ∃ u, u = ((s.withJobs { s.jobs with run := .idle, holdCause := .none }).raise .runIdle).withMark s.mark.clear := ⟨_, rfl⟩
  obtain ⟨v, hv⟩ : ∃ v, v = forChannels State.idleChannel (forStations State.idleStation u) := ⟨_, rfl⟩
  have e : s.enterIdle = ((v.withWpu { v.wpu with overspeed := false }).withTrack []).withLastRetired none := by rw [hv, hu]; rfl
  have v1 : v.jobs = { s.jobs with run := .idle, holdCause := .none } := by simp [hv, hu, forStations, forChannels]
  have v2 : v.attn = s.attn.raise .runIdle := by simp [hv, hu, forStations, forChannels, State.raise]
  have v3 : v.mark = s.mark.clear := by simp [hv, hu, forStations, forChannels]
  have v4 : v.wpu = s.wpu := by simp [hv, hu, forStations, forChannels]
  have v5 : ∀ st, v.station st = (s.station st).toInactive := by intro st; rw [hv, hch, State.idleStation_station, hu]; rfl
  have v6 : ∀ st, v.cylGens.get st = { s.cylGens.get st with ratio := 0 } := by
    intro st
    rw [hv, forChannels_keeps (fun s => s.cylGens) _ (by simp), State.idleStation_cylGens, hu]; rfl
  have v7 : ∀ c, v.channel c = (s.channel c).toIdle := by intro c; rw [hv, State.idleChannel_channel, hst, hu]; rfl
  have v8 : ∀ c, v.foilGens.get c = { s.foilGens.get c with ratio := 0 } := by
    intro c
    rw [hv, State.idleChannel_foilGens, forStations_keeps (fun s => s.foilGens) _ (by simp), hu]; rfl
  refine ⟨?_, ?_, ?_, ?_, ?_, ?_, fun st => ⟨?_, ?_⟩, fun c => ⟨?_, ?_⟩, ?_, ?_, ?_, ?_, ?_, ?_, ?_⟩
  · rw [e]; exact v1
  · rw [e]; exact v2
  · rw [e]; exact v3
  · rw [e, ← v4]; rfl
  · rw [e]; rfl
  · rw [e]; rfl
  · rw [e]; exact v5 st
  · rw [e]; exact v6 st
  · rw [e]; exact v7 c
  · rw [e]; exact v8 c
  all_goals simp

/-! ## Holds -/

/-- The stations at a hold (R96). -/
theorem State.holdStation_station (s : State) (st : Fin 4) : (forStations State.holdStation s).station st =
    if (s.station st).state = .inactive then s.station st else (s.station st).hold (s.block st).throwOff := by
  refine forStations_station State.holdStation (fun st x => if x.state = .inactive then x else x.hold (s.block st).throwOff) (fun t => t.cur = s.cur) (fun k t h => by simpa using h) ?_ s rfl st
  intro k st t h
  unfold State.holdStation State.activeAt
  have hb : (t.block k).throwOff = (s.block k).throwOff := by simp [State.block, State.job, h]
  by_cases hi : (t.station k).state = .inactive
  · simp only [hi, bne_self_eq_false, Bool.false_eq_true, if_false, if_true]
    split
    · rename_i hk; rw [hk]
    · rfl
  · rw [if_pos (by simpa using hi)]
    show (t.setStation k _).station st = _
    rw [State.station_setStation, hb, if_neg hi]

/-- The channels at a hold (R129). -/
theorem State.holdChannel_channel (s : State) (st : Fin 8) : (forChannels State.holdChannel s).channel st =
    if (s.channel st).state = .idle then s.channel st else (s.channel st).hold (rampLength s.wpu.v8p (s.channel st).params) := by
  refine forChannels_channel State.holdChannel (fun _ x => if x.state = .idle then x else x.hold (rampLength s.wpu.v8p x.params)) (fun t => t.wpu = s.wpu) (fun k t h => by simpa using h) ?_ s rfl st
  intro k st t h
  unfold State.holdChannel State.rampNow
  rw [h]
  by_cases hi : (t.channel k).state = .idle
  · rw [if_pos hi, if_pos hi]
    split
    · rename_i hk; rw [hk]
    · rfl
  · rw [if_neg hi, State.channel_setChannel, if_neg hi]

end Sys2Proof.Machine
end

