-- ==== Sys2Proof/Laws/Jobs.lean ====
section
/-! SUPPORT. Job control: the stop-cause set, and the checks of a job that found no failure. -/

namespace Sys2Proof.Machine

/-! ## Stop causes -/

/-- A stop cause handed over stands, and every other stands as before (R154). -/
theorem JobControl.handStop_hasStop (j : JobControl) (c d : StopCause) : (j.handStop c).hasStop d = true ↔ d = c ∨ j.hasStop d = true := by
  simp only [JobControl.handStop, JobControl.hasStop, BitVec.getLsbD_or, Bool.or_eq_true, BitVec.getLsbD_twoPow]
  cases c <;> cases d <;> simp [StopCause.bit]

/-- Every stop cause has its bit below 10. -/
theorem StopCause.bit_lt (c : StopCause) : c.bit < 10 := by cases c <;> decide

/-- Every bit of the stop-cause set is a stop cause. -/
theorem StopCause.exists_bit (k : Fin 10) : ∃ c : StopCause, c.bit = k ∧ c ∈ StopCause.list := by
  fin_cases k
  exacts [⟨.host, rfl, by decide⟩, ⟨.reverse, rfl, by decide⟩, ⟨.encoder, rfl, by decide⟩, ⟨.trackFull, rfl, by decide⟩, ⟨.regLost, rfl, by decide⟩, ⟨.stationFault, rfl, by decide⟩, ⟨.stationHeat, rfl, by decide⟩, ⟨.spliceRisk, rfl, by decide⟩, ⟨.overspeed, rfl, by decide⟩, ⟨.foilOut, rfl, by decide⟩]

/-- A set of stop causes built bit by bit. -/
theorem foldl_or_bits (p : StopCause → Bool) (l : List StopCause) (acc : BitVec 10) (k : Nat) :
    (l.foldl (fun acc c => if p c then acc ||| BitVec.twoPow 10 c.bit else acc) acc).getLsbD k = true ↔
      acc.getLsbD k = true ∨ ∃ c ∈ l, p c = true ∧ c.bit = k := by
  induction l generalizing acc with
  | nil => simp
  | cons c l ih =>
    rw [List.foldl_cons, ih]
    by_cases hp : p c = true
    · have hb := StopCause.bit_lt c
      simp only [hp, if_true, BitVec.getLsbD_or, BitVec.getLsbD_twoPow, List.mem_cons, Bool.or_eq_true, Bool.and_eq_true, decide_eq_true_eq]
      constructor
      · rintro ((h | ⟨_, h⟩) | ⟨d, h⟩)
        · exact .inl h
        · exact .inr ⟨c, .inl rfl, hp, h⟩
        · exact .inr ⟨d, .inr h.1, h.2⟩
      · rintro (h | ⟨d, rfl | hd, h2, h3⟩)
        · exact .inl (.inl h)
        · exact .inl (.inr ⟨by omega, h3⟩)
        · exact .inr ⟨d, hd, h2, h3⟩
    · simp [hp]

/-- The causes ACK_STOP keeps: those that stand and persist (R155). -/
theorem State.persisting_iff (s : State) (c : StopCause) : s.persisting.getLsbD c.bit = true ↔ s.jobs.hasStop c = true ∧ s.persists c = true := by
  unfold State.persisting
  rw [foldl_or_bits (fun c => s.jobs.hasStop c && s.persists c)]
  simp only [BitVec.ofNat_eq_ofNat, BitVec.getLsbD_zero, Bool.false_eq_true, false_or, Bool.and_eq_true]
  constructor
  · rintro ⟨d, _, h, h2⟩
    have : d = c := by cases d <;> cases c <;> simp [StopCause.bit] at h2 <;> rfl
    exact this ▸ h
  · intro h; exact ⟨c, by cases c <;> decide, h, rfl⟩

/-! ## Numbers that name a station or a channel -/

/-- A number that is a station. -/
theorem fin4_of_eq (n : Nat) (st : Fin 4) (h : n = st) : fin4 n = some st := by
  subst h; simp [fin4]

/-- A number that is a channel. -/
theorem fin8_of_eq (n : Nat) (st : Fin 8) (h : n = st) : fin8 n = some st := by
  subst h; simp [fin8]

/-- The first rows START_RUN takes (R143). -/
theorem firstRowOk_iff (n : Word) : firstRowOk n = true ↔ n ≠ 0 ∧ n.toNat ≤ 4294967040 := by
  simp [firstRowOk]

/-! ## Checks without a failure -/

/-- Checks made in order that found no failure. -/
theorem foldl_checks_nil (k : Candidate) (cs : List (Candidate → List Failure → List Failure)) (acc : List Failure)
    (h : cs.foldl (fun fs check => fs ++ check k fs) acc = []) : acc = [] ∧ ∀ c ∈ cs, c k [] = [] := by
  induction cs generalizing acc with
  | nil => simpa using h
  | cons c cs ih =>
    rw [List.foldl_cons] at h
    obtain ⟨h1, h2⟩ := ih _ h
    rw [List.append_eq_nil_iff] at h1
    obtain ⟨rfl, h3⟩ := h1
    refine ⟨rfl, fun d hd => ?_⟩
    rcases List.mem_cons.mp hd with rfl | hd
    · exact h3
    · exact h2 d hd

/-- Checks that found no failure each find none on their own. -/
theorem runChecks_nil {k : Candidate} {cs : List (Candidate → List Failure → List Failure)} (h : runChecks k cs = []) : ∀ c ∈ cs, c k [] = [] :=
  (foldl_checks_nil k cs [] h).2

/-- One requirement that holds. -/
theorem require_nil (ok : Bool) (sc n f e) : require ok sc n f e = [] ↔ ok = true := by
  unfold require; split <;> simp_all

/-- A check made for every station. -/
theorem eachStation_nil (f : Fin 4 → List Failure) : eachStation f = [] ↔ ∀ st, f st = [] := by
  unfold eachStation
  simp only [List.append_eq_nil_iff]
  constructor
  · rintro ⟨⟨⟨a, b⟩, c⟩, d⟩ st; fin_cases st <;> assumption
  · intro h; exact ⟨⟨⟨h 0, h 1⟩, h 2⟩, h 3⟩

/-- A check made for every lane. -/
theorem mapIdx_flatten_nil {α} (g : Fin 4 → α → List Failure) (f : Four α) : (f.mapIdx g).toList.flatten = [] ↔ ∀ i, g i (f.get i) = [] := by
  simp only [Four.toList, Four.mapIdx, List.flatten_cons, List.flatten_nil, List.append_eq_nil_iff, and_true]
  constructor
  · rintro ⟨a, b, c, d⟩ st; fin_cases st <;> assumption
  · intro h; exact ⟨h 0, h 1, h 2, h 3⟩

/-- A check made for every channel. -/
theorem eachChannel_nil (f : Fin 8 → List Failure) : eachChannel f = [] ↔ ∀ c, f c = [] := by
  unfold eachChannel
  simp only [List.append_eq_nil_iff]
  constructor
  · intro h c; fin_cases c <;> simp_all
  · intro h; simp [h]

/-- Foil parameters whose ranges pass are in range (R103). -/
theorem foilRanges_nil (p : FoilParams) (sc : Scope) (n b : Nat) (h : foilRanges p sc n b = []) : p.inRange := by
  simp only [foilRanges, List.append_eq_nil_iff, require_nil, within, Bool.and_eq_true, decide_eq_true_eq, beq_iff_eq] at h
  unfold FoilParams.inRange
  omega

/-- A station block whose ranges pass is in range (R134, R138). -/
theorem stationRanges_nil (b : StationBlock) (st : Fin 4) (h : stationRanges b st = []) : b.inRange := by
  unfold stationRanges at h
  simp only at h
  split at h
  · rename_i ha
    simp only [List.append_eq_nil_iff, require_nil, within, Bool.and_eq_true, decide_eq_true_eq] at h
    obtain ⟨fields, foil⟩ := h
    refine ⟨?_, fun _ => by omega, fun hh => ?_⟩
    · simp only [StationBlock.active, Bool.or_eq_true, beq_iff_eq] at ha; omega
    · rw [if_pos hh] at foil; exact foilRanges_nil _ _ _ _ foil
  · rename_i ha
    simp only [require_nil, decide_eq_true_eq] at h
    refine ⟨by omega, fun hb => absurd hb ha, fun hh => ?_⟩
    simp [StationBlock.heated, h] at hh

/-- A channel block whose ranges pass is in range (R135, R138). -/
theorem channelRanges_nil (b : ChannelBlock) (c : Fin 8) (h : channelRanges b c = []) : b.inRange := by
  unfold channelRanges at h
  simp only at h
  split at h
  · rename_i ha
    simp only [List.append_eq_nil_iff, require_nil, within, Bool.and_eq_true, decide_eq_true_eq] at h
    obtain ⟨⟨⟨h1, h2⟩, h3⟩, hf⟩ := h
    refine ⟨?_, fun _ => ⟨h1.2, h2.2, h3.2, fun ho => ?_⟩⟩
    · simp only [ChannelBlock.assigned, beq_iff_eq] at ha; omega
    · rw [if_pos ho] at hf; exact foilRanges_nil _ _ _ _ hf
  · rename_i ha
    simp only [require_nil, decide_eq_true_eq] at h
    exact ⟨by omega, fun hb => absurd hb ha⟩

/-- The greatest of a list of numbers. -/
theorem foldl_max_spec (l : List Nat) (a : Nat) : a ≤ l.foldl max a ∧ (∀ x ∈ l, x ≤ l.foldl max a) ∧ (l.foldl max a = a ∨ l.foldl max a ∈ l) := by
  induction l generalizing a with
  | nil => simp
  | cons b l ih =>
    obtain ⟨h1, h2, h3⟩ := ih (max a b)
    rw [List.foldl_cons]
    refine ⟨by omega, ?_, ?_⟩
    · intro x hx
      rcases List.mem_cons.mp hx with rfl | hx
      · omega
      · exact h2 x hx
    · rcases h3 with h | h
      · rcases Nat.le_total a b with hab | hab
        · right; rw [h]; simp [hab]
        · left; rw [h]; simp [hab]
      · right; exact List.mem_cons_of_mem _ h

end Sys2Proof.Machine
end

