-- ==== Sys2Proof/Laws/Memory.lean ====
section
/-! SUPPORT. What the memory operations do to a byte read, and that each keeps the canonical form. -/

namespace Sys2Proof.Machine

/-- A memory with no cell at `x` reads 0 there (R186). -/
theorem Memory.read_of_absent (m : Memory) (x : Nat) (h : ∀ c ∈ m, c.1 ≠ x) : m.read x = 0 := by
  have hn : m.find? (fun c => c.1 == x) = none := by
    rw [List.find?_eq_none]
    intro c hc
    simpa using h c hc
  simp [Memory.read, hn]

/-- Reading a memory by its first cell. -/
theorem Memory.read_cons (c : Host.Cell) (m : Memory) (x : Nat) :
    Memory.read (c :: m) x = if c.1 = x then c.2 else m.read x := by
  unfold Memory.read
  by_cases h : c.1 = x
  · rw [List.find?_cons_of_pos (by simpa using h), if_pos h]
  · rw [List.find?_cons_of_neg (by simpa using h), if_neg h]

/-- Reading the first of two memories that holds the address. -/
theorem Memory.read_append (m n : Memory) (x : Nat) :
    Memory.read (m ++ n) x = if ∃ c ∈ m, c.1 = x then m.read x else n.read x := by
  unfold Memory.read
  rw [List.find?_append]
  by_cases h : ∃ c ∈ m, c.1 = x
  · obtain ⟨c, hc, rfl⟩ := h
    have hs : (m.find? fun d => d.1 == c.1).isSome := by
      rw [List.find?_isSome]
      exact ⟨c, hc, by simp⟩
    obtain ⟨d, hd⟩ := Option.isSome_iff_exists.mp hs
    rw [if_pos ⟨c, hc, rfl⟩, hd]
    rfl
  · have hn : m.find? (fun d => d.1 == x) = none := by
      rw [List.find?_eq_none]
      intro c hc hx
      exact h ⟨c, hc, by simpa using hx⟩
    rw [if_neg h, hn]
    rfl

/-- Reading a memory from which some addresses have been dropped. -/
theorem Memory.read_filter (m : Memory) (p : Nat → Bool) (x : Nat) :
    Memory.read (m.filter fun c => p c.1) x = if p x then m.read x else 0 := by
  unfold Memory.read
  rw [List.find?_filter]
  by_cases hp : p x
  · rw [if_pos hp]
    congr 1
    apply List.find?_congr
    intro c _
    by_cases hc : c.1 = x
    · simp [hc, hp]
    · simp [hc]
  · rw [if_neg hp]
    have hn : m.find? (fun c => decide (p c.1 = true ∧ (c.1 == x) = true)) = none := by
      rw [List.find?_eq_none]
      intro c _
      simp only [decide_eq_true_eq, not_and]
      rintro h1 h2
      exact hp (by simpa [← (by simpa using h2 : c.1 = x)] using h1)
    rw [hn]

/-- Reading the cells of bytes laid from `a` up. -/
theorem Memory.read_cellsOf (a x : Nat) (bs : List Byte) :
    (Memory.cellsOf a bs).read x = if a ≤ x then bs.getD (x - a) 0 else 0 := by
  induction bs generalizing a with
  | nil => simp [Memory.cellsOf, Memory.read]
  | cons b bs ih =>
    have hcons : (Memory.cellsOf a (b :: bs)).read x =
        if a = x then b else (Memory.cellsOf (a + 1) bs).read x := by
      rw [Memory.cellsOf]
      by_cases hb : b = 0
      · rw [if_pos hb]
        by_cases hx : a = x
        · rw [if_pos hx, ih, if_neg (by omega), hb]
        · rw [if_neg hx]
      · rw [if_neg hb, Memory.read_cons]
    rw [hcons, ih]
    by_cases hx : a = x
    · simp [hx]
    · rw [if_neg hx]
      by_cases h : a ≤ x
      · obtain ⟨k, rfl⟩ : ∃ k, x = a + 1 + k := ⟨x - (a + 1), by omega⟩
        have h1 : a + 1 + k - a = k + 1 := by omega
        rw [if_pos (by omega), if_pos h, h1]
        simp
      · rw [if_neg (by omega), if_neg h]

/-- The cells of bytes laid from `a` lie among them. -/
theorem Memory.mem_cellsOf {a : Nat} {bs : List Byte} {c : Host.Cell} (h : c ∈ Memory.cellsOf a bs) :
    a ≤ c.1 ∧ c.1 < a + bs.length ∧ c.2 ≠ 0 := by
  induction bs generalizing a with
  | nil => simp [Memory.cellsOf] at h
  | cons b bs ih =>
    unfold Memory.cellsOf at h
    have key : c ∈ Memory.cellsOf (a + 1) bs → a ≤ c.1 ∧ c.1 < a + (b :: bs).length ∧ c.2 ≠ 0 := by
      intro h'
      obtain ⟨h1, h2, h3⟩ := ih h'
      refine ⟨by omega, ?_, h3⟩
      rw [List.length_cons]
      omega
    split at h
    · exact key h
    · rename_i hb
      rcases List.mem_cons.mp h with rfl | h'
      · exact ⟨le_refl _, by simp, hb⟩
      · exact key h'

/-- Reading after a splice whose cells lie within the bytes replaced. -/
theorem Memory.read_splice (m cells : Memory) (a n x : Nat)
    (hc : ∀ c ∈ cells, a ≤ c.1 ∧ c.1 < a + n) :
    (m.splice a n cells).read x = if a ≤ x ∧ x < a + n then cells.read x else m.read x := by
  have low : Memory.read (m.filter fun c => decide (c.1 < a)) x = if x < a then m.read x else 0 := by
    simpa using Memory.read_filter m (fun y => decide (y < a)) x
  have high : Memory.read (m.filter fun c => decide (a + n ≤ c.1)) x =
      if a + n ≤ x then m.read x else 0 := by
    simpa using Memory.read_filter m (fun y => decide (a + n ≤ y)) x
  have lowAbsent : ¬ x < a → ¬ ∃ c ∈ m.filter (fun c => decide (c.1 < a)), c.1 = x := by
    rintro h ⟨c, hmem, rfl⟩
    simp only [List.mem_filter, decide_eq_true_eq] at hmem
    exact h hmem.2
  have cellsAbsent : ¬ (a ≤ x ∧ x < a + n) → ¬ ∃ c ∈ cells, c.1 = x := by
    rintro h ⟨c, hmem, rfl⟩
    exact h (hc c hmem)
  unfold Memory.splice
  rw [List.append_assoc, Memory.read_append, Memory.read_append, low, high]
  by_cases h1 : x < a
  · have h2 : ¬ (a ≤ x ∧ x < a + n) := by omega
    have h3 : ¬ a + n ≤ x := by omega
    rw [if_neg h2, if_pos h1, if_neg (cellsAbsent h2), if_neg h3]
    by_cases hex : ∃ c ∈ m.filter (fun c => decide (c.1 < a)), c.1 = x
    · rw [if_pos hex]
    · rw [if_neg hex]
      symm
      refine Memory.read_of_absent _ _ fun c hmem hcx => hex ⟨c, ?_, hcx⟩
      simp only [List.mem_filter, decide_eq_true_eq]
      exact ⟨hmem, by omega⟩
  · rw [if_neg (lowAbsent h1)]
    by_cases h2 : x < a + n
    · rw [if_pos (show a ≤ x ∧ x < a + n from ⟨by omega, h2⟩), if_neg (show ¬ a + n ≤ x by omega)]
      by_cases hex : ∃ c ∈ cells, c.1 = x
      · rw [if_pos hex]
      · rw [if_neg hex]
        symm
        exact Memory.read_of_absent _ _ fun c hmem hcx => hex ⟨c, hmem, hcx⟩
    · have h3 : ¬ (a ≤ x ∧ x < a + n) := by omega
      rw [if_neg (cellsAbsent h3), if_pos (by omega), if_neg h3]

/-- Reading after a write: the bytes written, and every other byte as before. -/
theorem Memory.read_write (m : Memory) (a x : Nat) (bs : List Byte) :
    (m.write a bs).read x = if a ≤ x ∧ x < a + bs.length then bs.getD (x - a) 0 else m.read x := by
  unfold Memory.write
  rw [Memory.read_splice _ _ _ _ _ fun c hc => ⟨(Memory.mem_cellsOf hc).1, (Memory.mem_cellsOf hc).2.1⟩,
    Memory.read_cellsOf]
  split
  · rename_i h
    rw [if_pos h.1]
  · rfl

/-- A write leaves every byte outside it as it was. -/
theorem Memory.read_write_of_outside (m : Memory) (a x : Nat) (bs : List Byte)
    (h : x < a ∨ a + bs.length ≤ x) : (m.write a bs).read x = m.read x := by
  rw [Memory.read_write, if_neg (by omega)]

/-- Reading a memory whose addresses have been moved up by `k`. -/
theorem Memory.read_shift (m : Memory) (k x : Nat) :
    Memory.read (m.map fun c => (c.1 + k, c.2)) x = if k ≤ x then m.read (x - k) else 0 := by
  by_cases h : k ≤ x
  · rw [if_pos h]
    induction m with
    | nil => rfl
    | cons c cs ih =>
      rw [List.map_cons, Memory.read_cons, Memory.read_cons, ih]
      simp only
      by_cases hc : c.1 = x - k
      · rw [if_pos hc, if_pos (by omega)]
      · rw [if_neg hc, if_neg (by omega)]
  · rw [if_neg h]
    refine Memory.read_of_absent _ _ fun c hc hx => h ?_
    obtain ⟨d, _, rfl⟩ := List.mem_map.mp hc
    simp only at hx
    omega

/-- Reading after bytes have been copied in. -/
theorem Memory.read_copyIn (m src : Memory) (a n x : Nat) :
    (m.copyIn a n src).read x = if a ≤ x ∧ x < a + n then src.read (x - a) else m.read x := by
  unfold Memory.copyIn
  rw [Memory.read_splice]
  · split
    · rename_i h
      rw [Memory.read_shift, if_pos h.1]
      have := Memory.read_filter src (fun y => decide (y < n)) (x - a)
      rw [this, if_pos (by simpa using (by omega : x - a < n))]
    · rfl
  · intro c hc
    obtain ⟨d, hd, rfl⟩ := List.mem_map.mp hc
    simp only [List.mem_filter, decide_eq_true_eq] at hd
    simp only
    omega

/-- Reading bytes copied out. -/
theorem Memory.read_copyOut (m : Memory) (a n x : Nat) :
    (m.copyOut a n).read x = if x < n then m.read (x + a) else 0 := by
  unfold Memory.copyOut
  induction m with
  | nil => simp [Memory.read]
  | cons c cs ih =>
    rw [List.filter_cons]
    rw [Memory.read_cons]
    split
    · rename_i h
      simp only [Bool.and_eq_true, decide_eq_true_eq] at h
      rw [List.map_cons, Memory.read_cons, ih]
      simp only
      by_cases hx : x < n
      · rw [if_pos hx, if_pos hx]
        by_cases hc : c.1 = x + a
        · rw [if_pos (by omega), if_pos hc]
        · rw [if_neg (by omega), if_neg hc]
      · rw [if_neg hx, if_neg hx, if_neg (by omega)]
    · rename_i h
      simp only [Bool.and_eq_true, decide_eq_true_eq, not_and] at h
      rw [ih]
      by_cases hx : x < n
      · rw [if_pos hx, if_pos hx]
        by_cases hc : c.1 = x + a
        · exact absurd (h (by omega)) (by omega)
        · rw [if_neg hc]
      · rw [if_neg hx, if_neg hx]

/-! ## The canonical form -/

/-- The canonical form as a proposition. -/
theorem Memory.wf_iff (m : Memory) :
    m.wf = true ↔ m.Pairwise (fun c d => c.1 < d.1) ∧ ∀ c ∈ m, c.2 ≠ 0 := by
  simp [Memory.wf]

/-- The cells of bytes are in canonical form. -/
theorem Memory.pairwise_cellsOf (a : Nat) (bs : List Byte) :
    (Memory.cellsOf a bs).Pairwise fun c d => c.1 < d.1 := by
  induction bs generalizing a with
  | nil => simp [Memory.cellsOf]
  | cons b bs ih =>
    unfold Memory.cellsOf
    split
    · exact ih _
    · rw [List.pairwise_cons]
      refine ⟨fun c hc => ?_, ih _⟩
      have := (Memory.mem_cellsOf hc).1
      simp only
      omega

/-- A splice of canonical cells that lie within the bytes replaced keeps the canonical form. -/
theorem Memory.wf_splice {m cells : Memory} {a n : Nat} (hm : m.wf = true) (hw : cells.wf = true)
    (hc : ∀ c ∈ cells, a ≤ c.1 ∧ c.1 < a + n) : (m.splice a n cells).wf = true := by
  rw [Memory.wf_iff] at *
  unfold Memory.splice
  constructor
  · rw [List.pairwise_append, List.pairwise_append]
    refine ⟨⟨hm.1.filter _, hw.1, ?_⟩, hm.1.filter _, ?_⟩
    · intro c h1 d h2
      simp only [List.mem_filter, decide_eq_true_eq] at h1
      have := hc d h2
      omega
    · intro c h1 d h2
      simp only [List.mem_filter, decide_eq_true_eq] at h2
      rcases List.mem_append.mp h1 with h | h
      · simp only [List.mem_filter, decide_eq_true_eq] at h
        omega
      · have := hc c h
        omega
  · intro c h
    simp only [List.mem_append, List.mem_filter] at h
    rcases h with (h | h) | h
    · exact hm.2 c h.1
    · exact hw.2 c h
    · exact hm.2 c h.1

/-- A write keeps the canonical form. -/
theorem Memory.wf_write {m : Memory} (hm : m.wf = true) (a : Nat) (bs : List Byte) :
    (m.write a bs).wf = true :=
  Memory.wf_splice hm
    ((Memory.wf_iff _).mpr
      ⟨Memory.pairwise_cellsOf a bs, fun _ hc => (Memory.mem_cellsOf hc).2.2⟩)
    fun _ hc => ⟨(Memory.mem_cellsOf hc).1, (Memory.mem_cellsOf hc).2.1⟩

/-- Copying bytes in from a canonical memory keeps the canonical form. -/
theorem Memory.wf_copyIn {m src : Memory} (hm : m.wf = true) (hs : src.wf = true) (a n : Nat) :
    (m.copyIn a n src).wf = true := by
  rw [Memory.wf_iff] at hs
  refine Memory.wf_splice hm ((Memory.wf_iff _).mpr ⟨?_, ?_⟩) ?_
  · rw [List.pairwise_map]
    exact (hs.1.filter _).imp fun h => by simp only; omega
  · intro c hc
    obtain ⟨d, hd, rfl⟩ := List.mem_map.mp hc
    exact hs.2 d (List.mem_filter.mp hd).1
  · intro c hc
    obtain ⟨d, hd, rfl⟩ := List.mem_map.mp hc
    simp only [List.mem_filter, decide_eq_true_eq] at hd
    simp only
    omega

/-- Bytes copied out of a canonical memory are in canonical form. -/
theorem Memory.wf_copyOut {m : Memory} (hm : m.wf = true) (a n : Nat) : (m.copyOut a n).wf = true := by
  rw [Memory.wf_iff] at *
  unfold Memory.copyOut
  refine ⟨?_, ?_⟩
  · rw [List.pairwise_map, List.pairwise_filter]
    refine hm.1.imp fun {c d} h h1 h2 => ?_
    simp only [Bool.and_eq_true, decide_eq_true_eq] at h1 h2
    simp only
    omega
  · intro c hc
    obtain ⟨d, hd, rfl⟩ := List.mem_map.mp hc
    exact hm.2 d (List.mem_filter.mp hd).1

/-- Two canonical memories that read alike are equal. -/
theorem Memory.ext_read {m n : Memory} (hm : m.wf = true) (hn : n.wf = true)
    (h : ∀ x, m.read x = n.read x) : m = n := by
  rw [Memory.wf_iff] at hm hn
  induction m generalizing n with
  | nil =>
    cases n with
    | nil => rfl
    | cons d ds =>
      have := h d.1
      simp [Memory.read] at this
      exact absurd this.symm (hn.2 d (by simp))
  | cons c cs ih =>
    cases n with
    | nil =>
      have := h c.1
      simp [Memory.read] at this
      exact absurd this (hm.2 c (by simp))
    | cons d ds =>
      have hc := (List.pairwise_cons.mp hm.1)
      have hd := (List.pairwise_cons.mp hn.1)
      have below : ∀ (e : Host.Cell) (es : Memory) (x : Nat), (∀ y ∈ es, e.1 < y.1) → x < e.1 →
          Memory.read (e :: es) x = 0 := by
        intro e es x he hx
        refine Memory.read_of_absent _ _ fun y hy => ?_
        rcases List.mem_cons.mp hy with rfl | hy
        · omega
        · have := he y hy
          omega
      have heq : c.1 = d.1 := by
        by_contra hne
        rcases Nat.lt_or_gt_of_ne hne with hlt | hgt
        · have h1 := h c.1
          rw [below d ds c.1 hd.1 hlt] at h1
          simp [Memory.read] at h1
          exact hm.2 c (by simp) h1
        · have h1 := h d.1
          rw [below c cs d.1 hc.1 hgt] at h1
          simp [Memory.read] at h1
          exact hn.2 d (by simp) h1.symm
      have hval : c.2 = d.2 := by
        have h1 := h c.1
        simp [Memory.read, heq] at h1
        exact h1
      have hcd : c = d := Prod.ext heq hval
      subst hcd
      have htail : cs = ds := by
        refine ih ⟨hc.2, fun e he => hm.2 e (by simp [he])⟩
          ⟨hd.2, fun e he => hn.2 e (by simp [he])⟩ fun x => ?_
        by_cases hx : x = c.1
        · subst hx
          rw [Memory.read_of_absent cs c.1 fun e he => by have := hc.1 e he; omega,
            Memory.read_of_absent ds c.1 fun e he => by have := hd.1 e he; omega]
        · have h1 := h x
          rwa [Memory.read_cons, Memory.read_cons, if_neg (Ne.symm hx), if_neg (Ne.symm hx)] at h1
      rw [htail]

/-! ## Bytes and integers -/

/-- The number of bytes of an integer laid out. -/
@[simp] theorem leBytes_length (n v : Nat) : (leBytes n v).length = n := by
  induction n generalizing v with
  | zero => rfl
  | succ n ih => simp [leBytes, ih]

/-- An integer laid out and read back, modulo what its bytes hold. -/
@[simp] theorem ofLeBytes_leBytes (n v : Nat) : ofLeBytes (leBytes n v) = v % 256 ^ n := by
  induction n generalizing v with
  | zero => simp [leBytes, ofLeBytes, Nat.mod_one]
  | succ n ih =>
    simp only [leBytes, ofLeBytes, ih, BitVec.toNat_ofNat]
    rw [show (256 : Nat) ^ (n + 1) = 256 * 256 ^ n from by rw [Nat.pow_succ, Nat.mul_comm], Nat.mod_mul]

/-- The value of bytes is below what they can hold. -/
theorem ofLeBytes_lt (bs : List Byte) : ofLeBytes bs < 256 ^ bs.length := by
  induction bs with
  | nil => simp [ofLeBytes]
  | cons b bs ih =>
    have := b.isLt
    simp only [ofLeBytes, List.length_cons, Nat.pow_succ]
    omega

/-- The number of bytes read. -/
@[simp] theorem Memory.bytes_length (m : Memory) (a n : Nat) : (m.bytes a n).length = n := by
  simp [Memory.bytes]

/-- An integer of `n` bytes is below what they can hold. -/
theorem Memory.nat_lt (m : Memory) (n a : Nat) : m.nat n a < 256 ^ n := by
  simpa [Memory.nat] using ofLeBytes_lt (m.bytes a n)

/-- Bytes that read alike give equal byte lists. -/
theorem Memory.bytes_congr {m k : Memory} {a n : Nat}
    (h : ∀ x, a ≤ x → x < a + n → m.read x = k.read x) : m.bytes a n = k.bytes a n := by
  unfold Memory.bytes
  apply List.map_congr_left
  intro i hi
  have := List.mem_range.mp hi
  exact h _ (by omega) (by omega)

/-- Bytes just written read back. -/
theorem Memory.bytes_write_self (m : Memory) (a : Nat) (bs : List Byte) :
    (m.write a bs).bytes a bs.length = bs := by
  apply List.ext_getElem
  · simp
  · intro i h1 h2
    have hi : i < bs.length := h2
    simp only [Memory.bytes, List.getElem_map, List.getElem_range, Memory.read_write]
    rw [if_pos (by omega)]
    simp [hi]

/-- An integer just written reads back, modulo what its bytes hold. -/
theorem Memory.nat_write_self (m : Memory) (a n v : Nat) :
    (m.write a (leBytes n v)).nat n a = v % 256 ^ n := by
  have h := Memory.bytes_write_self m a (leBytes n v)
  rw [leBytes_length] at h
  rw [Memory.nat, h, ofLeBytes_leBytes]

end Sys2Proof.Machine
end

