-- ==== Sys2Proof/Laws/Records.lean ====
section
/-! SUPPORT. The row record's bytes, the record writer's three stages as one write, and all that writing a
record and retiring rows do. -/

namespace Sys2Proof.Machine

/-- Bytes padded to a length they do not exceed. -/
theorem padTo_length (n : Nat) (bs : List Byte) (h : bs.length ≤ n) : (padTo n bs).length = n := by
  simp [padTo]; omega

/-- A station entry is 14 bytes (R189). -/
theorem StationEntry.encode_length (st a e) : (StationEntry.encode st a e).length = 14 := by
  simp [StationEntry.encode]

/-- A channel entry is 6 bytes (R190). -/
theorem ChannelEntry.encode_length (c e) : (ChannelEntry.encode c e).length = 6 := by
  simp [ChannelEntry.encode]

/-- Lists of one length, laid end to end. -/
theorem length_flatten_of_length (n : Nat) (l : List (List Byte)) (h : ∀ x ∈ l, x.length = n) : l.flatten.length = n * l.length := by
  induction l with
  | nil => simp
  | cons a l ih =>
    rw [List.flatten_cons, List.length_append, ih fun x hx => h x (List.mem_cons_of_mem _ hx), h a (by simp), List.length_cons]; ring

/-- The station entries of a record take at most 56 bytes (R205). -/
theorem State.stationEntryBytes_length_le (s : State) (r : RowCtx) : (s.stationEntryBytes r).flatten.length ≤ 56 := by
  rw [length_flatten_of_length 14]
  · have : (s.stationEntryBytes r).length ≤ 4 := by
      unfold State.stationEntryBytes
      refine le_trans (List.length_filterMap_le _ _) ?_
      rfl
    omega
  · intro x hx
    unfold State.stationEntryBytes at hx
    obtain ⟨o, ho, hx⟩ := List.mem_filterMap.mp hx
    obtain ⟨i, hi⟩ := (Four.mem_toList _ _).mp ho
    rw [Four.get_mapIdx] at hi
    simp only [id] at hx
    rw [hx] at hi
    cases he : r.stations.get i with
    | none => simp [he] at hi
    | some e => simp [he] at hi; rw [← hi]; exact StationEntry.encode_length _ _ _

/-- The channel entries of a record take at most 48 bytes (R205). -/
theorem State.channelEntryBytes_length_le (s : State) (r : RowCtx) : (s.channelEntryBytes r).flatten.length ≤ 48 := by
  rw [length_flatten_of_length 6]
  · have : (s.channelEntryBytes r).length ≤ 8 := by
      unfold State.channelEntryBytes
      refine le_trans (List.length_filterMap_le _ _) ?_
      rfl
    omega
  · intro x hx
    unfold State.channelEntryBytes at hx
    obtain ⟨o, ho, hx⟩ := List.mem_filterMap.mp hx
    obtain ⟨i, hi⟩ := (Eight.mem_toList _ _).mp ho
    rw [Eight.get_mapIdx] at hi
    simp only [id] at hx
    rw [hx] at hi
    cases he : r.channels.get i with
    | none => simp [he] at hi
    | some e => simp [he] at hi; rw [← hi]; exact ChannelEntry.encode_length _ _

/-- A record is 128 bytes. -/
theorem State.recordBytes_length (s : State) (r : RowCtx) (n : Nat) : (s.recordBytes r n).length = 128 := by
  unfold State.recordBytes
  simp only [List.length_append, leBytes_length, padTo_length _ _ (State.stationEntryBytes_length_le s r), padTo_length _ _ (State.channelEntryBytes_length_le s r)]
  rfl

/-- Units of eight bytes written in order from the second on. -/
theorem Memory.read_foldl_writes (m : Memory) (a : Nat) (bs : List Byte) (n : Nat) (hb : 8 * (n + 1) ≤ bs.length) (x : Nat) :
    ((List.range n).foldl (fun m i => m.write (a + 8 * (i + 1)) ((bs.drop (8 * (i + 1))).take 8)) m).read x =
      if a + 8 ≤ x ∧ x < a + 8 * (n + 1) then bs.getD (x - a) 0 else m.read x := by
  induction n with
  | zero => rw [if_neg (by omega)]; rfl
  | succ n ih =>
    rw [List.range_succ, List.foldl_append, List.foldl_cons, List.foldl_nil, Memory.read_write, ih (by omega)]
    have hl : ((bs.drop (8 * (n + 1))).take 8).length = 8 := by simp; omega
    rw [hl]
    by_cases h1 : a + 8 * (n + 1) ≤ x ∧ x < a + 8 * (n + 1) + 8
    · rw [if_pos h1, if_pos (by omega)]
      simp only [List.getD_eq_getElem?_getD, List.getElem?_take, List.getElem?_drop]
      rw [if_pos (by omega)]
      congr 2; omega
    · rw [if_neg h1]
      by_cases h2 : a + 8 ≤ x ∧ x < a + 8 * (n + 1)
      · rw [if_pos h2, if_pos (by omega)]
      · rw [if_neg h2, if_neg (by omega)]

/-- A record written in three stages reads as one write of its bytes (R187). -/
theorem State.read_writeRecord (s : State) (r : RowCtx) (x : Nat) :
    (s.writeRecord r).mem.read x = if recordSlot r.row ≤ x ∧ x < recordSlot r.row + 128 then (s.recordBytes r r.row.toNat).getD (x - recordSlot r.row) 0 else s.mem.read x := by
  unfold State.writeRecord
  simp only [State.withMem_mem]
  have hl := State.recordBytes_length s r r.row.toNat
  have hl0 := State.recordBytes_length s r 0
  generalize s.recordBytes r r.row.toNat = bs at *
  generalize s.recordBytes r 0 = cs at *
  generalize recordSlot r.row = a
  rw [Memory.read_write, Memory.read_foldl_writes _ _ _ _ (by omega), Memory.read_write]
  have h8 : (bs.take 8).length = 8 := by simp [hl]
  have h80 : (cs.take 8).length = 8 := by simp [hl0]
  rw [h8, h80]
  by_cases h1 : a ≤ x ∧ x < a + 8
  · rw [if_pos h1, if_pos (by omega)]
    simp only [List.getD_eq_getElem?_getD, List.getElem?_take]
    rw [if_pos (by omega)]
  · rw [if_neg h1]
    by_cases h2 : a + 8 ≤ x ∧ x < a + 8 * (15 + 1)
    · rw [if_pos h2, if_pos (by omega)]
    · rw [if_neg h2, if_neg h1, if_neg (by omega)]

/-- A record slot lies in the record strip. -/
theorem recordSlot_range (n : Word) : 0x4000 ≤ recordSlot n ∧ recordSlot n + 128 ≤ 0x8000 := by
  unfold recordSlot recordOffset
  have := Nat.mod_lt n.toNat (show 128 > 0 by omega)
  omega

/-- Reading memory after a word is written. -/
theorem State.read_writeWord (s : State) (a : Nat) (w : Word) (x : Nat) : (s.writeWord a w).mem.read x = if a ≤ x ∧ x < a + 4 then (leBytes 4 w.toNat).getD (x - a) 0 else s.mem.read x := by
  unfold State.writeWord State.writeMem
  rw [State.withMem_mem, Memory.read_write, leBytes_length]

/-- Bytes that read alike give equal integers. -/
theorem Memory.nat_congr {m k : Memory} {n a : Nat} (h : ∀ x, a ≤ x → x < a + n → m.read x = k.read x) : m.nat n a = k.nat n a := by
  unfold Memory.nat; rw [Memory.bytes_congr h]

/-- A word just written reads as written. -/
theorem State.word_writeWord (s : State) (a : Nat) (w : Word) : (s.writeWord a w).mem.word a = w := by
  unfold State.writeWord State.writeMem Memory.word
  rw [State.withMem_mem, Memory.nat_write_self]
  have := w.isLt
  rw [Nat.mod_eq_of_lt (by omega)]; simp

/-- A word whose four bytes read as its own, least significant first (R198). -/
theorem Memory.word_of_read {m : Memory} {a : Nat} {w : Word}
    (h : ∀ x, a ≤ x → x < a + 4 → m.read x = (leBytes 4 w.toNat).getD (x - a) 0) : m.word a = w := by
  have e : m.word a = (m.write a (leBytes 4 w.toNat)).word a := by
    unfold Memory.word
    rw [Memory.nat_congr fun x h1 h2 => ?_]
    rw [Memory.read_write, leBytes_length, if_pos ⟨h1, h2⟩]
    exact h x h1 h2
  rw [e]
  unfold Memory.word
  rw [Memory.nat_write_self]
  have := w.isLt
  rw [Nat.mod_eq_of_lt (by omega)]; simp

/-- All that writing a record does to memory, the writer's figures and attention (R187, R191 to R195). -/
theorem State.record_spec (r : RowCtx) (s : State) :
    (∀ x, (s.record r).mem.read x =
      if recordSlot r.row ≤ x ∧ x < recordSlot r.row + 128 then (s.recordBytes r r.row.toNat).getD (x - recordSlot r.row) 0
      else if 0x18 ≤ x ∧ x < 0x1C then (leBytes 4 r.row.toNat).getD (x - 0x18) 0
      else if 0x1C ≤ x ∧ x < 0x20 ∧ 0 < Machine.dist s.records.oldestIntact (r.row - 127) then (leBytes 4 (r.row - 127).toNat).getD (x - 0x1C) 0
      else s.mem.read x) ∧
    (s.record r).records = { writtenThrough := r.row, oldestIntact := if 0 < Machine.dist s.records.oldestIntact (r.row - 127) then r.row - 127 else s.records.oldestIntact } ∧
    (s.laps r.row = true → (s.record r).attn.has .recordLapped = true) ∧
    (s.tallyDue r.row = true → (s.record r).attn.has .tally = true) ∧ Attention.Raised s.attn (s.record r).attn := by
  have hs := recordSlot_range r.row
  obtain ⟨s1, h1⟩ : ∃ s1, s1 = (if s.laps r.row then s.raise .recordLapped else s) := ⟨_, rfl⟩
  obtain ⟨s2, h2⟩ : ∃ s2, s2 = State.advanceOldest r.row (State.setWrittenThrough r.row (s1.writeRecord r)) := ⟨_, rfl⟩
  have e : s.record r = (if s2.tallyDue r.row then s2.raise .tally else s2) := by rw [h2, h1]; rfl
  have a1 : s1.mem = s.mem := by rw [h1]; split <;> simp
  have a2 : s1.records = s.records := by rw [h1]; split <;> simp
  have a3 : s1.recordBytes r r.row.toNat = s.recordBytes r r.row.toNat := by rw [h1]; split <;> rfl
  have a4 : s.laps r.row = true → s1.attn.has .recordLapped = true := by
    intro h; rw [h1, if_pos h]; exact (Attention.raise_has _ _ _).mpr (.inl rfl)
  have a6 : Attention.Raised s.attn s1.attn := by
    rw [h1]; split
    · exact (Attention.Raised.refl _).raise _
    · exact .refl _
  have b1 : s2.attn = s1.attn := by rw [h2]; simp
  have b2 : s2.tallyDue r.row = s.tallyDue r.row := by
    have : s2.jobs = s.jobs := by rw [h2, h1]; split <;> simp
    unfold State.tallyDue State.job State.cur
    rw [this]
  have f1 : (s.record r).mem = s2.mem := by rw [e]; split <;> simp
  have f2 : (s.record r).records = s2.records := by rw [e]; split <;> simp
  obtain ⟨s3, h3⟩ : ∃ s3, s3 = State.setWrittenThrough r.row (s1.writeRecord r) := ⟨_, rfl⟩
  have c1 : s3.records = { s.records with writtenThrough := r.row } := by
    rw [h3]; simp [State.setWrittenThrough, State.writeWord, a2]
  have c2 : ∀ x, s3.mem.read x = if 0x18 ≤ x ∧ x < 0x1C then (leBytes 4 r.row.toNat).getD (x - 0x18) 0 else (s1.writeRecord r).mem.read x := by
    intro x; rw [h3]; unfold State.setWrittenThrough
    rw [State.read_writeWord]; rfl
  rw [← h3] at h2
  refine ⟨?_, ?_, ?_, ?_, ?_⟩
  · intro x
    rw [f1, h2]
    unfold State.advanceOldest
    rw [c1]
    have hw := State.read_writeRecord s1 r x
    rw [a1, a3] at hw
    by_cases hd : 0 < Machine.dist s.records.oldestIntact (r.row - 127)
    · rw [if_pos hd, State.read_writeWord]
      show (if _ then _ else s3.mem.read x) = _
      rw [c2, hw]
      split_ifs <;> first | rfl | omega
    · rw [if_neg hd, c2, hw]
      split_ifs <;> first | rfl | omega
  · rw [f2, h2]
    unfold State.advanceOldest
    rw [c1]
    split
    · simp only [State.writeWord, State.writeMem]; rfl
    · exact c1
  · intro h
    have := b1 ▸ a4 h
    rw [e]; split
    · exact (Attention.raise_has _ _ _).mpr (.inr this)
    · exact this
  · intro h
    rw [e, if_pos (b2 ▸ h)]
    exact (Attention.raise_has _ _ _).mpr (.inl rfl)
  · rw [e]; split
    · exact Attention.Raised.raise (b1 ▸ a6) _
    · exact b1 ▸ a6

/-- Writing a record changes memory in the record strip and two words of the live page alone. -/
theorem State.record_within (r : RowCtx) (s : State) : changedByRecords s.mem (s.record r).mem := by
  intro x hx
  have hs := recordSlot_range r.row
  unfold recordOffset exchangeBytes at hx
  rw [(State.record_spec r s).1, if_neg (by omega), if_neg (by omega), if_neg (by omega)]

/-- The words of the live page after a record is written: written through shows its row, and oldest intact stands with
its word as the record makes them (R175, R193). -/
theorem State.record_words (r : RowCtx) (s : State) : (s.record r).mem.word 0x18 = r.row ∧
    ((s.record r).records.oldestIntact, (s.record r).mem.word 0x1C) = oldestAfter (s.records.oldestIntact, s.mem.word 0x1C) r.row := by
  have hs := recordSlot_range r.row
  obtain ⟨hm, hr, -⟩ := State.record_spec r s
  refine ⟨Memory.word_of_read fun x h1 h2 => ?_, ?_⟩
  · rw [hm, if_neg (by omega), if_pos ⟨h1, h2⟩]
  · unfold oldestAfter
    rw [hr]
    change ((if 0 < Machine.dist s.records.oldestIntact (r.row - 127) then r.row - 127 else s.records.oldestIntact), _) =
      if 0 < Machine.dist s.records.oldestIntact (r.row - 127) then _ else _
    by_cases hd : 0 < Machine.dist s.records.oldestIntact (r.row - 127)
    · rw [if_pos hd, if_pos hd, Memory.word_of_read (w := r.row - 127) fun x h1 h2 => ?_]
      rw [hm, if_neg (by omega), if_neg (by omega), if_pos ⟨h1, h2, hd⟩]
    · rw [if_neg hd, if_neg hd]
      congr 1
      unfold Memory.word
      rw [Memory.nat_congr fun x h1 h2 => ?_]
      rw [hm, if_neg (by omega), if_neg (by omega), if_neg fun h => hd h.2.2]

/-- The words of the live page after rows are retired one after another (R175, R193, R196). -/
theorem State.retireRows_words (rs : List RowCtx) (s : State) :
    (∀ r, rs.getLast? = some r → (s.retireRows rs).mem.word 0x18 = r.row) ∧
    ((s.retireRows rs).records.oldestIntact, (s.retireRows rs).mem.word 0x1C) =
      (rs.map RowCtx.row).foldl oldestAfter (s.records.oldestIntact, s.mem.word 0x1C) := by
  induction rs generalizing s with
  | nil => exact ⟨fun r h => by simp at h, rfl⟩
  | cons q qs ih =>
    obtain ⟨h1, h2⟩ := ih (((s.record q).withTrack qs).withLastRetired (some q))
    obtain ⟨h3, h4⟩ := State.record_words q s
    refine ⟨?_, ?_⟩
    · intro r h
      cases qs with
      | nil => simp at h; subst h; exact h3
      | cons a b => exact h1 r (by simpa using h)
    · rw [List.map_cons, List.foldl_cons, ← h4]
      exact h2

/-- All that retiring rows one after another does to the track, the writer's figures, memory and attention. -/
theorem State.retireRows_spec (rs : List RowCtx) (s : State) :
    (rs = [] → s.retireRows rs = s) ∧ (rs ≠ [] → (s.retireRows rs).track = []) ∧
    (∀ r, rs.getLast? = some r → (s.retireRows rs).records.writtenThrough = r.row) ∧
    changedByRecords s.mem (s.retireRows rs).mem ∧ Attention.Raised s.attn (s.retireRows rs).attn := by
  induction rs generalizing s with
  | nil => exact ⟨fun _ => rfl, fun h => absurd rfl h, fun r h => by simp at h, fun _ _ => rfl, .refl _⟩
  | cons q qs ih =>
    obtain ⟨h1, h2, h3, h4, h5⟩ := ih (((s.record q).withTrack qs).withLastRetired (some q))
    have hr := State.record_spec q s
    refine ⟨by simp, fun _ => ?_, ?_, ?_, ?_⟩
    · cases qs with
      | nil => rfl
      | cons a b => exact h2 (by simp)
    · intro r h
      cases qs with
      | nil => 
        simp at h; subst h
        show (s.record q).records.writtenThrough = _
        rw [hr.2.1]
      | cons a b => exact h3 r (by simpa using h)
    · intro x hx
      exact (h4 x hx).trans (State.record_within q s x hx)
    · exact hr.2.2.2.2.trans h5

/-- A hold retires the rows it finds, with exchange memory and the record writer as it finds them. -/
theorem State.hold_retires (cause : HoldCause) (s : State) :
    ∃ x : State, s.hold cause = (x.retireRows x.track).withLastRetired none ∧
      x.track.map RowCtx.row = s.track.map RowCtx.row ∧ x.mem = s.mem ∧ x.records = s.records := by
  refine ⟨_, rfl, ?_, by simp [forStations, forChannels], by simp [forStations, forChannels]⟩
  have h : ∀ {x y : State}, x.rows = y.rows → x.track.map RowCtx.row = y.track.map RowCtx.row := by
    intro x y h
    have := congrArg (List.map Prod.fst) h
    simpa [State.rows, RowCtx.fixed, Function.comp_def] using this
  exact h (by simp [forStations, forChannels])

/-- The words of the live page after a hold (R175, R193, R196). -/
theorem State.hold_words (cause : HoldCause) (s : State) :
    (∀ r, s.track.getLast? = some r → (s.hold cause).mem.word 0x18 = r.row) ∧
    ((s.hold cause).records.oldestIntact, (s.hold cause).mem.word 0x1C) =
      (s.track.map RowCtx.row).foldl oldestAfter (s.records.oldestIntact, s.mem.word 0x1C) := by
  obtain ⟨x, hx, ht, hm, hr⟩ := State.hold_retires cause s
  obtain ⟨h1, h2⟩ := State.retireRows_words x.track x
  rw [hx, ← ht, ← hm, ← hr]
  refine ⟨fun r h => ?_, h2⟩
  have e : (x.track.map RowCtx.row).getLast? = some r.row := by rw [ht, List.getLast?_map, h]; rfl
  rw [List.getLast?_map] at e
  obtain ⟨q, hq, he⟩ := Option.map_eq_some_iff.mp e
  exact (h1 q hq).trans he
end Sys2Proof.Machine
end

