-- ==== Sys2Proof/Laws/Plates.lean ====
section
/-! SUPPORT. The plate store: a slot replaced, a record with its CRC, a program cycle's read-back, and the
geometry checks as what they say of a record. -/

namespace Sys2Proof.Machine

/-- A slot just replaced reads as replaced, and the others as before. -/
theorem State.slot_setSlot (s : State) (k n : Nat) (x : PlateSlot) : (s.setSlot k x).slot n = if n = k ∧ k < s.store.length then x else s.slot n := by
  simp only [State.slot, State.setSlot, State.withStore_store, List.getD_eq_getElem?_getD, List.getElem?_set]
  split_ifs <;> simp_all

/-- A canonical record that passes its CRC is what its save writes (R160, R163). -/
theorem withCrc_self {m : Memory} (hw : m.wf = true) (hc : passesCrc m = true) : withCrc m = m := by
  unfold passesCrc at hc
  rw [beq_iff_eq] at hc
  apply Memory.ext_read (Memory.wf_write hw _ _) hw
  intro x
  rw [hc, Memory.read_write]
  split
  · rename_i h
    simp only [leBytes_length] at h
    have key : ∀ b0 b1 : Byte, leBytes 2 (ofLeBytes [b0, b1]) = [b0, b1] := by
      intro b0 b1
      have := b0.isLt; have := b1.isLt
      simp only [leBytes, ofLeBytes, List.cons.injEq, and_true]
      constructor
      · apply BitVec.eq_of_toNat_eq; simp; omega
      · apply BitVec.eq_of_toNat_eq; simp; omega
    have : leBytes 2 (m.nat 2 0x1FE) = [m.read 0x1FE, m.read 0x1FF] := by
      rw [← key]; rfl
    rw [this]
    obtain rfl | rfl : x = 0x1FE ∨ x = 0x1FF := by omega
    · rfl
    · rfl
  · rfl

/-- A byte that was not misread holds what the working copy holds. -/
theorem read_programmed (w : Memory) (l : List (Nat × Byte)) (x : Nat) (h : ∀ c ∈ l, c.1 ≠ x) :
    (programmed w l).read x = w.read x := by
  unfold programmed
  have : ∀ c ∈ l.filter (fun c => decide (c.1 < plateBytes)), c.1 ≠ x := fun c hc => h c (List.mem_of_mem_filter hc)
  generalize l.filter (fun c => decide (c.1 < plateBytes)) = k at this
  induction k generalizing w with
  | nil => rfl
  | cons c k ih =>
    rw [List.foldl_cons, ih _ fun d hd => this d (List.mem_cons_of_mem _ hd)]
    apply Memory.read_write_of_outside
    have := this c (by simp)
    simp only [List.length_singleton]
    omega

/-- The label check (R159, R161). -/
theorem labelOk_iff (l : List Byte) : labelOk l = true ↔ ∀ i (h : i < l.length), (l[i] = 0 ∨ 0x20 ≤ l[i].toNat ∧ l[i].toNat ≤ 0x7E) ∧ (l[i] = 0 → ∀ k (hk : k < l.length), i ≤ k → l[k] = 0) := by
  induction l with
  | nil => simp [labelOk]
  | cons b bs ih =>
    unfold labelOk
    split
    · rename_i hb
      subst hb
      rw [List.all_eq_true]
      constructor
      · intro h i hi
        have hz : ∀ k (hk : k < (0 :: bs).length), ((0 : Byte) :: bs)[k] = 0 := by
          intro k hk
          cases k with
          | zero => rfl
          | succ k =>
            have := h (bs[k]'(by simpa using hk)) (List.getElem_mem _)
            simpa using this
        exact ⟨.inl (hz i hi), fun _ k hk _ => hz k hk⟩
      · intro h x hx
        obtain ⟨k, hk, rfl⟩ := List.getElem_of_mem hx
        have := (h 0 (by simp)).2 rfl (k + 1) (by simpa using hk) (by omega)
        simpa using this
    · rename_i hb
      rw [Bool.and_eq_true, Bool.and_eq_true, ih]
      simp only [decide_eq_true_eq]
      constructor
      · rintro ⟨⟨h1, h2⟩, h3⟩ i hi
        cases i with
        | zero => exact ⟨.inr ⟨h1, h2⟩, fun h => absurd h hb⟩
        | succ i =>
          obtain ⟨h4, h5⟩ := h3 i (by simpa using hi)
          refine ⟨h4, fun h k hk hle => ?_⟩
          cases k with
          | zero => omega
          | succ k => exact h5 h k (by simpa using hk) (by omega)
      · intro h
        refine ⟨(h 0 (by simp)).1.resolve_left hb, fun i hi => ?_⟩
        obtain ⟨h4, h5⟩ := h (i + 1) (by simpa using hi)
        refine ⟨h4, fun h k hk hle => h5 h (k + 1) (by simpa using hk) (by omega)⟩

/-! ## The first fault (R161, R202) -/

/-- Where the image before image `i` of lane `l` ends; 0 before the first. -/
def prevEnd (m : Memory) (l : Nat) : Nat → Nat
  | 0 => 0
  | i + 1 => imageStart m l i + imageLength m l i

/-- An image is in order where it starts at or beyond the end of the one before it (R159). -/
theorem imageOrdered_iff (m : Memory) (l i : Nat) : imageOrdered m l i ↔ prevEnd m l i ≤ imageStart m l i := by
  unfold imageOrdered
  cases i with
  | zero => simp [prevEnd]
  | succ i =>
    refine ⟨fun h => h i rfl, fun h k hk => ?_⟩
    obtain rfl : k = i := by omega
    exact h

/-- The images of a lane from image `j` on are free of faults where each is well formed (R161). -/
theorem imagesFault_range_none (m : Memory) (l n j : Nat) :
    imagesFault l (m.nat 4 0x018) j (prevEnd m l j) ((List.range' j n).map (readImage m (imageListOffset l))) = none ↔
      ∀ i, j ≤ i → i < j + n → imageWellFormed m l i := by
  induction n generalizing j with
  | zero => simp [imagesFault]; omega
  | succ n ih =>
    have hj : imageWellFormed m l j ↔ ¬ imageLength m l j = 0 ∧ ¬ m.nat 4 0x018 < imageStart m l j + imageLength m l j ∧
        ¬ imageStart m l j < prevEnd m l j := by
      unfold imageWellFormed; rw [imageOrdered_iff]; omega
    rw [List.range'_succ, List.map_cons]
    unfold imagesFault
    change (if imageLength m l j = 0 then _ else if _ < imageStart m l j + imageLength m l j then _
      else if imageStart m l j < _ then _ else imagesFault _ _ _ (prevEnd m l (j + 1)) _) = none ↔ _
    constructor
    · intro h
      split_ifs at h with h1 h2 h3
      intro i hi hi'
      rcases Nat.eq_or_lt_of_le hi with rfl | hlt
      · exact hj.mpr ⟨h1, h2, h3⟩
      · exact (ih (j + 1)).mp h i hlt (by omega)
    · intro h
      obtain ⟨h1, h2, h3⟩ := hj.mp (h j le_rfl (by omega))
      rw [if_neg h1, if_neg h2, if_neg h3]
      exact (ih (j + 1)).mpr fun i hi hi' => h i (by omega) (by omega)

/-- The check that the first ill-formed image of a lane fails (R161, 6 to 8). -/
def imageFails (m : Memory) (l i : Nat) (c : PlateCheck) : Prop :=
  c = .imageLength ∧ imageLength m l i = 0 ∨
  1 ≤ imageLength m l i ∧ (c = .imageBound ∧ m.nat 4 0x018 < imageStart m l i + imageLength m l i ∨
  imageStart m l i + imageLength m l i ≤ m.nat 4 0x018 ∧ c = .imageOrder ∧ ¬ imageOrdered m l i)

/-- An image that fails a check is not well formed. -/
theorem imageFails.not_wellFormed {m : Memory} {l i : Nat} {c : PlateCheck} (h : imageFails m l i c) :
    ¬ imageWellFormed m l i := by
  rintro ⟨h1, h2, h3⟩
  obtain ⟨-, h⟩ | ⟨-, ⟨-, h⟩ | ⟨-, -, h⟩⟩ := h
  · omega
  · omega
  · exact h h3

/-- The fault of the images of a lane from image `j` on is that of the first ill-formed one (R161). -/
theorem imagesFault_range_some (m : Memory) (l n j : Nat) (f : PlateFault) :
    imagesFault l (m.nat 4 0x018) j (prevEnd m l j) ((List.range' j n).map (readImage m (imageListOffset l))) = some f ↔
      ∃ i, j ≤ i ∧ i < j + n ∧ (∀ k, j ≤ k → k < i → imageWellFormed m l k) ∧ f.lane = some l ∧ f.image = some i ∧
        imageFails m l i f.check := by
  induction n generalizing j with
  | zero => simp [imagesFault]; omega
  | succ n ih =>
    rw [List.range'_succ, List.map_cons]
    unfold imagesFault
    change (if imageLength m l j = 0 then _ else if _ < imageStart m l j + imageLength m l j then _
      else if imageStart m l j < _ then _ else imagesFault _ _ _ (prevEnd m l (j + 1)) _) = some f ↔ _
    have hord := imageOrdered_iff m l j
    by_cases hw : imageWellFormed m l j
    · obtain ⟨h1, h2, h3⟩ := hw
      rw [if_neg (by omega), if_neg (by omega), if_neg (by rw [hord] at h3; omega), ih]
      constructor
      · rintro ⟨i, h4, h5, h6, h7⟩
        refine ⟨i, by omega, by omega, fun k hk hk' => ?_, h7⟩
        rcases Nat.eq_or_lt_of_le hk with rfl | hlt
        · exact ⟨h1, h2, h3⟩
        · exact h6 k hlt hk'
      · rintro ⟨i, h4, h5, h6, h7, h8, h9⟩
        rcases Nat.eq_or_lt_of_le h4 with rfl | hlt
        · exact absurd ⟨h1, h2, h3⟩ h9.not_wellFormed
        · exact ⟨i, hlt, by omega, fun k hk hk' => h6 k (by omega) hk', h7, h8, h9⟩
    · have key : ∀ c, imageFails m l j c →
          ((some { check := c, lane := some l, image := some j } : Option PlateFault) = some f ↔
            ∃ i, j ≤ i ∧ i < j + (n + 1) ∧ (∀ k, j ≤ k → k < i → imageWellFormed m l k) ∧ f.lane = some l ∧
              f.image = some i ∧ imageFails m l i f.check) := by
        intro c hc
        constructor
        · rintro h
          obtain rfl := Option.some.inj h
          exact ⟨j, le_rfl, by omega, fun k hk hk' => by omega, rfl, rfl, hc⟩
        · rintro ⟨i, h4, h5, h6, h7, h8, h9⟩
          rcases Nat.eq_or_lt_of_le h4 with rfl | hlt
          · obtain ⟨fc, fl, fi⟩ := f
            obtain rfl : fl = _ := h7
            obtain rfl : fi = _ := h8
            have : c = fc := by
              unfold imageFails at hc h9
              obtain ⟨h, h'⟩ | ⟨h0, ⟨h, h'⟩ | ⟨h', h, h''⟩⟩ := hc <;>
                obtain ⟨g, g'⟩ | ⟨g0, ⟨g, g'⟩ | ⟨g', g, g''⟩⟩ := h9 <;>
                first
                  | exact h.trans g.symm
                  | omega
            rw [this]
          · exact absurd (h6 j le_rfl hlt) hw
      split_ifs with h1 h2 h3
      · exact key _ (.inl ⟨rfl, h1⟩)
      · exact key _ (.inr ⟨by omega, .inl ⟨rfl, h2⟩⟩)
      · exact key _ (.inr ⟨by omega, .inr ⟨by omega, rfl, by rw [hord]; omega⟩⟩)
      · exact absurd ⟨by omega, by omega, by rw [hord]; omega⟩ hw

/-- The image list of a lane, as far as its count says, where the count is within its bound. -/
theorem readImages_eq (m : Memory) (l : Nat) (h : imageCount m l ≤ 12) :
    readImages m (imageListOffset l) = (List.range' 0 (imageCount m l)).map (readImage m (imageListOffset l)) := by
  unfold readImages
  rw [← List.range_eq_range']
  congr 2
  unfold imageCount at h
  unfold imageCount imageListOffset
  omega

/-- A lane is free of faults where its image list is well formed (R161, 5 to 8). -/
theorem laneFault_eq_none_iff (m : Memory) (l : Nat) : laneFault m (m.nat 4 0x018) l = none ↔ laneWellFormed m l := by
  unfold laneFault laneWellFormed
  change (if 12 < imageCount m l then _ else _) = none ↔ _
  split_ifs with h
  · simp; omega
  · rw [readImages_eq m l (by omega)]
    refine (imagesFault_range_none m l (imageCount m l) 0).trans ?_
    simp [Nat.not_lt.mp h]

/-- The fault of a lane: its count, or the first ill-formed image of its list (R161, 5 to 8). -/
theorem laneFault_eq_some_iff (m : Memory) (l : Nat) (f : PlateFault) :
    laneFault m (m.nat 4 0x018) l = some f ↔ f.lane = some l ∧
      (f.check = .imageCount ∧ f.image = none ∧ 12 < imageCount m l ∨
      imageCount m l ≤ 12 ∧ ∃ i, f.image = some i ∧ i < imageCount m l ∧ (∀ k, k < i → imageWellFormed m l k) ∧
        imageFails m l i f.check) := by
  obtain ⟨fc, fl, fi⟩ := f
  unfold laneFault
  change (if 12 < imageCount m l then _ else _) = _ ↔ _
  split_ifs with h
  · simp only [Option.some.injEq, PlateFault.mk.injEq]
    constructor
    · rintro ⟨rfl, rfl, rfl⟩; exact ⟨rfl, .inl ⟨rfl, rfl, h⟩⟩
    · rintro ⟨rfl, ⟨rfl, rfl, -⟩ | ⟨h', -⟩⟩
      · exact ⟨rfl, rfl, rfl⟩
      · omega
  · rw [readImages_eq m l (by omega)]
    refine (imagesFault_range_some m l (imageCount m l) 0 _).trans ?_
    constructor
    · rintro ⟨i, -, h2, h3, h4, h5, h6⟩
      exact ⟨h4, .inr ⟨by omega, i, h5, by omega, fun k hk => h3 k (by omega) hk, h6⟩⟩
    · rintro ⟨h4, ⟨-, -, h'⟩ | ⟨-, i, h5, h2, h3, h6⟩⟩
      · omega
      · exact ⟨i, by omega, by omega, fun k _ hk => h3 k hk, h4, h5, h6⟩

/-- The first number below `n` at which `g` answers. -/
theorem findSome?_range_eq_some_iff {α : Type} (g : Nat → Option α) (n : Nat) (b : α) :
    (List.range n).findSome? g = some b ↔ ∃ i, i < n ∧ (∀ k, k < i → g k = none) ∧ g i = some b := by
  induction n with
  | zero => simp
  | succ n ih =>
    rw [List.range_succ, List.findSome?_append]
    cases h : (List.range n).findSome? g with
    | some x =>
      rw [h] at ih
      simp only [Option.some_or]
      rw [ih]
      constructor
      · rintro ⟨i, h1, h2⟩; exact ⟨i, by omega, h2⟩
      · rintro ⟨i, h1, h2, h3⟩
        refine ⟨i, ?_, h2, h3⟩
        by_contra hn
        obtain rfl : i = n := by omega
        rw [List.findSome?_eq_none_iff.mpr fun k hk => h2 k (List.mem_range.mp hk)] at h
        cases h
    | none =>
      have hn : ∀ k, k < n → g k = none := fun k hk => List.findSome?_eq_none_iff.mp h k (List.mem_range.mpr hk)
      simp only [Option.none_or, List.findSome?_singleton]
      constructor
      · intro h1; exact ⟨n, by omega, hn, h1⟩
      · rintro ⟨i, h1, h2, h3⟩
        rcases Nat.lt_succ_iff_lt_or_eq.mp h1 with hlt | rfl
        · rw [hn i hlt] at h3; cases h3
        · exact h3

/-- The label check, on the record it is made on (R159, R161). -/
theorem labelOk_bytes (m : Memory) : labelOk (m.bytes 0 24) = true ↔ labelWellFormed m := by
  rw [labelOk_iff]
  unfold labelWellFormed
  simp only [Memory.bytes_length]
  refine forall₂_congr fun i _ => and_congr (by simp [Memory.bytes]) (imp_congr (by simp [Memory.bytes]) ?_)
  simp only [Memory.bytes, List.getElem_map, List.getElem_range, Nat.zero_add]
  exact ⟨fun h k hk hk' => h k hk' hk, fun h k hk hk' => h k hk' hk⟩

/-- The check that `plateFault` names is the first that a record fails, in the order of R161, with the lane and the
image it fails at and the code of R202. -/
theorem firstFault_iff (m : Memory) (code : Nat) (lane image : Option Nat) :
    firstFault m code lane image ↔
      ∃ f, plateFault m = some f ∧ f.check.code = code ∧ f.lane = lane ∧ f.image = image := by
  have whole : ∀ (c : PlateCheck), code = c.code ∧ lane = none ∧ image = none ↔
      ∃ f, (some { check := c, lane := none, image := none } : Option PlateFault) = some f ∧ f.check.code = code ∧
        f.lane = lane ∧ f.image = image := by
    intro c
    constructor
    · rintro ⟨rfl, rfl, rfl⟩; exact ⟨_, rfl, rfl, rfl, rfl⟩
    · rintro ⟨f, h, rfl, rfl, rfl⟩
      obtain rfl := Option.some.inj h
      exact ⟨rfl, rfl, rfl⟩
  have hl : (!labelOk (m.bytes 0 24)) = true ↔ ¬ labelWellFormed m := by rw [← labelOk_bytes]; simp
  have hb : ∀ (lo hi x : Nat), (!within lo hi x) = true ↔ ¬ (lo ≤ x ∧ x ≤ hi) := by
    intro lo hi x; simp only [within, Bool.not_eq_true', Bool.and_eq_false_iff, decide_eq_false_iff_not]; omega
  unfold firstFault plateFault
  simp only [readPlate, hb]
  by_cases h1 : labelWellFormed m
  · by_cases h2 : 4000 ≤ m.nat 4 0x018 ∧ m.nat 4 0x018 ≤ 80000
    · by_cases h3 : 1 ≤ m.nat 1 0x01C ∧ m.nat 1 0x01C ≤ 4
      · by_cases h4 : 1 ≤ m.nat 1 0x01D ∧ m.nat 1 0x01D ≤ 4
        · rw [if_neg (mt hl.mp (not_not.mpr h1)), if_neg (not_not.mpr h2), if_neg (not_not.mpr h3), if_neg (not_not.mpr h4)]
          simp only [h1, h2, h3, h4, not_true, and_false, false_or, true_and, findSome?_range_eq_some_iff,
            laneFault_eq_none_iff, laneFault_eq_some_iff]
          constructor
          · rintro ⟨l, rfl, h5, h6, ⟨rfl, rfl, h7⟩ | ⟨h7, i, rfl, h8, h9, h10⟩⟩
            · exact ⟨⟨.imageCount, some l, none⟩, ⟨l, h5, h6, rfl, .inl ⟨rfl, rfl, h7⟩⟩, rfl, rfl, rfl⟩
            · obtain ⟨rfl, h⟩ | ⟨h0, ⟨rfl, h⟩ | ⟨h, rfl, h'⟩⟩ := h10
              · exact ⟨⟨.imageLength, some l, some i⟩, ⟨l, h5, h6, rfl, .inr ⟨h7, i, rfl, h8, h9, .inl ⟨rfl, h⟩⟩⟩,
                  rfl, rfl, rfl⟩
              · exact ⟨⟨.imageBound, some l, some i⟩,
                  ⟨l, h5, h6, rfl, .inr ⟨h7, i, rfl, h8, h9, .inr ⟨h0, .inl ⟨rfl, h⟩⟩⟩⟩, rfl, rfl, rfl⟩
              · exact ⟨⟨.imageOrder, some l, some i⟩,
                  ⟨l, h5, h6, rfl, .inr ⟨h7, i, rfl, h8, h9, .inr ⟨h0, .inr ⟨h, rfl, h'⟩⟩⟩⟩, rfl, rfl, rfl⟩
          · rintro ⟨⟨fc, fl, fi⟩, ⟨l, h5, h6, h7, h8⟩, rfl, rfl, rfl⟩
            refine ⟨l, h7, h5, h6, ?_⟩
            obtain ⟨h9, h10, h11⟩ | ⟨h9, i, h10, h11, h12, h13⟩ := h8
            · exact .inl ⟨congrArg PlateCheck.code h9, h10, h11⟩
            · refine .inr ⟨h9, i, h10, h11, h12, ?_⟩
              obtain ⟨h, h'⟩ | ⟨h0, ⟨h, h'⟩ | ⟨h', h, h''⟩⟩ := h13
              · exact .inl ⟨congrArg PlateCheck.code h, h'⟩
              · exact .inr ⟨h0, .inl ⟨congrArg PlateCheck.code h, h'⟩⟩
              · exact .inr ⟨h0, .inr ⟨h', congrArg PlateCheck.code h, h''⟩⟩
        · rw [if_neg (mt hl.mp (not_not.mpr h1)), if_neg (not_not.mpr h2), if_neg (not_not.mpr h3), if_pos h4]
          simpa [h1, h2, h3, h4, PlateCheck.code] using whole .laneCount
      · rw [if_neg (mt hl.mp (not_not.mpr h1)), if_neg (not_not.mpr h2), if_pos h3]
        simpa [h1, h2, h3, PlateCheck.code] using whole .faces
    · rw [if_neg (mt hl.mp (not_not.mpr h1)), if_pos h2]
      simpa [h1, h2, PlateCheck.code] using whole .pitch
  · rw [if_pos (hl.mpr h1)]
    simpa [h1, PlateCheck.code] using whole .label

/-- The lane and the image of a first fault are below 4 and 12, so that a byte holds each (R161, R202). -/
theorem firstFault.bounds {m : Memory} {code : Nat} {lane image : Option Nat} (h : firstFault m code lane image) :
    (∀ l, lane = some l → l < 4) ∧ ∀ i, image = some i → i < 12 := by
  unfold firstFault at h
  obtain ⟨⟨-, rfl, rfl⟩, -⟩ | ⟨-, ⟨⟨-, rfl, rfl⟩, -⟩ | ⟨-, ⟨⟨-, rfl, rfl⟩, -⟩ | ⟨-, ⟨⟨-, rfl, rfl⟩, -⟩ |
    ⟨⟨-, h4⟩, l, rfl, h5, -, ⟨-, rfl, -⟩ | ⟨h7, i, rfl, h8, -⟩⟩⟩⟩⟩ := h
  · simp
  · simp
  · simp
  · simp
  · exact ⟨fun k hk => by cases hk; omega, by simp⟩
  · exact ⟨fun k hk => by cases hk; omega, fun k hk => by cases hk; omega⟩

end Sys2Proof.Machine
end

