-- ==== Sys2Proof/Laws/RecordFields.lean ====
section
/-! SUPPORT. The bytes of a record read back as the fields of section 11.8, and the attention causes that writing
records sets. -/

namespace Sys2Proof.Machine

/-! ## Signed fields -/

/-- A signed field read back: the value saturated to what the field holds (R198, R205). -/
theorem ofTwos_satField (n : Nat) (h : 2 ^ n = 2 * 2 ^ (n - 1)) (x : Int) :
    ofTwos n (satField n x) = clampInt (-(2 ^ (n - 1))) (2 ^ (n - 1) - 1) x ∧ satField n x < 2 ^ n := by
  have hp : 0 < 2 ^ (n - 1) := Nat.two_pow_pos _
  have hz : (2 : Int) ^ n = 2 * ((2 ^ (n - 1) : Nat) : Int) := by exact_mod_cast congrArg (Nat.cast (R := Int)) h
  have hq : (2 : Int) ^ (n - 1) = ((2 ^ (n - 1) : Nat) : Int) := by push_cast; rfl
  unfold satField twos ofTwos clampInt
  rw [hz, hq, h]
  generalize 2 ^ (n - 1) = k at *
  obtain ⟨y, hy⟩ : ∃ y, y = max (-(k : Int)) (min ((k : Int) - 1) x) := ⟨_, rfl⟩
  rw [← hy]
  have h1 : -(k : Int) ≤ y := by omega
  have h2 : y < k := by omega
  rcases lt_or_ge y 0 with hn | hn
  · have e : y % (2 * (k : Int)) = y + 2 * k := by
      rw [← Int.add_emod_right y]; exact Int.emod_eq_of_lt (by omega) (by omega)
    rw [e]
    refine ⟨?_, by omega⟩
    rw [if_pos (by omega)]; omega
  · rw [Int.emod_eq_of_lt hn (by omega)]
    refine ⟨?_, by omega⟩
    rw [if_neg (by omega)]; omega

/-- A value that fits its field reads back as it is. -/
theorem ofTwos_satField_fits (n : Nat) (h : 2 ^ n = 2 * 2 ^ (n - 1)) {x : Int} (hx : fits n x) :
    ofTwos n (satField n x) = x := by
  rw [(ofTwos_satField n h x).1]
  obtain ⟨h1, h2⟩ := hx
  unfold clampInt; omega

/-! ## Entries laid end to end -/

/-- The bytes of an entry present in a list, where the entries present lie end to end. -/
theorem getD_flatten_present (n : Nat) (l : List (Option (List Byte)))
    (h : ∀ x, some x ∈ l → x.length = n) (i : Nat) (x : List Byte) (hi : l[i]? = some (some x)) (y : Nat)
    (hy : y < n) :
    n * present (l.take i) + y < (l.filterMap id).flatten.length ∧
      (l.filterMap id).flatten.getD (n * present (l.take i) + y) 0 = x.getD y 0 := by
  induction l generalizing i with
  | nil => simp at hi
  | cons a l ih =>
    have hl : ∀ x, some x ∈ l → x.length = n := fun x hx => h x (List.mem_cons_of_mem _ hx)
    cases i with
    | zero =>
      simp only [List.getElem?_cons_zero, Option.some.injEq] at hi
      subst hi
      have hx := h x (by simp)
      simp only [List.take_zero, present, List.filter_nil, List.length_nil, Nat.mul_zero, Nat.zero_add,
        List.filterMap_cons, id, List.flatten_cons]
      refine ⟨by rw [List.length_append]; omega, ?_⟩
      rw [List.getD_append _ _ _ _ (by omega)]
    | succ i =>
      have hi' : l[i]? = some (some x) := by simpa using hi
      obtain ⟨h1, h2⟩ := ih hl i hi'
      cases a with
      | none =>
        have e : present ((none :: l).take (i + 1)) = present (l.take i) := by simp [present]
        rw [e, List.filterMap_cons_none (f := id) rfl]
        exact ⟨h1, h2⟩
      | some z =>
        have hz := h z (by simp)
        have e : present ((some z :: l).take (i + 1)) = present (l.take i) + 1 := by simp [present]
        rw [e, List.filterMap_cons_some (f := id) (b := z) rfl, List.flatten_cons]
        refine ⟨by rw [List.length_append, hz, Nat.mul_add]; omega, ?_⟩
        rw [List.getD_append_right _ _ _ _ (by rw [hz, Nat.mul_add]; omega), hz, ← h2]
        congr 1
        rw [Nat.mul_add]; omega

/-- How many bytes the entries present take. -/
theorem length_flatten_present (n : Nat) (l : List (Option (List Byte))) (h : ∀ x, some x ∈ l → x.length = n) :
    (l.filterMap id).flatten.length = n * present l := by
  rw [length_flatten_of_length n _ (fun x hx => h x (by
    obtain ⟨o, ho, hx⟩ := List.mem_filterMap.mp hx
    simp only [id] at hx; rwa [← hx]))]
  congr 1
  unfold present
  induction l with
  | nil => rfl
  | cons a l ih =>
    have ih := ih fun x hx => h x (List.mem_cons_of_mem _ hx)
    cases a with
    | none => rw [List.filterMap_cons_none (f := id) rfl, ih]; rfl
    | some z => rw [List.filterMap_cons_some (f := id) (b := z) rfl, List.length_cons, ih]; rfl

/-- What is present decides the count. -/
theorem present_congr {α β : Type} {l : List (Option α)} {k : List (Option β)}
    (h : l.map Option.isSome = k.map Option.isSome) : present l = present k := by
  have e : ∀ {γ : Type} (l : List (Option γ)), present l = (l.map Option.isSome).countP id := by
    intro γ l
    rw [List.countP_map, present, ← List.countP_eq_length_filter]; rfl
  rw [e, e, h]

/-- The entries of four and of eight passed through functions that keep which are present. -/
theorem present_mapIdx {α β : Type} (g : Fin 4 → α → β) (f : Four (Option α)) (n : Nat) :
    present (((f.mapIdx fun i o => o.map (g i)).toList).take n) = present (f.toList.take n) :=
  present_congr (by simp [List.map_take, Four.mapIdx, Four.toList])

/-- The same of eight. -/
theorem present_mapIdx_eight {α β : Type} (g : Fin 8 → α → β) (f : Eight (Option α)) (n : Nat) :
    present (((f.mapIdx fun i o => o.map (g i)).toList).take n) = present (f.toList.take n) :=
  present_congr (by simp [List.map_take, Eight.mapIdx, Eight.toList])

/-! ## A record's bytes and its fields -/

/-- An integer laid out within bytes that a memory holds reads back. -/
theorem Memory.nat_slice {m : Memory} {a off n v : Nat} {bs : List Byte}
    (hr : ∀ y, off ≤ y → y < off + n → m.read (a + y) = bs.getD y 0) (hb : (bs.drop off).take n = leBytes n v) :
    m.nat n (a + off) = v % 256 ^ n := by
  rw [← ofLeBytes_leBytes, ← hb]
  unfold Memory.nat
  congr 1
  have hn : ((bs.drop off).take n).length = n := by rw [hb, leBytes_length]
  apply List.ext_getElem
  · rw [Memory.bytes_length, hn]
  · intro i h1 h2
    rw [Memory.bytes_length] at h1
    have hl : off + i < bs.length := by
      rw [List.length_take, List.length_drop] at hn; omega
    simp only [Memory.bytes, List.getElem_map, List.getElem_range, List.getElem_take, List.getElem_drop]
    rw [Nat.add_assoc, hr _ (by omega) (by omega)]
    simp [hl]

/-- A flag's bit is 0 or 1, and 1 where it is set. -/
theorem flagBit_spec (b : Bool) : flagBit b ≤ 1 ∧ (flagBit b = 1 ↔ b = true) := by cases b <;> decide

/-- The bytes of a station entry show its fields (R189, R205). -/
theorem stationShown_of_bytes {m : Memory} {a : Nat} {st : Fin 4} {arrival : Pos} {e : StationEntry}
    (h : ∀ y, y < 14 → m.read (a + y) = (e.encode st.val arrival).getD y 0) : stationShown m a st arrival e := by
  obtain ⟨o, ho⟩ : ∃ o, o = (match e.outcome with | some o => o.code | none => 0) := ⟨_, rfl⟩
  have ho' : o < 13 := by
    rw [ho]; cases e.outcome with
    | none => decide
    | some x => cases x <;> decide
  obtain ⟨f, hf⟩ : ∃ f, f = satField 24 (Machine.dist arrival e.face) := ⟨_, rfl⟩
  obtain ⟨g1, hg1⟩ : ∃ g, g = satField 18 (e.error.getD 0) := ⟨_, rfl⟩
  obtain ⟨g2, hg2⟩ : ∃ g, g = satField 18 e.trim := ⟨_, rfl⟩
  obtain ⟨z1, hz1⟩ : ∃ g, g = satField 20 e.zoneStartOff := ⟨_, rfl⟩
  obtain ⟨z2, hz2⟩ : ∃ g, g = satField 20 e.zoneEndOff := ⟨_, rfl⟩
  have e0 : e.encode st.val arrival = leBytes 1 (st.val + 4 * flagBit e.committed + 8 * flagBit e.error.isSome + 16 * o) ++
      leBytes 3 f ++ leBytes 5 (g1 + 2 ^ 18 * g2) ++ leBytes 5 (z1 + 2 ^ 20 * z2) := by
    rw [ho, hf, hg1, hg2, hz1, hz2]; rfl
  rw [e0] at h
  have lf : f < 2 ^ 24 := hf ▸ (ofTwos_satField 24 (by decide) _).2
  have l1 : g1 < 2 ^ 18 := hg1 ▸ (ofTwos_satField 18 (by decide) _).2
  have l2 : g2 < 2 ^ 18 := hg2 ▸ (ofTwos_satField 18 (by decide) _).2
  have l3 : z1 < 2 ^ 20 := hz1 ▸ (ofTwos_satField 20 (by decide) _).2
  have l4 : z2 < 2 ^ 20 := hz2 ▸ (ofTwos_satField 20 (by decide) _).2
  have n0 := Memory.nat_slice (m := m) (a := a) (off := 0) (n := 1) (fun y _ hy => h y (by omega)) rfl
  have n1 := Memory.nat_slice (m := m) (a := a) (off := 1) (n := 3) (fun y _ hy => h y (by omega)) rfl
  have n4 := Memory.nat_slice (m := m) (a := a) (off := 4) (n := 5) (fun y _ hy => h y (by omega)) rfl
  have n9 := Memory.nat_slice (m := m) (a := a) (off := 9) (n := 5) (fun y _ hy => h y (by omega)) rfl
  rw [Nat.mod_eq_of_lt (by omega)] at n1 n4 n9
  have hst := st.isLt
  obtain ⟨hc, hc1⟩ := flagBit_spec e.committed
  obtain ⟨he, he1⟩ := flagBit_spec e.error.isSome
  rw [Nat.add_zero, Nat.mod_eq_of_lt (by omega)] at n0
  unfold stationShown
  simp only [n0, n4, n9, Memory.int, n1]
  refine ⟨by omega, ?_, ?_, ?_, ?_, ?_, ?_, ?_, by omega, ?_, ?_⟩
  · rw [← hc1]; omega
  · rw [← Option.isSome_iff_ne_none, ← he1]; omega
  · intro p hp h
    have : o = p.2 := by
      rw [ho, h]
      simp only [outcomeCodes, List.mem_cons, List.not_mem_nil, or_false] at hp
      rcases hp with rfl | rfl | rfl | rfl | rfl | rfl | rfl | rfl | rfl | rfl | rfl | rfl <;> rfl
    omega
  · rw [hf, (ofTwos_satField 24 (by decide) _).1]; rfl
  · intro h
    have : g1 = 0 := by rw [hg1, h]; decide
    omega
  · intro x h hx
    rw [show (g1 + 2 ^ 18 * g2) % 2 ^ 18 = g1 by omega, hg1, h]
    exact ofTwos_satField_fits 18 (by decide) hx
  · intro hx
    rw [show (g1 + 2 ^ 18 * g2) / 2 ^ 18 % 2 ^ 18 = g2 by omega, hg2]
    exact ofTwos_satField_fits 18 (by decide) hx
  · intro hx
    rw [show (z1 + 2 ^ 20 * z2) % 2 ^ 20 = z1 by omega, hz1]
    exact ofTwos_satField_fits 20 (by decide) hx
  · intro hx
    rw [show (z1 + 2 ^ 20 * z2) / 2 ^ 20 = z2 by omega, hz2]
    exact ofTwos_satField_fits 20 (by decide) hx

/-- The late bit that a record's bytes hold is the one the statements name (log entry 35). -/
theorem State.lateShown_iff (s : State) (r : RowCtx) (c : Fin 8) (e : ChannelEntry) :
    s.lateShown r c e = true ↔ s.showsLate r c e := by
  unfold State.lateShown State.showsLate
  rw [Bool.and_eq_true, Bool.or_eq_true, decide_eq_true_iff]
  refine and_congr_right fun _ => or_congr_right ?_
  constructor
  · intro h
    split at h
    · rename_i x hx
      obtain ⟨st, h1, h2⟩ := Option.bind_eq_some_iff.mp hx
      cases ho : x.outcome with
      | none => simp [StationEntry.struck, ho] at h
      | some o =>
        refine ⟨st, x, o, h1, h2, ho, ?_⟩
        cases o <;> simp [StationEntry.struck, RowOutcome.strike, ho] at h ⊢
    · cases h
  · rintro ⟨st, x, o, h1, h2, ho, hm⟩
    simp only [h1, Option.bind_some, h2]
    cases o <;> simp [StationEntry.struck, RowOutcome.strike, ho] at hm ⊢

/-- The bytes of a channel entry show its fields (R190, R205). -/
theorem State.channelShown_of_bytes {s : State} {m : Memory} {a : Nat} {r : RowCtx} {c : Fin 8} {e : ChannelEntry}
    (h : ∀ y, y < 6 → m.read (a + y) = (ChannelEntry.encode c.val { e with late := s.lateShown r c e }).getD y 0) :
    s.channelShown m a r c e := by
  have n0 := Memory.nat_slice (m := m) (a := a) (off := 0) (n := 1) (fun y _ hy => h y (by omega)) rfl
  have n1 := Memory.nat_slice (m := m) (a := a) (off := 1) (n := 3) (fun y _ hy => h y (by omega)) rfl
  have n4 := Memory.nat_slice (m := m) (a := a) (off := 4) (n := 1) (fun y _ hy => h y (by omega)) rfl
  have n5 := Memory.nat_slice (m := m) (a := a) (off := 5) (n := 1) (fun y _ hy => h y (by omega)) rfl
  rw [Nat.mod_eq_of_lt (by omega)] at n1 n4 n5
  have hc := c.isLt
  obtain ⟨hl, hl1⟩ := flagBit_spec (s.lateShown r c e)
  simp only at n0
  rw [Nat.add_zero, Nat.mod_eq_of_lt (by omega)] at n0
  unfold State.channelShown
  simp only [n0, n1, n4, n5, ← State.lateShown_iff, ← hl1]
  exact ⟨by omega, by omega, by omega, trivial, trivial, trivial⟩

/-- Where the station entries and the channel entries of a record lie. -/
theorem State.recordBytes_getD (s : State) (r : RowCtx) (n : Nat) :
    (∀ x, x < 56 → (s.recordBytes r n).getD (0x18 + x) 0 = (s.stationEntryBytes r).flatten.getD x 0) ∧
    ∀ x, x < 48 → (s.recordBytes r n).getD (0x50 + x) 0 = (s.channelEntryBytes r).flatten.getD x 0 := by
  have hp : ∀ (k : Nat) (bs : List Byte) (x : Nat), (padTo k bs).getD x 0 = bs.getD x 0 := by
    intro k bs x
    unfold padTo
    by_cases h : x < bs.length
    · exact List.getD_append _ _ _ _ h
    · rw [List.getD_append_right _ _ _ _ (by omega), List.getD_eq_default bs 0 (by omega)]
      simp only [List.getD_eq_getElem?_getD, List.getElem?_replicate]
      split <;> rfl
  have h1 := padTo_length _ _ (State.stationEntryBytes_length_le s r)
  have hs := hp 56 (s.stationEntryBytes r).flatten
  have hc := hp 48 (s.channelEntryBytes r).flatten
  unfold State.recordBytes
  simp only
  generalize padTo 56 (s.stationEntryBytes r).flatten = S at *
  generalize padTo 48 (s.channelEntryBytes r).flatten = C at *
  obtain ⟨L, hL⟩ : ∃ L, L = leBytes 4 n ++ leBytes 4 r.jobTag.toNat ++ leBytes 4 r.lead.toNat ++
    leBytes 1 r.status.code ++ leBytes 1 r.verdict.code ++ leBytes 1 r.source.code ++
    leBytes 1 ((s.stationEntryBytes r).length + 16 * (s.channelEntryBytes r).length) ++
    (r.lanes.toList.map fun l => leBytes 2 l.encode).flatten := ⟨_, rfl⟩
  have h24 : L.length = 24 := by rw [hL]; simp [Four.toList]
  rw [← hL]
  constructor
  · intro x hx
    rw [List.getD_append _ _ _ _ (by rw [List.length_append]; omega), List.getD_append_right _ _ _ _ (by omega), h24,
      show 0x18 + x - 24 = x by omega, hs]
  · intro x hx
    rw [List.getD_append_right _ _ _ _ (by rw [List.length_append]; omega), List.length_append, h24, h1,
      show 0x50 + x - (24 + 56) = x by omega, hc]

/-- The bytes of a record show it whole: what a retirement writes, field by field (R187 to R190, R205). -/
theorem State.recordShown_of_bytes {s : State} {m : Memory} {r : RowCtx}
    (h : ∀ x, x < 128 → m.read (0x4000 + 128 * (r.row.toNat % 128) + x) = (s.recordBytes r r.row.toNat).getD x 0) :
    s.recordShown m r := by
  have hsl : ∀ x, some x ∈ (r.stations.mapIdx fun st e => e.map fun e => e.encode st.val (s.arrival st r)).toList →
      x.length = 14 := by
    intro x hx
    obtain ⟨i, hi⟩ := (Four.mem_toList _ _).mp hx
    rw [Four.get_mapIdx] at hi
    obtain ⟨e, -, he⟩ := Option.map_eq_some_iff.mp hi
    rw [← he]; exact StationEntry.encode_length _ _ _
  have hcl : ∀ x, some x ∈ (r.channels.mapIdx fun c e =>
      e.map fun e => ChannelEntry.encode c.val { e with late := s.lateShown r c e }).toList → x.length = 6 := by
    intro x hx
    obtain ⟨i, hi⟩ := (Eight.mem_toList _ _).mp hx
    rw [Eight.get_mapIdx] at hi
    obtain ⟨e, -, he⟩ := Option.map_eq_some_iff.mp hi
    rw [← he]; exact ChannelEntry.encode_length _ _
  obtain ⟨hs, hc⟩ := State.recordBytes_getD s r r.row.toNat
  have hsn : (s.stationEntryBytes r).flatten.length = 14 * present r.stations.toList := by
    refine (length_flatten_present 14 _ hsl).trans ?_
    have := present_mapIdx (fun st (e : StationEntry) => e.encode st.val (s.arrival st r)) r.stations 4
    rw [List.take_of_length_le (by simp [Four.toList]), List.take_of_length_le (by simp [Four.toList])] at this
    rw [this]
  have hcn : (s.channelEntryBytes r).flatten.length = 6 * present r.channels.toList := by
    refine (length_flatten_present 6 _ hcl).trans ?_
    have := present_mapIdx_eight (fun c (e : ChannelEntry) => ChannelEntry.encode c.val { e with late := s.lateShown r c e }) r.channels 8
    rw [List.take_of_length_le (by simp [Eight.toList]), List.take_of_length_le (by simp [Eight.toList])] at this
    rw [this]
  have hsc : (s.stationEntryBytes r).length = present r.stations.toList := by
    have := length_flatten_of_length 14 (s.stationEntryBytes r) (fun x hx => hsl x (by
      obtain ⟨o, ho, hx⟩ := List.mem_filterMap.mp hx
      simp only [id] at hx; rwa [← hx]))
    omega
  have hcc : (s.channelEntryBytes r).length = present r.channels.toList := by
    have := length_flatten_of_length 6 (s.channelEntryBytes r) (fun x hx => hcl x (by
      obtain ⟨o, ho, hx⟩ := List.mem_filterMap.mp hx
      simp only [id] at hx; rwa [← hx]))
    omega
  have hs4 : (s.stationEntryBytes r).flatten.length ≤ 56 := State.stationEntryBytes_length_le s r
  have hc8 : (s.channelEntryBytes r).flatten.length ≤ 48 := State.channelEntryBytes_length_le s r
  obtain ⟨a, ha⟩ : ∃ a, a = 0x4000 + 128 * (r.row.toNat % 128) := ⟨_, rfl⟩
  rw [← ha] at h
  have field : ∀ off n v, off + n ≤ 128 → ((s.recordBytes r r.row.toNat).drop off).take n = leBytes n v →
      m.nat n (a + off) = v % 256 ^ n := fun off n v ho hb =>
    Memory.nat_slice (fun y _ hy => h y (by omega)) hb
  have word : ∀ w : Word, BitVec.ofNat 32 (w.toNat % 256 ^ 4) = w := by
    intro w
    rw [Nat.mod_eq_of_lt (by have := w.isLt; omega)]; simp
  unfold State.recordShown
  simp only [← ha]
  refine ⟨?_, ?_, ?_, ?_, ?_, ?_, ?_, ?_, ?_, ?_, ?_⟩
  · have := field 0 4 r.row.toNat (by omega) rfl
    unfold Memory.word; rw [Nat.add_zero] at this; rw [this, word]
  · unfold Memory.word; rw [field 4 4 r.jobTag.toNat (by omega) rfl, word]
  · unfold Memory.word; rw [field 8 4 r.lead.toNat (by omega) rfl, word]
  · intro p hp hr
    rw [field 0x0C 1 r.status.code (by omega) rfl, hr]
    simp only [List.mem_cons, List.not_mem_nil, or_false] at hp
    rcases hp with rfl | rfl | rfl | rfl <;> rfl
  · intro p hp hr
    rw [field 0x0D 1 r.verdict.code (by omega) rfl, hr]
    simp only [List.mem_cons, List.not_mem_nil, or_false] at hp
    rcases hp with rfl | rfl | rfl <;> rfl
  · intro p hp hr
    rw [field 0x0E 1 r.source.code (by omega) rfl, hr]
    simp only [List.mem_cons, List.not_mem_nil, or_false] at hp
    rcases hp with rfl | rfl | rfl | rfl | rfl <;> rfl
  · rw [field 0x0F 1 ((s.stationEntryBytes r).length + 16 * (s.channelEntryBytes r).length) (by omega) rfl, hsc, hcc]
    omega
  · intro l
    have hl : m.nat 2 (a + 0x10 + 2 * l) = (r.lanes.get l).encode % 256 ^ 2 := by
      rw [Nat.add_assoc]
      fin_cases l <;> exact field _ 2 _ (by decide) rfl
    unfold laneShown
    rw [hl]
    refine ⟨fun e => by rw [e]; rfl, fun e => by rw [e]; rfl, fun e => by rw [e]; rfl, ?_⟩
    intro d e
    rw [e]
    have hd := (ofTwos_satField 14 (by decide) d).2
    have hv : (LaneEntry.found d).encode = satField 14 d + 2 * 2 ^ 14 := rfl
    rw [hv, Nat.mod_eq_of_lt (by omega)]
    refine ⟨by omega, fun hx => ?_⟩
    rw [show (satField 14 d + 2 * 2 ^ 14) % 2 ^ 14 = satField 14 d by omega]
    exact ofTwos_satField_fits 14 (by decide) hx
  · intro st e he
    apply stationShown_of_bytes
    intro y hy
    have hi : (r.stations.mapIdx fun st e => e.map fun e => e.encode st.val (s.arrival st r)).toList[st.val]? =
        some (some (e.encode st.val (s.arrival st r))) := by
      revert he; fin_cases st <;> intro he <;>
        simp only [Four.get] at he <;> simp [Four.toList, Four.mapIdx, he]
    obtain ⟨h1, h2⟩ := getD_flatten_present 14 _ hsl st.val _ hi y hy
    rw [present_mapIdx (fun st (e : StationEntry) => e.encode st.val (s.arrival st r))] at h1 h2
    change _ < (s.stationEntryBytes r).flatten.length at h1
    change (s.stationEntryBytes r).flatten.getD _ 0 = _ at h2
    rw [Nat.add_assoc, Nat.add_assoc, h _ (by omega), hs _ (by omega), h2]
    rfl
  · intro c e he
    apply State.channelShown_of_bytes
    intro y hy
    have hi : (r.channels.mapIdx fun c e => e.map fun e =>
        ChannelEntry.encode c.val { e with late := s.lateShown r c e }).toList[c.val]? =
        some (some (ChannelEntry.encode c.val { e with late := s.lateShown r c e })) := by
      revert he; fin_cases c <;> intro he <;>
        simp only [Eight.get] at he <;> simp [Eight.toList, Eight.mapIdx, he]
    obtain ⟨h1, h2⟩ := getD_flatten_present 6 _ hcl c.val _ hi y hy
    rw [present_mapIdx_eight (fun c (e : ChannelEntry) => ChannelEntry.encode c.val { e with late := s.lateShown r c e })] at h1 h2
    change _ < (s.channelEntryBytes r).flatten.length at h1
    change (s.channelEntryBytes r).flatten.getD _ 0 = _ at h2
    rw [Nat.add_assoc, Nat.add_assoc, h _ (by omega), hc _ (by omega), h2]
  · rintro x (⟨h1, h2⟩ | ⟨h1, h2⟩)
    · have := hs (x - 0x18) (by omega)
      rw [show 0x18 + (x - 0x18) = x by omega] at this
      rw [h _ (by omega), this]
      exact List.getD_eq_default _ _ (by omega)
    · have := hc (x - 0x50) (by omega)
      rw [show 0x50 + (x - 0x50) = x by omega] at this
      rw [h _ (by omega), this]
      exact List.getD_eq_default _ _ (by omega)

/-! ## The causes that records set -/

/-- A record laps where the statements say so (R191, R192). -/
theorem State.laps_iff (s : State) (n : Word) : s.laps n = true ↔ s.lapped n := by
  unfold State.laps State.lapped Machine.dist takenThroughOffset; exact decide_eq_true_iff

/-- A tally falls due where the statements say so (R195). -/
theorem State.tallyDue_iff (s : State) (n : Word) : s.tallyDue n = true ↔ s.tallied n := by
  unfold State.tallyDue State.tallied
  cases s.job.tallyRows with
  | none => simp
  | some k => simp

/-- Writing a record sets RECORD_LAPPED at a lap and TALLY at a tally, and leaves the attention logic as it was where
neither falls (R192, R195). -/
theorem State.record_attn (r : RowCtx) (s : State) :
    causesSet s (s.record r) (fun k => k = .recordLapped ∧ s.lapped r.row ∨ k = .tally ∧ s.tallied r.row) ∧
      (¬ s.lapped r.row → ¬ s.tallied r.row → (s.record r).attn = s.attn) := by
  obtain ⟨s1, h1⟩ : ∃ s1, s1 = (if s.laps r.row then s.raise .recordLapped else s) := ⟨_, rfl⟩
  obtain ⟨s2, h2⟩ : ∃ s2, s2 = State.advanceOldest r.row (State.setWrittenThrough r.row (s1.writeRecord r)) := ⟨_, rfl⟩
  have e : s.record r = (if s2.tallyDue r.row then s2.raise .tally else s2) := by rw [h2, h1]; rfl
  have b1 : s2.attn = s1.attn := by rw [h2]; simp
  have b2 : s2.tallyDue r.row = s.tallyDue r.row := by
    have : s2.jobs = s.jobs := by rw [h2, h1]; split <;> simp
    unfold State.tallyDue State.job State.cur
    rw [this]
  have c1 : ∀ k, s1.attn.has k = true ↔ s.attn.has k = true ∨ k = .recordLapped ∧ s.lapped r.row := by
    intro k
    rw [h1, ← State.laps_iff]
    split
    · rename_i h
      rw [show (s.raise .recordLapped).attn = s.attn.raise .recordLapped from rfl, Attention.raise_has]
      simp only [h, and_true]; exact or_comm
    · rename_i h
      simp [h]
  constructor
  · intro k
    rw [e, b2, ← State.tallyDue_iff, ← or_assoc, ← c1 k, ← b1]
    split
    · rename_i h
      rw [show (s2.raise .tally).attn = s2.attn.raise .tally from rfl, Attention.raise_has]
      simp only [h, and_true]; exact or_comm
    · rename_i h
      simp [h]
  · intro hl ht
    rw [e, b2, if_neg (by rwa [State.tallyDue_iff]), b1, h1, if_neg (by rwa [State.laps_iff])]

end Sys2Proof.Machine
end

