-- ==== Sys2Proof/Laws/Window.lean ====
section
/-! SUPPORT. The write of the window in its three places, and the plate store as the power finds it. -/

namespace Sys2Proof.Machine

/-! ## Writes of the window -/

/-- An access that begins below the register page stores its bytes below it (R171, R172). -/
theorem State.windowAccess_below (s : State) (offset : Nat) (bytes : List Byte) (h : offset < exchangeBytes) :
    s.windowAccess offset bytes = s.writeMem offset (bytes.take (exchangeBytes - offset)) := by
  rw [State.windowAccess, if_neg (by omega)]

/-- An access that begins in the register page is taken there (R172). -/
theorem State.windowAccess_page (s : State) (offset : Nat) (bytes : List Byte) (h : exchangeBytes ≤ offset) :
    s.windowAccess offset bytes = s.registerPageWrite offset bytes := by
  rw [State.windowAccess, if_pos h]

/-- A single byte written into the register page is ignored (R172). -/
theorem State.windowAccess_byte (s : State) (offset : Nat) (b : Byte) (h : exchangeBytes ≤ offset) :
    s.windowAccess offset [b] = s := by
  rw [State.windowAccess_page s offset _ h, State.registerPageWrite, if_neg (by simp), if_neg (by simp)]

/-- Exchange memory after an access that begins in it: the bytes written up to 0x7FFF, the rest as before. -/
theorem State.read_windowAccess (s : State) (offset x : Nat) (bytes : List Byte) (h : offset < exchangeBytes)
    (hx : x < exchangeBytes) : (s.windowAccess offset bytes).mem.read x =
      if offset ≤ x ∧ x < offset + bytes.length then bytes.getD (x - offset) 0 else s.mem.read x := by
  rw [State.windowAccess_below s offset bytes h, State.writeMem, State.withMem_mem, Memory.read_write]
  simp only [List.length_take]
  by_cases hc : offset ≤ x ∧ x < offset + bytes.length
  · rw [if_pos hc, if_pos (by omega)]
    simp only [List.getD_eq_getElem?_getD, List.getElem?_take]
    rw [if_pos (by omega)]
  · rw [if_neg hc, if_neg (by omega)]

/-- A write of at most 8 bytes is one access (R171). -/
theorem State.windowWrite_short (s : State) (offset : Nat) (bytes : List Byte) (h : bytes.length ≤ 8) :
    s.windowWrite offset bytes = s.windowAccess offset bytes := if_pos h

/-- A link request of more than 8 bytes is its accesses, one after another (R171). -/
theorem State.windowWrite_request (s : State) (offset : Nat) (bytes : List Byte) (h : 8 < bytes.length) :
    s.windowWrite offset bytes =
      (linkAccesses bytes.length offset bytes).foldl (fun s a => s.windowAccess a.1 a.2) s :=
  if_neg (by omega)

/-- The next access of a request is an aligned one of 8 bytes, or a single byte (R171). -/
theorem requestAccess_cases (offset left : Nat) :
    (offset % 8 = 0 ∧ 8 ≤ left ∧ requestAccess offset left = 8) ∨ requestAccess offset left = 1 := by
  unfold requestAccess
  split_ifs with h
  · exact .inl ⟨h.1, h.2, rfl⟩
  · exact .inr rfl

/-- The accesses of a request carry its bytes, each of them once and in order (R171). -/
theorem linkAccesses_bytes (fuel offset : Nat) (bytes : List Byte) (h : bytes.length ≤ fuel) :
    ((linkAccesses fuel offset bytes).map Prod.snd).flatten = bytes := by
  induction fuel generalizing offset bytes with
  | zero => simp [linkAccesses, List.length_eq_zero_iff.mp (Nat.le_zero.mp h)]
  | succ fuel ih =>
    rw [linkAccesses]
    split_ifs with h0
    · simp [h0]
    · rw [List.map_cons, List.flatten_cons, ih _ _ ?_, List.take_append_drop]
      rw [List.length_drop]
      rcases requestAccess_cases offset bytes.length with ⟨-, -, h8⟩ | h1 <;> omega

/-- Each access of a request is an aligned one of 8 bytes, or of one byte at most (R171). -/
theorem linkAccesses_sizes (fuel offset : Nat) (bytes : List Byte) :
    ∀ a ∈ linkAccesses fuel offset bytes, a.1 % 8 = 0 ∧ a.2.length = 8 ∨ a.2.length ≤ 1 := by
  induction fuel generalizing offset bytes with
  | zero => simp [linkAccesses]
  | succ fuel ih =>
    rw [linkAccesses]
    split_ifs with h0
    · simp
    · rw [List.forall_mem_cons]
      refine ⟨?_, ih _ _⟩
      rcases requestAccess_cases offset bytes.length with ⟨ha, hl, h8⟩ | h1
      · exact .inl ⟨ha, by rw [h8, List.length_take]; omega⟩
      · exact .inr (by rw [h1, List.length_take]; omega)

/-- All a write of the line controller can answer: what it does in the window, or the stop beyond it. -/
theorem State.hostWrite_cases (s : State) (offset : Nat) (bytes : List Byte) :
    (offset + bytes.length ≤ windowBytes ∧ s.hostWrite offset bytes = .next (s.windowWrite offset bytes)) ∨
      (windowBytes < offset + bytes.length ∧ s.hostWrite offset bytes = .fault .noSuchAddress) := by
  unfold State.hostWrite
  split_ifs with h
  · exact .inl ⟨h, rfl⟩
  · exact .inr ⟨by omega, rfl⟩

/-! ## The plate store at power-on -/

@[simp] theorem PlateSlot.powerOn_record (x : PlateSlot) : x.powerOn.record = x.record := rfl
@[simp] theorem PlateSlot.powerOn_marker (x : PlateSlot) : x.powerOn.marker = x.marker := rfl
@[simp] theorem PlateSlot.powerOn_valid (x : PlateSlot) : x.powerOn.valid = (x.marker && passesCrc x.record) := rfl
@[simp] theorem PlateSlot.decay_marker (x : PlateSlot) (n : Nat) (l : List (Nat × Nat × Byte)) :
    (x.decay n l).marker = x.marker := rfl
@[simp] theorem PlateSlot.decay_nil (x : PlateSlot) (n : Nat) : x.decay n [] = x := rfl

/-- A byte of a record that has not decayed is kept without power (R167). -/
theorem PlateSlot.read_decay (x : PlateSlot) (n a : Nat) (l : List (Nat × Nat × Byte))
    (h : ∀ c ∈ l, c.1 = n → c.2.1 ≠ a) : (x.decay n l).record.read a = x.record.read a := by
  unfold PlateSlot.decay
  generalize x.record = m
  simp only
  have hk : ∀ c ∈ l.filter (fun c => c.1 == n && decide (c.2.1 < plateBytes)), c.2.1 ≠ a := by
    intro c hc
    simp only [List.mem_filter, Bool.and_eq_true, beq_iff_eq] at hc
    exact h c hc.1 hc.2.1
  generalize l.filter (fun c => c.1 == n && decide (c.2.1 < plateBytes)) = k at hk
  induction k generalizing m with
  | nil => rfl
  | cons c k ih =>
    rw [List.foldl_cons, ih _ fun d hd => hk d (List.mem_cons_of_mem _ hd)]
    apply Memory.read_write_of_outside
    have := hk c (by simp)
    simp only [List.length_singleton]
    omega

/-- A decayed record keeps the canonical form. -/
theorem PlateSlot.wf_decay (x : PlateSlot) (n : Nat) (l : List (Nat × Nat × Byte))
    (h : x.record.wf = true) : (x.decay n l).record.wf = true := by
  unfold PlateSlot.decay
  revert h
  generalize x.record = m
  simp only
  generalize l.filter (fun c => c.1 == n && decide (c.2.1 < plateBytes)) = k
  induction k generalizing m with
  | nil => exact id
  | cons c k ih => exact fun h => ih _ (Memory.wf_write h _ _)

/-- The slot a power-on reset finds at a number of the store (R167). -/
theorem State.powerOnStore_getElem? (s : State) (l : List (Nat × Nat × Byte)) (n : Nat) :
    (s.powerOnStore l)[n]? = s.store[n]?.map fun x => (x.decay n l).powerOn := by
  unfold State.powerOnStore
  rw [List.getElem?_mapIdx]

end Sys2Proof.Machine
end

