-- ==== Sys2Proof/Tests/Slice0.lean ====
section
/-! SUPPORT. Tests of the model against the worked examples and tables of the manual, one ill-formed step for
each check of `WellFormed`, and a witness for the hypotheses of every statement that has any. -/

namespace Sys2Proof.Tests

open Sys2Proof Sys2Proof.Machine

-- One theorem after another: each that runs at the same time takes a thread with a stack of its own.
set_option Elab.async false

/-! ## Small states -/

/-- Foil parameters within their ranges (R103). -/
def foil : FoilParams :=
  { lead := 100, trail := 100, dmin := 400, accel := 100, minRamp := 400, fs := 65536, threshold := 5000 }

/-- The FOIL station of the worked example of section 5.10, with the cylinder of section 4.1's. -/
def block : StationBlock :=
  { typeCode := 1, plateSlot := 0, throwOn := 20, throwOff := 15, distance := 60000, steps := 100000
    indexOffset := -1500, guard := 200, deadBand := 10, trimStep := 30, catchStep := 400
    catchBand := 100, slipTol := 40, foil := foil }

/-- A job with that station at station 0, lanes 0 and 1 active, lane 0 leading, served by channel 0, with
ENCODER among its stop causes (R133 to R135). -/
def job : Job :=
  { Job.zero with
    tag := 7, laneSet := 3, leadingLane := 0, missingLimit := 2, defaultVerdict := 2, window := 500
    headroom := 16, tallyCode := 2, scaleQ := 288000, reverseTol := 400, v8Max := 5000, crawl := 100
    resume := 200, dwellLimit := 100, stopSelection := 4
    stations := { Job.zero.stations with a0 := block }
    channels := { Job.zero.channels with a0 := { useCode := 1, station := 0, lane := 0, override := 0,
                                                 own := .zero } } }

/-- A plate record: pitch 24,000, three faces, two lanes, and on lane 0 the image whose zone with the
station's guard runs from 1,800 to 19,200 (R204). -/
def record : Memory :=
  [(24, 0xC0), (25, 0x5D), (28, 3), (29, 2), (32, 1), (40, 0xD0), (41, 0x07), (44, 0x68), (45, 0x42),
   (510, 0xDC), (511, 0xA7)]

/-- What a job uses of that record. -/
def plate : Plate :=
  { pitch := 24000, faces := 3, laneCount := 2
    images := { a0 := [{ start := 2000, len := 17000 }], a1 := [], a2 := [], a3 := [] } }

/-- A store whose slot 0 holds the record. -/
def store : List PlateSlot :=
  { record := record, marker := true, valid := true } :: List.replicate 15 .blank

/-- CURRENT with the job and its plate. -/
def current : Current := { job := job, plates := { a0 := some plate, a1 := none, a2 := none, a3 := none } }

/-- The part with the job CURRENT and the run in state `r`. -/
def inRun (r : RunState) : State :=
  { State.reset with
    jobs := { JobControl.reset with current := some current, run := r
                                    holdCause := if r = .held then .host else .none }
    wpu := { Wpu.reset with pair := some (false, false) }
    store := store }

/-- A station entry whose face is at `face`, with the zone of section 5.10. -/
def entry (face : Pos) (o : Option RowOutcome) : StationEntry :=
  { committed := o.isSome, outcome := o, error := none, trim := 0, face := face, zoneStartOff := 1800
    zoneEndOff := 19200, startDue := false, startTaken := false, endDue := false, endTaken := false,
    commitOwed := false }

/-- Row `n` of section 5.10's run, whose face is its arrival 60,000 ticks after its mark. -/
def row (n : Word) (v : Verdict) (o : Option RowOutcome) : RowCtx :=
  { row := n, jobTag := 7, lead := 2940000 + 24000 * (n - 700), status := .found
    lanes := { a0 := .leading, a1 := .absent, a2 := .absent, a3 := .absent }, verdict := v
    source := .strip
    stations := { a0 := some (entry (3000000 + 24000 * (n - 700)) o), a1 := none, a2 := none
                  a3 := none }
    channels := .all none }

/-- The part with the web at `p`. -/
def atWeb (p : Pos) (s : State) : State :=
  { s with wpu := { s.wpu with acc := p ++ 0#16, v8 := 4000, v8p := 4250 } }

/-- The same part with station 0 replaced. -/
def withStation (x : Station) (s : State) : State := s.setStation 0 x

/-- A TRACKING station whose index has been seen. -/
def tracking : Station := { Station.reset with state := .tracking, indexSeen := true }

/-- The state a step answers, where it answers one. -/
def after (c : Instr) (s : State) : Option State :=
  match exec c s with
  | .next t => some t
  | _ => none

/-- The result of a command given to a free engine. -/
def resultOf (c : Instr) (s : State) : Option CmdResult := (after c s).map fun t => t.engine.result

/-! ## Ill-formed steps are refused -/

theorem test_ill_formed_misread : (Instr.plateSaveComplete [(512, 1)]).wellFormed = false := by decide

theorem test_ill_formed_unknown : (Instr.unknownCommand 0x0A 0).wellFormed = false := by decide

theorem test_ill_formed_withdraw : (Instr.cmdWithdraw 0x80000001).wellFormed = false := by decide

theorem test_ill_formed_pend : (Instr.cmdPendWrite 0x00000001).wellFormed = false := by decide

theorem test_ill_formed_register_effective :
    (Instr.registerWriteIgnored 0x8008 [1, 0, 0, 0]).wellFormed = false := by decide

theorem test_ill_formed_register_range :
    (Instr.registerWriteIgnored 0xFFFF [1, 1]).wellFormed = false := by decide

theorem test_ill_formed_register_size :
    (Instr.registerWriteIgnored 0x9000 [1, 2, 3]).wellFormed = false := by decide

theorem test_ill_formed_request :
    (Instr.registerWriteIgnored 0x8008 (List.replicate 9 0)).wellFormed = false ∧
      (Instr.exchangeMemoryWrite 0x7FF8 (List.replicate 9 0)).wellFormed = false := by decide

theorem test_ill_formed_memory_size : (Instr.exchangeMemoryWrite 0 [1, 2, 3]).wellFormed = false := by
  decide

theorem test_ill_formed_memory_range :
    (Instr.exchangeMemoryWrite 0x8000 [1]).wellFormed = false := by decide

theorem test_ill_formed_decay_slot : (Instr.powerOnReset [(16, 0, 1)]).wellFormed = false := by decide

theorem test_ill_formed_decay_offset : (Instr.powerOnReset [(15, 512, 1)]).wellFormed = false := by
  decide

/-! ## The table's words -/

/-- The table gives no row any bits, so a word puts no step on the queue. -/
theorem test_no_word_spells_a_step : decodeTableWord 32 0x80000001 = none := by decide

/-! ## Chapter 1: position, speed and step generators -/

/-- Three forward counts at a scale of 288,000 bring the web to 4, 8 and 13 (the table of section 1.2). -/
theorem test_encoder_count_scale :
    ((after (.encoderCount true false) { State.reset with
        wpu := { Wpu.reset with pair := some (false, false), scaleQ := 288000 } }).bind fun s =>
      (after (.encoderCount true true) s).bind fun t =>
      (after (.encoderCount false true) t).map fun u => (s.web, t.web, u.web)) = some (4, 8, 13) := by
  decide +kernel

/-- The first sample counts nothing (R1). -/
theorem test_encoder_count_first :
    (after (.encoderCount true true) .reset).map (fun s => (s.web, s.wpu.pair)) =
      some (0, some (true, true)) := by decide +kernel

/-- An encoder fault in IDLE takes the pair and nothing else (R2). -/
theorem test_encoder_fault_idle :
    (after (.encoderFault true true) (inRun .idle)).map (fun s => (s.wpu.pair, s.jobs.run)) =
      some (some (true, true), .idle) := by decide +kernel

/-- An encoder fault in ARMED holds the run, and ENCODER is selected by the job (R2, R149, R154). -/
theorem test_encoder_fault_armed :
    (after (.encoderFault true true) (inRun .armed)).map
      (fun s => (s.jobs.run, s.jobs.holdCause, s.jobs.stopRequest)) =
      some (.held, .encoder, true) := by decide +kernel

/-- The planning speeds of the table of R11. -/
theorem test_planning_speed :
    ([(4000, 0), (4000, 16), (4000, 20), (5333, 32), (-150, 64)].map fun (v, h) =>
      ({ Wpu.reset with v8 := v, headroom := h }).updatePlanning.v8p) =
      [4000, 4250, 4313, 6000, 0] := by decide +kernel

/-- An expiry clamps v8 at 32,767, where the planning speed with headroom 64 is 40,959 (R10, R11). -/
theorem test_timebase_expiry_clamps :
    (after (.timebaseExpiry (.all false)) { State.reset with
        wpu := { Wpu.reset with acc := 0x000F00000000, headroom := 64 } }).map
      (fun s => (s.wpu.v8, s.wpu.v8p, s.generation)) = some (32767, 40959, 2) := by decide +kernel

/-- A trim of +30 at C = 91,022 owes 41 steps with a fraction of 43,684 (section 1.6's example). -/
theorem test_generator_trim :
    let g := ({ StepGen.reset with ratio := 91022 }).deliver 30
    (g.owed, g.acc.extractLsb' 0 16) = (41, 43684#16) := by decide +kernel

/-- A trim of −30 owes 42 reverse steps and leaves 21,852 (section 1.6's example). -/
theorem test_generator_trim_back :
    let g := ({ StepGen.reset with ratio := 91022 }).deliver (-30)
    (g.owed, g.acc.extractLsb' 0 16) = (-42, 21852#16) := by decide +kernel

/-- A step sooner than 250 ns is held; one at 250 ns goes out (R14). -/
theorem test_step_emit_rate :
    let s := { State.reset with
      cylGens := { State.reset.cylGens with a1 := { StepGen.reset with acc := 0x20000 } } }
    ((after (.stepEmit (.cylinder 1) 249) s).map fun t => (t.gen (.cylinder 1)).owed,
      (after (.stepEmit (.cylinder 1) 250) s).map fun t => (t.gen (.cylinder 1)).owed) =
      (some 2, some 1) := by decide +kernel

/-! ## Chapters 2 and 3: marks, rows and verdicts -/

/-- The six row opens of the worked example of section 3.6, with a default of SKIP. -/
theorem test_verdict_cases :
    ([(1300, 1300, 2), (1301, 1045, 1), (1302, 1558, 3), (1303, 1303, 7), (1304, 0, 0),
      (1305, 1305, 3)].map fun ((n : Word), (s : Word), c) => resolveVerdict s n c .skip) =
      [(.skip, .strip), (.skip, .stale), (.skip, .early), (.skip, .bad), (.skip, .absent),
       (.splice, .strip)] := by decide +kernel

/-- A STALE stamp is at most 1,024 rows old (R45). -/
theorem test_verdict_stale_limit :
    (resolveVerdict 256 1280 1 .stamp).2 = .stale ∧ (resolveVerdict 256 1536 1 .stamp).2 = .absent := by
  decide +kernel

/-- The successor of the last row number skips 0 (R27). -/
theorem test_row_successor : rowSucc 0xFFFFFFFF = 1 ∧ rowSucc 1 = 2 := by decide

/-- A leading-lane edge in ARMED opens row 1 FIRST and takes the run to RUNNING (R21, R28). -/
theorem test_mark_edge_first :
    (after (.markEdge 0 true 50) (inRun .armed)).map
      (fun s => (s.jobs.run, s.track.map RowCtx.row, s.mark.expected)) =
      some (.running, [1], some 24050) := by decide +kernel

/-- A SPLICE row opens behind a strike that cannot clear it: a zone that has not started is SACRIFICED and the
throw opens; one that has started puts the SPLICE row at risk (R85). -/
theorem test_mark_edge_splice :
    let s (started : Bool) : State :=
      { withStation { tracking with throw := .on } (atWeb 2964000 (inRun .running)) with
        mem := Memory.write [] 0x9E8 [0xBD, 2, 0, 0, 3]
        mark := { MarkUnit.reset with lastOpened := 700, nextRow := 701, expected := some 2964000 }
        track := [{ row 700 .stamp none with
          stations := ⟨some { entry 3000000 (some .struck) with startTaken := started }, none, none, none⟩ }] }
    (([false, true].map fun b => (after (.markEdge 0 true 2964000) (s b)).map fun t =>
        ((t.entry? 0 700).bind StationEntry.outcome, (t.station 0).throw, (t.station 0).risk))) =
      [some (some .sacrificed, .opening, []), some (some .struck, .on, [701])] := by decide +kernel

/-- A row opened by a mark edge with the end of lane 1's window exactly at the web leaves the window pending,
so that an edge at c + W is FOUND; a tick further on the lane is MISSING. A row that the web itself opens by
reaching the end of the leading window finds lane 1's window ending there too, and closes it (R30). -/
theorem test_lane_window_end :
    ((([24500, 24501].map fun p => (after (.markEdge 0 true 24000) (atWeb p (inRun .armed))).map fun t =>
        (t.mark.windows.a1, t.track.map fun r => r.lanes.a1))) =
      [some (some ⟨1, 24000⟩, [.absent]), some (none, [.missing])]) ∧
    (after (.encoderCount true false) { atWeb 24499 (inRun .running) with
        wpu := { (atWeb 24499 (inRun .running)).wpu with highWater := 24499 }
        mark := { MarkUnit.reset with expected := some 24000 } }).map
      (fun t => (t.mark.windows.a1, t.track.map fun r => (r.status, r.lanes.a1))) =
      some (none, [(.missing, .missing)]) := by decide +kernel

/-- An edge while the direction is REVERSE changes the accepted level alone (R19). -/
theorem test_mark_edge_reverse :
    let s := { inRun .armed with wpu := { Wpu.reset with direction := .reverse } }
    (after (.markEdge 0 true 50) s).map (fun t => (t.track.length, t.mark.levels.a0)) =
      some (0, true) := by decide +kernel

/-! ## Chapters 4 and 5: registration and stations -/

/-- C and the residual for 100,000 steps, three faces of 24,000 ticks (R55's example). -/
theorem test_cylinder_ratio :
    (cylinderRatio 100000 72000, ratioResidual 100000 72000) = (91022, 16000) := by decide +kernel

/-- Reduction into (−p/2, p/2]: half a pitch stays, one tick more turns negative (R63). -/
theorem test_reduction :
    (reduceBy 12000 24000, reduceBy 12001 24000, reduceBy (-12000) 24000) = (12000, -11999, 12000) := by
  decide +kernel

/-- The trims of R64: nothing in the dead band, the step at most, the catch step while catching. -/
theorem test_trims :
    ([(10, .tracking), (11, .tracking), (-200, .tracking), (500, .catching), (3, .catching),
      (500, .lifted)].map fun (e, x) => block.trimFor x e) = [0, 11, -30, 400, 3, 0] := by
  decide +kernel

/-- A drift of two ticks is two one-tick shifts: the first brings a zone end to the web, whose row the second
leaves, while the base moves by both (R56, R62, R63). -/
theorem test_drift_shifts :
    let x : Station := { tracking with base := 3000000, rho := -2 * 65536 * 100000 }
    let s := { withStation x (atWeb 3019199 (inRun .running)) with
      track := [row 700 .stamp (some .struck)] }
    let t := s.drift 0 1
    ((t.station 0).base, (t.station 0).drift, (t.entry? 0 700).map fun e => (e.face, e.endDue)) =
      (2999998, 0, some (2999999, true)) := by decide +kernel

/-- The commits of rows 701 and 702 of section 5.10: SKIPPED and SACRIFICED. -/
theorem test_commit :
    let s := withStation { tracking with throw := .on } (inRun .running)
    ((after (.commitEvent 0) { atWeb 3001800 s with
        track := [row 700 .stamp (some .struck), row 701 .skip none, row 702 .stamp none] }).map
      fun t => (t.entry? 0 701).bind StationEntry.outcome,
     (after (.commitEvent 0) { atWeb 3025800 s with
        track := [row 701 .skip (some .skipped), row 702 .stamp none, row 703 .splice none] }).map
      fun t => (t.entry? 0 702).bind StationEntry.outcome) =
      (some (some .skipped), some (some .sacrificed)) := by decide +kernel

/-- A commit point that one shift brings to the web stays reached when a later shift of the same step moves it
beyond the web again (R62, R81). -/
theorem test_commit_point_reached_by_a_shift :
    let s := { withStation tracking (atWeb 2977799 (inRun .running)) with
      track := [row 700 .stamp none, row 701 .stamp none] }
    (s.commitDue 0).isNone ∧ (((s.shift 0 (-1)).shift 0 5).commitDue 0).map RowCtx.row = some 700 := by
  decide +kernel

/-- The second and third index of the example of section 4.2: within tolerance, then CYLINDER_SLIP. -/
theorem test_index_edge_slip :
    let s := withStation { tracking with base := 1998480 } (inRun .running)
    ((after (.indexEdge 0 true 2071990) s).map fun t => (t.station 0).state,
      (after (.indexEdge 0 true 2145190) s).map fun t => (t.station 0).state) =
      (some .tracking, some .faulted) := by decide +kernel

/-- A travel completes once its timer has run out (R89). -/
theorem test_throw_travel :
    let s (n : Nat) := withStation { tracking with throw := .closing, timer := n } (inRun .running)
    ((after (.throwTravelComplete 0) (s 1)).map fun t => (t.station 0).throw,
      (after (.throwTravelComplete 0) (s 0)).map fun t => (t.station 0).throw) =
      (some .closing, some .on) := by decide +kernel

/-- The dwell limit lifts the cylinder (R93, R94). -/
theorem test_lift_event :
    let s (n : Nat) := withStation { tracking with throw := .on, dwell := n } (inRun .running)
    ((after (.liftEvent 0) (s 99)).map fun t => (t.station 0).state,
      (after (.liftEvent 0) (s 100)).map fun t => ((t.station 0).state)) =
      (some .tracking, some .lifted) := by decide +kernel

/-- A heat loss takes TRACKING to HEAT_WAIT and a heat ready takes it on to CATCHING (R78, R79). -/
theorem test_heat_events :
    let s := withStation { tracking with heaterLevel := true, heaterRun := 4 } (inRun .running)
    let t := withStation { tracking with state := .heatWait, heaterRun := 4 } (inRun .running)
    ((after (.heatLossEvent 0) s).map fun t => (t.station 0).state,
      (after (.heatReadyEvent 0) t).map fun t => (t.station 0).state) =
      (some .heatWait, some .catching) := by decide +kernel

/-- REARM_STATION: no such station, not FAULTED, and FAULTED with the heater not ready (R69). -/
theorem test_rearm_station :
    let s := withStation { tracking with state := .faulted, fault := true } (inRun .held)
    (resultOf (.rearmStation 4) s, resultOf (.rearmStation 1) s,
      (after (.rearmStation 0) s).map fun t => (t.station 0).state) =
      (some .badArg, some .badState, some .heatWait) := by decide +kernel

/-! ## Chapter 6: foil channels -/

/-- The ramp lengths of the table of R112. -/
theorem test_ramp_lengths :
    ([(0, 100), (1600, 100), (3200, 100), (4000, 100), (5333, 100), (5333, 10), (40959, 1)].map
      fun (v, a) => rampLength v { foil with accel := a }) =
      [400, 400, 1600, 2500, 4444, 44440, 262142] := by decide +kernel

/-- The increments of a ramp of six ticks (the example of section 6.5). -/
theorem test_ramp_of_six :
    ((List.range 6).map fun k => rampUpIncrement 6 (k + 1)) =
      [5461, 16384, 27307, 38229, 49152, 60075] := by decide +kernel

/-- REFILL_FOIL takes the length of the host page, and a length of 0 is BAD_ARG (R127). -/
theorem test_refill_foil :
    let s := { inRun .idle with mem := Memory.write [] 0x108 [0, 1] }
    ((after (.refillFoil 3) s).map fun t => (t.channel 3).remaining,
      resultOf (.refillFoil 3) (inRun .idle), resultOf (.refillFoil 8) s) =
      (some 256, some .badArg, some .badArg) := by decide +kernel

/-! ## Chapter 7: jobs and runs -/

/-- The refused job of section 7.3.1: crawl speed, W, and a channel on an EMBOSS station; and the job above,
which passes. -/
theorem test_job_checks :
    let b0 := { block with plateSlot := 0, distance := 49000 }
    let bad := { job with
      window := 3500, crawl := 900, resume := 800
      stations := { job.stations with a0 := b0, a1 := { b0 with typeCode := 2 } }
      channels := { job.channels with a2 := { useCode := 1, station := 1, lane := 0, override := 0,
                                              own := .zero } } }
    let s := { State.reset with store := store }
    (runChecks (s.candidate bad) jobChecks).map (fun f => (f.scope, f.number, f.field, f.error)) =
        [(.job, 0, 0x0024, .crawlResume), (.job, 0, 0x0018, .badRange),
         (.channel, 2, 0x01A1, .channelUnheated)] ∧
      runChecks (s.candidate job) jobChecks = [] := by decide +kernel

/-- With no station active check 6 fails the station types, so check 11, which reads them for the channel, is
not made (R140). -/
theorem test_job_without_stations :
    let s := { State.reset with store := store }
    (runChecks (s.candidate { job with stations := Job.zero.stations }) jobChecks).map
      (fun f => (f.scope, f.error)) = [(.job, .noStation)] := by decide +kernel

/-- LOAD_JOB of a staging area of zeros goes on executing and ends JOB_INVALID (R137). -/
theorem test_load_job :
    (after (.loadJob 0) .reset).map (fun s => (s.engine.phase, resultOf .loadJobComplete s)) =
      some (.executing, some .jobInvalid) := by decide +kernel

/-- START_RUN: no job; a first row of 0; and the job of CURRENT run again with its first row (R143). -/
theorem test_start_run :
    let s := inRun .idle
    (resultOf (.startRun 0) .reset, resultOf (.startRun 0) s,
      (after (.startRun 0) { s with mem := Memory.write [] 0x104 [5] }).map fun t =>
        (t.jobs.run, t.mark.nextRow, (t.cylGens.get 0).ratio, (t.station 0).state)) =
      (some .noJob, some .badArg, some (.armed, 5, 91022, .heatWait)) := by decide +kernel

/-- END_RUN in IDLE is refused; from ARMED the run ends (R146). -/
theorem test_end_run :
    resultOf (.endRun 0) (inRun .idle) = some .badState ∧
      (after (.endRun 0) (inRun .armed)).map (fun t => t.jobs.run) = some .idle := by decide +kernel

/-- HOLD_RUN in ARMED holds with the cause HOST; in HELD it is refused (R148). -/
theorem test_hold_run :
    (after (.holdRun 0) (inRun .armed)).map (fun t => (t.jobs.run, t.jobs.holdCause)) =
      some (.held, .host) ∧ resultOf (.holdRun 0) (inRun .held) = some .badState := by decide +kernel

/-- RESUME_RUN in HELD arms the run; elsewhere it is refused (R151). -/
theorem test_resume_run :
    (after (.resumeRun 0) (inRun .held)).map (fun t => t.jobs.run) = some .armed ∧
      resultOf (.resumeRun 0) (inRun .armed) = some .badState := by decide +kernel

/-- ACK_STOP keeps FOIL_OUT while the out flag stands on an assigned channel (R155's example). -/
theorem test_ack_stop :
    let j := { (inRun .running).jobs with stopRequest := true, stopCauses := 0x204 }
    let s := { inRun .running with jobs := j }
    let t := s.setChannel 0 { Channel.reset with out := true }
    ((after (.ackStop 0) t).map fun u => (u.engine.result, u.jobs.stopCauses, u.jobs.stopRequest),
      (after (.ackStop 0) s).map fun u => (u.engine.result, u.jobs.stopCauses, u.jobs.stopRequest)) =
      (some (.stopPersists, 0x200, true), some (.ok, 0, false)) := by decide +kernel

/-! ## Chapter 8: the plate store -/

/-- The CRC's check value over "123456789" for the polynomial, start value and bit order of R160. -/
theorem test_crc : crc16 [0x31, 0x32, 0x33, 0x34, 0x35, 0x36, 0x37, 0x38, 0x39] = 0x29B1 := by
  decide +kernel

set_option maxRecDepth 20000 in
/-- The record above is well formed, passes its CRC, and reads as the plate above (R159 to R161, R204). -/
theorem test_record :
    plateFault record = none ∧ passesCrc record = true ∧ readPlate record = plate := by
  decide +kernel

/-- PLATE_SAVE of a staging area of zeros fails at the pitch and writes the plate fault (R161, R202). -/
theorem test_plate_save_bad :
    (after (.plateSave 3) .reset).map (fun s => (s.engine.result, s.mem.bytes 0x300 4)) =
      some (.badPlate, [2, 0xFF, 0xFF, 0]) := by decide +kernel

set_option maxRecDepth 20000 in
/-- A good record is programmed into a BLANK slot, and reads VALID after its verify; a byte misread makes
it a STORE_FAULT (R164). -/
theorem test_plate_save_complete :
    (after (.plateSave 3) { State.reset with mem := Memory.copyIn [] 0x1400 512 record }).map
      (fun s => (s.engine.phase,
        (after (.plateSaveComplete []) s).map fun t => (t.engine.result, (t.slot 3).valid),
        (after (.plateSaveComplete [(5, 1)]) s).map fun t => (t.engine.result, (t.slot 3).valid))) =
      some (.executing, some (.ok, true), some (.storeFault, false)) := by decide +kernel

/-- PLATE_READ of a BLANK slot zeroes the staging area; of a VALID one it brings the record (R165). -/
theorem test_plate_read :
    let s := { inRun .idle with mem := [(0x1400, 9)] }
    ((after (.plateRead 1) s).map fun t => (t.engine.result, t.mem),
      (after (.plateRead 0) s).map fun t => (t.engine.result, t.mem.nat 4 0x1418)) =
      (some (.plateBlank, []), some (.ok, 24000)) := by decide +kernel

/-! ## Chapter 9: registers and attention -/

/-- A command written while one executes waits and is accepted at its completion (R178, R179). -/
theorem test_command_waits :
    ((after (.loadJob 0) .reset).bind fun s => (after (.resumeRun 0) s).bind fun t =>
      (after .loadJobComplete t).map fun u => (t.engine.pend, u.engine.pend, u.engine.result,
        u.engine.seq)) = some (true, false, .badState, 2) := by decide +kernel

/-- A code that names no command is BAD_CODE, and CMD_STATUS reads it so (R181, R199). -/
theorem test_unknown_command :
    (after (.unknownCommand 0x0B 0) .reset).bind (fun s => s.register 0x8004) = some 0x0203010B := by
  decide +kernel

/-- A withdrawn command leaves CMD as written with PEND clear (R178). -/
theorem test_withdraw :
    (after (.cmdWithdraw 0x00000302) .reset).bind (fun s => s.register 0x8000) = some 0x302 := by
  decide +kernel

/-- A write with PEND set is accepted at once: REFILL_FOIL with a length of 0 is BAD_ARG (R127, R178). -/
theorem test_pend_write :
    resultOf (.cmdPendWrite 0x80000007) .reset = some .badArg := by decide +kernel

/-- Causes written as 1 are cleared (R183); enables are replaced whole, and the interrupt follows (R184,
R185). -/
theorem test_attention :
    let s := { State.reset with attn := { Attention.reset with causes := 3 } }
    ((after (.attnWrite 1) s).bind fun t => t.register 0x8008,
      (after (.attnEnableWrite 2) s).map fun t => t.intxLine) = (some 2, some true) := by decide +kernel

/-- MSI enabled while the condition stands sends one message (R185). -/
theorem test_config_space :
    let s := { State.reset with attn := { Attention.reset with causes := 1, enables := 1 } }
    (after (.configSpaceWrite
        { msiEnable := true, busMaster := true, intDisable := false, msiAddress := 0x1000
          msiData := 5 }) s).map (fun t => (t.attn.sent, t.intxLine)) =
      some (1, false) := by decide +kernel

/-- Bytes written to exchange memory read back, the last one at 0x7FFF (R171). -/
theorem test_exchange_memory :
    (after (.exchangeMemoryWrite 0x7FFE [1, 2]) .reset).map (fun s => (s.readByte 0x7FFE,
      s.readByte 0x7FFF)) = some (1, 2) := by decide +kernel

/-- A write of two bytes at 0x7FFF stores the first; the second is a one-byte write of the register page,
which is ignored (R171, R172). -/
theorem test_exchange_memory_crossing :
    (Instr.exchangeMemoryWrite 0x7FFF [1, 0xFF]).wellFormed = true ∧
      after (.exchangeMemoryWrite 0x7FFF [1, 0xFF]) .reset = some { State.reset with mem := [(0x7FFF, 1)] } := by
  decide +kernel

/-- A link request of 15 bytes from 0x7FFD stores three single bytes, accepts a command by the aligned 8 bytes at
0x8000, and its last four bytes, single ones at ATTN, are ignored; one of 16 bytes at 0x8000 clears what its
second 8 bytes name (R171, R172). -/
theorem test_link_request :
    let s (n : Nat) (rest : List Byte) := after (.exchangeMemoryWrite n rest) .reset
    ((s 0x7FFD [1, 2, 3, 0x0C, 0, 0, 0x80, 0, 0, 0, 0, 0, 0, 1, 0]).map fun t =>
        (t.readByte 0x7FFD, t.readByte 0x7FFF, t.engine.result, t.attn.has .cmdDone)) =
      some (1, 3, .badCode, true) ∧
    ((s 0x8000 [0x0C, 0, 0, 0x80, 0, 0, 0, 0, 0xFF, 0xFF, 3, 0, 1, 0, 0, 0]).map fun t =>
        (t.engine.result, t.attn.has .cmdDone, t.attn.enables)) = some (.badCode, false, 1) := by
  decide +kernel

/-- Reads beyond the registers return 0xFF, and PART_ID holds its value (R172, R173). -/
theorem test_register_reads :
    State.reset.readByte 0x9000 = 0xFF ∧ State.reset.register 0x8010 = some 0x48200100 := by
  decide +kernel

/-- A narrow register write is ignored (R172). -/
theorem test_register_write_ignored :
    after (.registerWriteIgnored 0x8000 [1]) .reset = some .reset := by decide +kernel

set_option maxRecDepth 20000 in
/-- A power-on reset marks BLANK a slot whose marker is clear, whatever its record (R167). -/
theorem test_power_on_reset :
    (after (.powerOnReset []) { State.reset with store := [{ record := record, marker := false, valid := true },
      { record := record, marker := true, valid := false }] }).map
      (fun s => s.store.map PlateSlot.valid) = some [false, true] := by decide +kernel

set_option maxRecDepth 20000 in
/-- A byte that decayed without power makes its marked slot fail its CRC, and the slot reads as BLANK with
its marker set (R167). -/
theorem test_power_on_reset_decayed :
    (after (.powerOnReset [(0, 25, 0x5C)]) (inRun .running)).map
      (fun s => ((s.slot 0).valid, (s.slot 0).marker, (s.slot 0).record.read 25)) =
      some (false, true, 0x5C) := by decide +kernel

/-- A link reset keeps the store and ends the run (R168). -/
theorem test_link_reset :
    (after .linkReset (inRun .running)).map (fun s => (s.jobs.run, (s.slot 0).valid)) =
      some (.idle, true) := by decide +kernel

/-! ## Chapter 10: records -/

/-- The record of row 705 at the encoder fault (the example of section 11.8): its counts, outcome and zone
bytes, and the foil used. -/
theorem test_record_bytes :
    let r := { row 705 .stamp (some .abandoned) with
      channels := { Eight.all none with
        a0 := some { foilUsed := 4512, hops := 0, merges := 0, late := false } } }
    let bs := (inRun .held).recordBytes r 705
    ([0x0F, 0x18, 0x19, 0x21, 0x25, 0x51, 0x52].map fun i => bs.getD i 0xFF) =
      [0x11, 0xC4, 0, 0x08, 0x04, 0xA0, 0x11] ∧ recordSlot 705 = 0x6080 := by decide +kernel

/-- The late flag of a row that lost its strike with no foil used shows clear in its record; of a row struck it
shows set (R190). -/
theorem test_record_late_flag :
    let bs (o : RowOutcome) := (inRun .running).recordBytes { row 705 .stamp (some o) with
      channels := { Eight.all none with
        a0 := some { foilUsed := 0, hops := 0, merges := 0, late := true } } } 705
    ((bs .lifted).getD 0x50 0xFF, (bs .struck).getD 0x50 0xFF) = (0, 8) := by decide +kernel

/-- The head row retires into its slot with its number, and an ended run empties into IDLE (R35, R147). -/
theorem test_retirement :
    let s := { withStation tracking (inRun .draining) with
      track := [row 705 .stamp (some .struck)], wpu := (atWeb 3139201 .reset).wpu }
    (after .retirementEvent s).map (fun t => (t.mem.word 0x6080, t.jobs.run)) =
      some (705, .idle) := by decide +kernel

/-! ## Witnesses for the hypotheses of the statements -/

/-- The part with a command that takes time executing. -/
def executing (x : Executing) (s : State) : State :=
  { s with engine := { s.engine with executing := some x, phase := .executing } }

/-- Row 700 struck at a TRACKING station, the web and the high-water position at `h`, and channel 0 as `x`. -/
def onFoil (h : Pos) (x : Channel) : State :=
  let s := withStation tracking (atWeb h (inRun .running))
  { s with
    wpu := { s.wpu with highWater := h }
    mark := { MarkUnit.reset with lastOpened := 700, nextRow := 701 }
    track := [row 700 .stamp (some .struck)]
    channels := { Eight.all .reset with a0 := x } }

/-- The stroke of row 700 that its image gives, and a later one of the same row. -/
def strokes : Stroke × Stroke := (⟨700, 1900, 19100, 1⟩, ⟨700, 1900, 2000, 1⟩)

theorem witness_StepExecutesFront :
    (∃ (s : State) (c : Instr) (rest : List Instr), s.pending = c :: rest) ∧
      ∃ s : State, s.pending = [] :=
  ⟨⟨{ State.reset with pending := [.retirementEvent] }, _, _, rfl⟩, ⟨.reset, rfl⟩⟩

theorem witness_ResetsLeaveEveryBlock :
    (∃ c : Instr, (∃ decayed, c = .powerOnReset decayed) ∨ c = .linkReset) ∧
      ∃ c : Instr, c = .linkReset :=
  ⟨⟨.powerOnReset [(15, 511, 1)], .inl ⟨_, rfl⟩⟩, ⟨.linkReset, rfl⟩⟩

/-- Slot 0 with its cycle under way; the last slot with none; and its last byte decayed, twice. -/
theorem witness_ResetsKeepThePlateStore :
    (∃ (s : State) (n : Nat) (w : Memory), n < s.store.length ∧
      s.engine.executing = some (.plateSave n w)) ∧
    (∃ (s : State) (n : Nat), n = 15 ∧ n < s.store.length ∧
      ∀ w, s.engine.executing ≠ some (.plateSave n w)) ∧
    ∃ (decayed earlier later : List (Nat × Nat × Byte)) (b : Byte),
      decayed = earlier ++ (15, 511, b) :: later ∧ earlier ≠ [] ∧
        ∀ c ∈ later, ¬ (c.1 = 15 ∧ c.2.1 = 511) :=
  ⟨⟨executing (.plateSave 0 record) .reset, 0, record, by decide⟩,
   ⟨.reset, 15, by decide, by decide, by intro w h; cases h⟩,
   ⟨[(15, 511, 1), (15, 511, 2), (14, 511, 3)], [(15, 511, 1)], [(14, 511, 3)], 2, by decide⟩⟩

/-- The last bytes of exchange memory, a write that runs on into the register page, link requests of 9 and of 16
bytes, the last word of the page, a request that acts on no register, and the first place outside. -/
theorem witness_WindowWritesStoreTheirBytes :
    (∃ (o : Nat) (bs : List Byte), o < 0x8000 ∧ o + bs.length = 0x8000 ∧ bs ≠ []) ∧
    (∃ (o : Nat) (bs : List Byte), o = 0x7FFF ∧ o + bs.length = 0x8007) ∧
    (∀ w ∈ [(0x7FFA, 9), (0xFFF0, 16)], ∃ (o : Nat) (bs : List Byte), o = w.1 ∧ bs.length = w.2 ∧
      8 < bs.length ∧ o + bs.length ≤ 0x10000) ∧
    (∃ (o : Nat) (bs : List Byte), (Instr.registerWriteIgnored o bs).wellFormed = true ∧
      o = 0x8009 ∧ bs.length = 16) ∧
    (∃ (o : Nat) (bs : List Byte), (Instr.registerWriteIgnored o bs).wellFormed = true ∧
      o + bs.length = 0x10000) ∧
    (∃ (o : Nat) (bs : List Byte), (Instr.registerWriteIgnored o bs).wellFormed = true ∧ o = 0x8000) ∧
    ∃ (o : Nat) (bs : List Byte), o + bs.length = 0x10001 :=
  ⟨⟨0x7FFF, [1], by decide⟩, ⟨0x7FFF, [1, 2, 3, 4, 5, 6, 7, 8], by decide⟩,
   fun w hw => ⟨w.1, List.replicate w.2 1, rfl, List.length_replicate, by fin_cases hw <;> decide⟩,
   ⟨0x8009, List.replicate 16 1, by decide⟩,
   ⟨0xFFFC, [1, 2, 3, 4], by decide⟩, ⟨0x8000, [1, 2], by decide⟩, ⟨0xFFFF, [1, 2], by decide⟩⟩

/-- MSI on with the function a bus master, and a cause that an enable can bring to the condition. -/
theorem witness_AttnEnableWriteReplacesEnables :
    ∃ (value : Word) (s : State), s.attn.config.msiEnable = true ∧ s.attn.config.busMaster = true ∧
      (s.attn.setEnables value).condition = true ∧ s.attn.condition = false :=
  ⟨0x20000, { State.reset with
      attn := { Attention.reset with causes := 0x20000, config := ⟨true, true, false, 0, 0⟩ } },
    by decide⟩

theorem witness_ConfigSpaceWriteSignals :
    (∃ (c : PciConfig) (s : State), c.msiEnable = true ∧ c.busMaster = true ∧
      s.attn.condition = true ∧ ¬ (s.attn.config.msiEnable = true ∧ s.attn.config.busMaster = true)) ∧
    ∃ (c : PciConfig) (s : State), c.msiEnable = true ∧ c.busMaster = true ∧
      s.attn.config.msiEnable = true ∧ s.attn.config.busMaster = true :=
  ⟨⟨⟨true, true, false, 0, 0⟩, { State.reset with
      attn := { Attention.reset with causes := 1, enables := 1, config := ⟨true, false, false, 0, 0⟩ } },
    by decide⟩,
   ⟨⟨true, true, true, 0, 0⟩, { State.reset with
      attn := { Attention.reset with config := ⟨true, true, false, 0, 0⟩ } }, by decide⟩⟩

theorem witness_CommandsWaitAndAreWithdrawn :
    (∃ (s : State) (value : Word), s.engine.executing ≠ none ∧
      (Instr.cmdPendWrite value).wellFormed = true) ∧
    ∃ value : Word, (Instr.cmdWithdraw value).wellFormed = true :=
  ⟨⟨executing (.loadJob job) .reset, 0x80000005, by decide⟩, ⟨0x7FFFFFFF, by decide⟩⟩

/-- Every code the table of commands names, and the codes next to them and at the ends that it does not, each in a
word with its unused bits set and PEND set. -/
theorem witness_PendWriteIsAcceptedByAFreeEngine_codes :
    ∀ c ∈ [0x00, 0x01, 0x02, 0x03, 0x04, 0x05, 0x06, 0x07, 0x08, 0x09, 0x0A, 0x0B, 0xFF],
      ∃ value : Word, (Instr.cmdPendWrite value).wellFormed = true ∧ (value.extractLsb' 0 8).toNat = c ∧
        value.extractLsb' 8 16 = 0xFFFF ∧
        value ≠ 0x80#8 ++ value.extractLsb' 8 16 ++ value.extractLsb' 0 8 := by
  intro c hc
  exact ⟨0xFFFFFF00 + BitVec.ofNat 32 c, by fin_cases hc <;> decide⟩

/-- A command that ends at its acceptance, and one that goes on executing. -/
theorem witness_PendWriteIsAcceptedByAFreeEngine :
    ∃ (s : State) (x y : Word), s.engine.executing = none ∧ (Instr.cmdPendWrite x).wellFormed = true ∧
      (Instr.cmdPendWrite y).wellFormed = true ∧
      (after (.cmdPendWrite x) s).map (fun t => t.engine.executing.isSome) = some false ∧
      (after (.cmdPendWrite y) s).map (fun t => t.engine.executing.isSome) = some true :=
  ⟨.reset, 0x80000005, 0x80000001, by decide +kernel⟩

/-- Each refusal in turn, the first row at 0 and at one above the last it takes. -/
theorem witness_RefusedCommandsChangeNothing :
    (∃ s : State, s.engine.executing = none ∧ s.jobs.run ≠ .idle) ∧
    (∃ s : State, s.engine.executing = none ∧ s.jobs.run = .idle ∧ s.jobs.next = none ∧
      s.jobs.current = none) ∧
    (∃ s : State, s.engine.executing = none ∧ s.jobs.run = .idle ∧
      ¬ (s.jobs.next = none ∧ s.jobs.current = none) ∧ s.mem.nat 4 0x104 = 0) ∧
    (∃ s : State, s.engine.executing = none ∧ s.jobs.run = .idle ∧
      ¬ (s.jobs.next = none ∧ s.jobs.current = none) ∧ s.mem.nat 4 0x104 = 4294967041) ∧
    (∃ s : State, s.engine.executing = none ∧ s.jobs.run = .draining) ∧
    (∃ s : State, s.engine.executing = none ∧ s.jobs.run = .held) ∧
    (∃ arg : BitVec 16, arg.toNat = 16) ∧
    (∃ (s : State) (arg : BitVec 16), s.engine.executing = none ∧ arg.toNat ≤ 15 ∧
      s.jobs.currentReferences arg.toNat = true ∧ s.jobs.run ≠ .idle) ∧
    ∃ (code : BitVec 8) (arg : BitVec 16), (Instr.unknownCommand code arg).wellFormed = true :=
  ⟨⟨inRun .armed, by decide⟩, ⟨.reset, by decide⟩, ⟨inRun .idle, by decide⟩,
   ⟨{ inRun .idle with mem := [(0x104, 1), (0x105, 0xFF), (0x106, 0xFF), (0x107, 0xFF)] },
     by decide⟩,
   ⟨inRun .draining, by decide⟩, ⟨inRun .held, by decide⟩, ⟨16, by decide⟩,
   ⟨inRun .held, 0, by decide⟩, ⟨0x0B, 0, by decide⟩⟩

/-- The acceptance; a job accepted with no command pending; and a job refused with one. -/
theorem witness_LoadJobCopiesAndChecks :
    (∃ s : State, s.engine.executing = none) ∧
    (∃ (s : State) (j : Job), s.engine.executing = some (.loadJob j) ∧ s.engine.pend = false ∧
      runChecks (s.candidate j) jobChecks = []) ∧
    ∃ (s : State) (j : Job), s.engine.executing = some (.loadJob j) ∧ s.engine.pend = true ∧
      runChecks (s.candidate j) jobChecks ≠ [] :=
  let s := executing (.loadJob .zero) .reset
  ⟨⟨.reset, rfl⟩, ⟨executing (.loadJob job) (inRun .idle), job, by decide +kernel⟩,
   ⟨{ s with engine := { s.engine with pend := true } }, .zero, by decide +kernel⟩⟩

/-- An accepted job with a FOIL station, an image on its active lane, a channel assigned, and a lane that is
not the leading one. -/
theorem witness_AcceptedJobMeetsItsChecks :
    ∃ (s : State) (j : Job), runChecks (s.candidate j) jobChecks = [] ∧
      (j.stations.get 0).typeCode = 1 ∧ j.laneActive 1 = true ∧ j.leadingLane = 0 ∧
      (s.readSlot (j.stations.get 0).plateSlot).map (fun p => (p.images.get 0).length) = some 1 ∧
      (j.channels.get 0).assigned = true :=
  ⟨inRun .idle, job, by decide +kernel⟩

/-- A run that begins, from CURRENT with the last first row it takes and from NEXT with row 1, and a job
whose plate is BLANK. -/
theorem witness_StartRunByItsChecks :
    (∃ (s : State) (j : Job) (first : Word), s.engine.executing = none ∧ s.jobs.run = .idle ∧
      s.jobs.next = none ∧ s.jobs.current.map Current.job = some j ∧ first = s.mem.word 0x104 ∧
      first ≠ 0 ∧ first.toNat = 4294967040 ∧ runChecks (s.candidate j) plateChecks = []) ∧
    ∃ (s : State) (j : Job) (first : Word), s.engine.executing = none ∧ s.jobs.run = .idle ∧
      s.jobs.next = some j ∧ first = s.mem.word 0x104 ∧ first = 1 ∧
      runChecks (s.candidate j) plateChecks ≠ [] :=
  ⟨⟨{ inRun .idle with mem := [(0x105, 0xFF), (0x106, 0xFF), (0x107, 0xFF)] }, job, 0xFFFFFF00,
     by decide +kernel⟩,
   ⟨{ State.reset with jobs := { JobControl.reset with next := some job }, mem := [(0x104, 1)] }, job, 1,
     by decide +kernel⟩⟩

theorem witness_EndRunByRunState :
    (∃ s : State, s.engine.executing = none ∧ s.jobs.run = .armed) ∧
    (∃ s : State, s.engine.executing = none ∧ s.jobs.run = .held) ∧
    (∃ s : State, s.engine.executing = none ∧ s.jobs.run = .running ∧ s.track = []) ∧
    ∃ s : State, s.engine.executing = none ∧ s.jobs.run = .running ∧ s.track ≠ [] :=
  ⟨⟨inRun .armed, by decide⟩, ⟨inRun .held, by decide⟩, ⟨inRun .running, by decide⟩,
   ⟨{ inRun .running with track := [row 700 .stamp none] }, by decide⟩⟩

/-- The entry to DRAINING with the last row exactly at its commit point, a tick short of it, and struck with its
zone end taken and the throw ON. -/
theorem witness_EndRunByRunState_draining :
    ∀ w ∈ [((2977800 : Pos), (none : Option RowOutcome), some RowOutcome.struck, Throw.on),
        (2977799, none, none, .on), (3019200, some .struck, some .struck, .opening)],
      ∃ (s : State) (r : RowCtx) (e : StationEntry), s.engine.executing = none ∧ s.jobs.run = .running ∧
        s.track = [] ++ [r] ∧ s.trackOk ∧ (∀ st, s.commitDue st = none) ∧
        (s.station 0).state = .tracking ∧ r.stations.get 0 = some e ∧ e.outcome = w.2.1 ∧
        (after (.endRun 0) s).map (fun t =>
          ((t.entry? 0 700).bind StationEntry.outcome, (t.station 0).throw)) = some w.2.2 := by
  intro w hw
  let e : StationEntry := { entry 3000000 w.2.1 with endTaken := w.2.1.isSome }
  let r : RowCtx := { row 700 .stamp none with stations := ⟨some e, none, none, none⟩ }
  refine ⟨{ onFoil w.1 .reset with
      stations := (Four.all .reset).set 0 { tracking with throw := .on }, track := [r] }, r, e, rfl, rfl, rfl,
    ⟨by decide +revert, by decide +revert, ?_⟩, ?_, rfl, rfl, rfl, ?_⟩
  · show (700 : Word) ≠ 0 ∧ (700 : Word) = 700 ∧ (701 : Word) = rowSucc 700
    decide
  · fin_cases hw <;> decide +kernel
  · fin_cases hw <;> decide +kernel

/-- A run with row 700 on the track, a TRACKING station with its throw ON beside INACTIVE ones, and a channel in each
state: a hold acts on all of them. -/
def engaged (r : RunState) : State :=
  let s := withStation { tracking with throw := .on, dwell := 3, risk := [701] } (onFoil 3000000 .reset)
  { s with
    jobs := { s.jobs with run := r }
    channels := { Eight.all .reset with
      a1 := { Channel.reset with state := .standing, strokes := [strokes.1] }
      a2 := { Channel.reset with state := .sync, params := foil, current := some strokes.1 }
      a3 := { Channel.reset with state := .rampDown, rampLen := 400, rampProgress := 7 }
      a4 := { Channel.reset with state := .rampUp, rampLen := 400 }
      a5 := { Channel.reset with state := .rampUp, params := foil, rampLen := 400, rampProgress := 399 } } }

/-- Each run state it takes, with every kind of station and channel. -/
theorem witness_HoldRunGivesUpTheRows :
    (∃ s : State, s.engine.executing = none ∧ s.jobs.run = .armed ∧ s.track = []) ∧
    (∃ s : State, s.engine.executing = none ∧ s.jobs.run = .draining ∧ s.track ≠ []) ∧
    ∃ s : State, s.engine.executing = none ∧ s.jobs.run = .running ∧ (s.station 0).state ≠ .inactive ∧
      (s.station 1).state = .inactive ∧ (s.channel 0).state = .idle ∧
      (s.channel 1).state = .standing ∧ (s.channel 2).state = .sync ∧
      (s.channel 3).state = .rampDown ∧
      ((s.channel 4).state = .rampUp ∧ (s.channel 4).rampProgress = 0) ∧
      (s.channel 5).state = .rampUp ∧ (s.channel 5).rampProgress ≠ 0 :=
  ⟨⟨inRun .armed, by decide⟩, ⟨{ inRun .draining with track := [row 700 .stamp none] }, by decide⟩,
   ⟨engaged .running, by decide⟩⟩

theorem witness_ResumeRunArmsTheRun :
    (∃ s : State, s.engine.executing = none ∧ s.jobs.run = .held) ∧
      ∃ s : State, s.engine.executing = none ∧ s.jobs.run ≠ .held :=
  ⟨⟨inRun .held, by decide⟩, ⟨inRun .armed, by decide⟩⟩

/-- A cause that persists and is selected, and causes none of which persist. -/
theorem witness_AckStopKeepsWhatPersists :
    (∃ s : State, s.engine.executing = none ∧ s.jobs.stopCauses.getLsbD 9 = true ∧
      (s.chanBlock 0).assigned = true ∧ (s.channel 0).out = true) ∧
    ∃ s : State, s.engine.executing = none ∧ s.jobs.stopCauses = 4 ∧ s.jobs.stopRequest = true :=
  ⟨⟨({ inRun .running with
      jobs := { (inRun .running).jobs with stopCauses := 0x200 } }).setChannel 0
        { Channel.reset with out := true }, by decide⟩,
   ⟨{ inRun .running with
      jobs := { (inRun .running).jobs with stopCauses := 4, stopRequest := true } }, by decide⟩⟩

set_option maxRecDepth 20000 in
/-- A staging area for each check of R161, at the place nearest its bound: an unprintable byte in the label, a byte
after its first 0, the pitches and the counts next to their ranges, and of lane 0 or of lane 1 an image count of 13,
a length of 0, an image a tick beyond the pitch, and one that starts a tick before the end of the one before it. -/
theorem witness_PlateSaveByItsWorkingCopy_faults :
    ∀ w ∈ [([(0x00, [0x1F])], 1, none, none), ([(0x17, [0x7F])], 1, none, none), ([(0x01, [0x41])], 1, none, none),
        ([(0x18, [0x9F, 0x0F])], 2, none, none), ([(0x18, [0x81, 0x38, 1])], 2, none, none),
        ([(0x1C, [0])], 3, none, none), ([(0x1C, [5])], 3, none, none), ([(0x1D, [0])], 4, none, none),
        ([(0x1D, [5])], 4, none, none), ([(0x20, [13])], 5, some 0, none), ([(0x88, [13])], 5, some 1, none),
        ([(0x2C, [0, 0])], 6, some 0, some 0), ([(0x2C, [0xF1, 0x55])], 7, some 0, some 0),
        ([(0x20, [2]), (0x30, [0x37, 0x4A, 0, 0, 1])], 8, some 0, some 1),
        (([(0x88, [1]), (0x90, [0xC0, 0x5D, 0, 0, 1])] : List (Nat × List Byte)), 7, some 1, some 0)],
      ∃ s : State, s.engine.executing = none ∧ s.jobs.run = .idle ∧ s.store.length = 16 ∧
        firstFault (s.mem.copyOut 0x1400 512) w.2.1 w.2.2.1 w.2.2.2 := by
  intro w hw
  let m := w.1.foldl (fun m c => m.write c.1 c.2) record
  refine ⟨{ State.reset with mem := Memory.copyIn [] 0x1400 512 m }, rfl, rfl, rfl, ?_⟩
  rw [firstFault_iff]
  refine ⟨⟨if w.2.1 = 1 then .label else if w.2.1 = 2 then .pitch else if w.2.1 = 3 then .faces else
    if w.2.1 = 4 then .laneCount else if w.2.1 = 5 then .imageCount else if w.2.1 = 6 then .imageLength else
    if w.2.1 = 7 then .imageBound else .imageOrder, w.2.2.1, w.2.2.2⟩, ?_⟩
  fin_cases hw <;> decide +kernel

set_option maxRecDepth 20000 in
/-- A working copy that fails a check; one the slot already holds; one that it does not, with NEXT
referencing the slot; and the last slot. -/
theorem witness_PlateSaveByItsWorkingCopy :
    (∃ s : State, s.engine.executing = none ∧ s.jobs.currentReferences 15 = false ∧
      s.store.length = 16 ∧ plateFault (s.mem.copyOut 0x1400 512) ≠ none) ∧
    (∃ s : State, s.engine.executing = none ∧ s.jobs.run = .idle ∧ s.store.length = 16 ∧
      plateFault (s.mem.copyOut 0x1400 512) = none ∧ (s.slot 0).valid = true ∧
      (s.slot 0).record = withCrc (s.mem.copyOut 0x1400 512)) ∧
    ∃ s : State, s.engine.executing = none ∧ s.jobs.run = .idle ∧ s.store.length = 16 ∧
      plateFault (s.mem.copyOut 0x1400 512) = none ∧ (s.slot 0).valid = false ∧
      s.jobs.next = some job ∧ job.referenced.contains 0 = true :=
  let staged : Memory := Memory.copyIn [] 0x1400 512 record
  ⟨⟨inRun .running, by decide +kernel⟩, ⟨{ inRun .idle with mem := staged }, by decide +kernel⟩,
   ⟨{ State.reset with mem := staged, jobs := { JobControl.reset with next := some job } },
     by decide +kernel⟩⟩

/-- A cycle of the last slot, programmed as asked or misread at the last byte, with and without a command
pending. -/
theorem witness_PlateSaveEndsByItsVerify :
    ∀ pend : Bool, ∃ (s : State) (misread : List (Nat × Byte)),
      s.engine.executing = some (.plateSave 15 record) ∧ s.engine.pend = pend ∧
      15 < s.store.length ∧ programmed record misread ≠ record ∧
      programmed record [] = record ∧ (Instr.plateSaveComplete misread).wellFormed = true := by
  intro pend
  let s := executing (.plateSave 15 record) .reset
  exact ⟨{ s with engine := { s.engine with pend := pend } }, [(511, 0)], rfl, rfl,
    by cases pend <;> decide +kernel⟩

theorem witness_PlateReadReturnsTheRecord :
    (∃ (s : State) (arg : BitVec 16), s.engine.executing = none ∧ arg.toNat = 16) ∧
    (∃ (s : State) (arg : BitVec 16), s.engine.executing = none ∧ arg.toNat = 0 ∧
      (s.slot arg.toNat).valid = true) ∧
    ∃ (s : State) (arg : BitVec 16), s.engine.executing = none ∧ arg.toNat = 15 ∧
      (s.slot arg.toNat).valid = false :=
  ⟨⟨.reset, 16, by decide⟩, ⟨inRun .running, 0, by decide⟩, ⟨.reset, 15, by decide⟩⟩

set_option maxRecDepth 20000 in
theorem witness_PlateReadThenSaveIsUnchanged :
    ∃ (arg : BitVec 16) (s : State), s.engine.executing = none ∧ arg.toNat ≤ 15 ∧
      s.jobs.run = .idle ∧ s.mem.wf = true ∧ (s.slot arg.toNat).valid = true ∧
      (s.slot arg.toNat).record.wf = true ∧ (∀ c ∈ (s.slot arg.toNat).record, c.1 < 512) ∧
      plateFault (s.slot arg.toNat).record = none ∧ passesCrc (s.slot arg.toNat).record = true :=
  ⟨0, inRun .idle, by decide +kernel⟩

/-- The first sample; a forward count that moves the web with a zone end to come, one with none to come,
and one that leaves the web; and reverse counts to the reverse tolerance and a tick beyond it. -/
theorem witness_EncoderCountMovesTheWeb :
    (∃ s : State, s.wpu.pair = none) ∧
    (∃ (s : State) (p : Bool × Bool) (a b : Bool), s.wpu.pair = some p ∧ (p.1 = a ↔ p.2 ≠ b) ∧
      transition p (a, b) = .forward ∧ s.track = [row 700 .stamp (some .struck)] ∧
      (s.station 0).state ≠ .inactive ∧ (s.station 1).state = .inactive ∧
      (after (.encoderCount a b) s).map State.web ≠ some s.web) ∧
    (∃ (s : State) (p : Bool × Bool) (a b : Bool), s.wpu.pair = some p ∧ (p.1 = a ↔ p.2 ≠ b) ∧
      transition p (a, b) = .forward ∧ s.track = [] ∧ (s.station 0).state ≠ .inactive) ∧
    (∃ (s : State) (p : Bool × Bool) (a b : Bool), s.wpu.pair = some p ∧ (p.1 = a ↔ p.2 ≠ b) ∧
      (after (.encoderCount a b) s).map State.web = some s.web) ∧
    ∀ h ∈ [((399 : Int), false), (400, true)], ∃ (s : State) (p : Bool × Bool) (a b : Bool),
      s.wpu.pair = some p ∧ (p.1 = a ↔ p.2 ≠ b) ∧ transition p (a, b) = .reverse ∧
      s.jobs.run = .running ∧ s.track.length < 32 ∧ s.job.reverseTol = 400 ∧
      (after (.encoderCount a b) s).map (fun t => (Machine.dist t.web t.wpu.highWater, t.jobs.run == .held)) =
        some (h.1 + 1, h.2) := by
  refine ⟨⟨.reset, rfl⟩,
    ⟨{ withStation tracking (atWeb 3000000 (inRun .running)) with
        track := [row 700 .stamp (some .struck)] }, (false, false), true, false, by decide +kernel⟩,
    ⟨withStation tracking (inRun .running), (false, false), true, false, by decide +kernel⟩,
    ⟨{ withStation tracking (inRun .running) with
        wpu := { (inRun .running).wpu with scaleQ := 4096 } }, (false, false), true, false,
      by decide +kernel⟩, ?_⟩
  intro h hh
  refine ⟨{ withStation tracking (inRun .running) with
      wpu := { (inRun .running).wpu with highWater := BitVec.ofInt 32 h.1 } },
    (false, false), false, true, rfl, (by decide), (by decide), rfl, Nat.zero_lt_succ _, rfl, ?_⟩
  fin_cases hh <;> decide +kernel

/-- A reverse count a tick beyond the tolerance, from a run whose stations and channels a hold acts on: the same
count at a part whose tolerance is not exceeded holds nothing. -/
theorem witness_EncoderCountMovesTheWeb_hold :
    ∀ r ∈ [RunState.armed, .running, .draining], ∃ (s : State) (k : Current), s.wpu.pair = some (false, false) ∧
      s.jobs.run = r ∧ s.trackOk ∧ s.track.length = 1 ∧ s.jobs.current = some k ∧
      (after (.encoderCount false true) s).map (fun t => (Machine.dist t.web t.wpu.highWater, t.jobs.run)) =
        some (401, .held) ∧
      (after (.encoderCount false true) { s with jobs := { s.jobs with
          current := some { k with job := { k.job with reverseTol := 2 ^ 32 } } } }).map
        (fun u => (u.jobs.run, (u.station 0).throw, u.track.length)) = some (r, .on, 1) := by
  intro r hr
  refine ⟨{ engaged r with wpu := { (engaged r).wpu with highWater := 3000400 } }, current, rfl, rfl,
    ⟨Nat.le_of_ble_eq_true rfl, (by decide : (701 : Word) ≠ 0), (by decide : (700 : Word) ≠ 0), rfl,
      (by decide : (701 : Word) = rowSucc 700)⟩, rfl, rfl, ?_⟩
  fin_cases hr <;> decide +kernel

theorem witness_EncoderFaultHoldsTheRun :
    (∃ (s : State) (p : Bool × Bool) (a b : Bool), s.wpu.pair = some p ∧ p.1 ≠ a ∧ p.2 ≠ b ∧
      s.jobs.run = .held) ∧
    ∃ (s : State) (p : Bool × Bool) (a b : Bool), s.wpu.pair = some p ∧ p.1 ≠ a ∧ p.2 ≠ b ∧
      s.jobs.run = .running ∧ s.track ≠ [] ∧ (s.station 0).state = .tracking ∧
      (s.channel 2).state = .sync :=
  ⟨⟨inRun .held, (false, false), true, true, by decide⟩,
   ⟨engaged .running, (false, false), true, true, by decide⟩⟩

/-- A move at the edge of v8's range, one beyond either end; an excursion that begins, and one under way with
OVERSPEED acknowledged; and a station that counts its dwell, one lifted at the resume speed, and one at its
close point. -/
theorem witness_TimebaseExpiryUpdatesTheSpeed :
    (∃ s : State, dist s.wpu.ring.a0 s.web = 32767) ∧ (∃ s : State, dist s.wpu.ring.a0 s.web = -32768) ∧
    (∃ s : State, dist s.wpu.ring.a0 s.web = 32768) ∧ (∃ s : State, dist s.wpu.ring.a0 s.web = -32769) ∧
    (∃ s : State, s.jobs.run = .idle) ∧
    (∃ s : State, s.jobs.run ≠ .idle ∧ s.wpu.overspeed = false ∧
      (after (.timebaseExpiry (.all false)) s).map (fun t => t.wpu.overspeed) = some true) ∧
    (∃ s : State, s.jobs.run ≠ .idle ∧ s.wpu.overspeed = true ∧ s.attn.has .overspeed = false ∧
      (after (.timebaseExpiry (.all false)) s).map (fun t => t.wpu.overspeed) = some true) ∧
    (∃ s : State, (after (.timebaseExpiry (.all false)) s).map (fun t => (t.station 0).dwell) = some 1) ∧
    (∃ s : State, (s.station 0).state = .lifted ∧
      (after (.timebaseExpiry (.all false)) s).map (fun t => (t.wpu.v8, (t.station 0).state)) =
        some ((s.job.resume : Int), .tracking)) ∧
    ∃ s : State, (s.station 0).throw = .off ∧
      (after (.timebaseExpiry (.all false)) s).map (fun t => (t.station 0).throw) = some .closing :=
  let fast := atWeb 5001 (inRun .armed)
  let x : Station := { tracking with state := .lifted }
  ⟨⟨atWeb 32767 .reset, by decide⟩, ⟨atWeb (-32768) .reset, by decide⟩, ⟨atWeb 32768 .reset, by decide⟩,
   ⟨atWeb (-32769) .reset, by decide⟩, ⟨.reset, rfl⟩, ⟨fast, by decide +kernel⟩,
   ⟨{ fast with wpu := { fast.wpu with overspeed := true } }, by decide +kernel⟩,
   ⟨withStation { tracking with throw := .on } (inRun .running), by decide +kernel⟩,
   ⟨withStation x (atWeb 200 (inRun .running)), by decide +kernel⟩,
   ⟨{ withStation tracking (atWeb 3001800 (inRun .running)) with
      track := [row 700 .stamp (some .struck)] }, by decide +kernel⟩⟩

/-- A STANDING channel whose start point, a minimum ramp before the sync start with the web at rest, lies a tick
beyond the high-water position, at it, and a tick behind it. -/
theorem witness_TimebaseExpiryUpdatesTheSpeed_channels :
    ∀ w ∈ [((3001499 : Pos), ChannelState.standing, false), (3001500, .rampUp, false), (3001501, .rampUp, true)],
      ∃ s t : State, exec (.timebaseExpiry (.all false)) s = .next t ∧ (s.channel 0).state = .standing ∧
        (s.channel 0).watches t.wpu.v8p strokes.1 400 ∧ s.chanFace 0 700 = some 3000000 ∧
        (t.channel 0).state = w.2.1 ∧ t.attn.has .foilLate = w.2.2 := by
  intro w hw
  let x : Channel := { Channel.reset with state := .standing, params := foil, strokes := [strokes.1] }
  refine ⟨{ onFoil w.1 x with wpu := { (onFoil w.1 x).wpu with ring := .all w.1 } }, _, rfl, rfl, ?_, rfl, ?_, ?_⟩
  · exact .inr ⟨rfl, rfl, by fin_cases hw <;> decide +kernel⟩
  · fin_cases hw <;> decide +kernel
  · fin_cases hw <;> decide +kernel

/-- Both job slots filled, so that both tags show, and both empty; and a last error at the end of its
field. -/
theorem witness_LivePageShowsTheState :
    (∃ (s : State) (j : Job) (c : Current), s.jobs.next = some j ∧ s.jobs.current = some c) ∧
    (∃ s : State, s.jobs.next = none ∧ s.jobs.current = none) ∧
    ∃ s : State, (s.station 0).lastError = some (2 ^ 31 - 1) ∧ (s.station 1).lastError = none :=
  ⟨⟨{ inRun .running with jobs := { (inRun .running).jobs with next := some job } }, job, current, rfl,
      rfl⟩, ⟨.reset, rfl, rfl⟩,
   ⟨withStation { tracking with lastError := some (2 ^ 31 - 1) } .reset, by decide⟩⟩

/-- A forward step owed, a reverse step owed, and a turn 1 ns too soon. -/
theorem witness_StepEmitSendsOneStep :
    (∃ (s : State) (g : GenId) (ns : Nat), ns = 250 ∧ 0 < (s.gen g).owed) ∧
    (∃ (s : State) (g : GenId) (ns : Nat), ns = 250 ∧ (s.gen g).owed < 0) ∧
    ∃ (s : State) (g : GenId) (ns : Nat), ns = 249 ∧ (s.gen g).owed ≠ 0 :=
  let s := { State.reset with foilGens := { Eight.all .reset with a7 := { StepGen.reset with acc := 0x10000 } } }
  ⟨⟨s, .foil 7, 250, by decide⟩,
   ⟨{ State.reset with cylGens := .all { StepGen.reset with emitted := 1 } }, .cylinder 0, 250, by decide⟩,
   ⟨s, .foil 7, 249, by decide⟩⟩

/-- Each case of R44, the STALE test at both ends of its range. -/
theorem witness_VerdictEntryResolved :
    (∃ stamp n : Word, stamp ≠ 0 ∧ stamp = n) ∧
    (∃ stamp n : Word, stamp ≠ 0 ∧ 0 < (stamp - n).toInt) ∧
    (∃ stamp n : Word, stamp ≠ 0 ∧ (stamp - n).toInt < 0 ∧ (n - stamp).toInt = 1024 ∧
      stamp.toNat % 256 = n.toNat % 256) ∧
    (∃ stamp n : Word, stamp ≠ 0 ∧ (stamp - n).toInt < 0 ∧ (n - stamp).toInt = 1280 ∧
      stamp.toNat % 256 = n.toNat % 256) ∧
    ∃ stamp n : Word, stamp ≠ 0 ∧ (stamp - n).toInt < 0 ∧ (n - stamp).toInt = 1 :=
  ⟨⟨1, 1, by decide⟩, ⟨2, 1, by decide⟩, ⟨1, 1025, by decide⟩, ⟨1, 1281, by decide⟩, ⟨1, 2, by decide⟩⟩

/-- FIRST in ARMED, FOUND at the far edge of the window, RECAPTURED at the near edge of the search window,
and marks beyond the window: at both ends of the gap before the next one, and of the next one. -/
theorem witness_LeadingMarkOpensARow :
    (∃ s : State, s.mark.levels.get 0 = false ∧ s.wpu.direction = .forward ∧
      s.job.laneActive 0 = true ∧ s.job.leadingLane = 0 ∧ s.track.length < 32 ∧ s.jobs.run = .armed) ∧
    (∃ (s : State) (e p : Pos), s.mark.levels.get 0 = false ∧ s.wpu.direction = .forward ∧
      s.job.laneActive 0 = true ∧ s.job.leadingLane = 0 ∧ s.track.length < 32 ∧
      s.jobs.run = .running ∧ s.mark.expected = some e ∧ s.mark.search = false ∧
      s.job.window ≤ 4000 ∧ (dist e p).natAbs = s.job.window) ∧
    (∃ (s : State) (e p : Pos), s.mark.levels.get 0 = false ∧ s.wpu.direction = .forward ∧
      s.job.laneActive 0 = true ∧ s.job.leadingLane = 0 ∧ s.track.length < 32 ∧
      s.jobs.run = .running ∧ s.mark.expected = some e ∧ s.mark.search = true ∧ s.jobPitch ≤ 80000 ∧
      dist e p = -((s.jobPitch / 2 : Nat) : Int) ∧ dist e p < (s.jobPitch : Int) - (s.jobPitch / 2 : Nat)) ∧
    ∀ d ∈ [501, 23499, 23500, 24500], ∃ (s : State) (e p : Pos), s.mark.levels.get 0 = false ∧
      s.wpu.direction = .forward ∧ s.job.laneActive 0 = true ∧ s.job.leadingLane = 0 ∧
      s.track.length < 31 ∧ s.jobs.run = .running ∧ s.mark.expected = some e ∧
      s.mark.search = false ∧ s.job.window = 500 ∧ s.jobPitch = 24000 ∧
      min 255 (s.mark.missing + 1) ≠ s.job.missingLimit ∧ dist e p = d := by
  refine ⟨⟨inRun .armed, by decide⟩,
   ⟨{ inRun .running with mark := { MarkUnit.reset with expected := some 24000 } }, 24000, 24500,
     by decide⟩,
   ⟨{ inRun .running with mark := { MarkUnit.reset with expected := some 24000, search := true } }, 24000,
     12000, by decide⟩, ?_⟩
  intro d hd
  refine ⟨{ inRun .running with mark := { MarkUnit.reset with expected := some 24000 } }, 24000,
    24000 + BitVec.ofInt 32 d, ?_⟩
  fin_cases hd <;> decide

/-- An edge at the end of a search window, an edge beyond the leading window whose MISSING row reaches the limit,
one far beyond it, and one as far beyond a search window as the statement goes. -/
theorem witness_LeadingMarkOpensARow_beyond :
    ∀ w ∈ [(true, 0, (12000 : Int)), (false, 1, 501), (false, 0, 50000), (true, 0, 2 ^ 30)],
      ∃ (s : State) (e p : Pos), s.mark.levels.get 0 = false ∧ s.wpu.direction = .forward ∧
        s.job.laneActive 0 = true ∧ s.job.leadingLane = 0 ∧ s.track.length < 32 ∧
        s.jobs.run = .running ∧ s.mark.expected = some e ∧
        (s.mark.search = true ∧ s.jobPitch ≤ 80000 ∧
            (s.jobPitch : Int) - (s.jobPitch / 2 : Nat) ≤ dist e p ∨
          s.mark.search = false ∧ s.job.window ≤ 4000 ∧ (s.job.window : Int) < dist e p) ∧
        dist e p ≤ 2 ^ 30 ∧
        (decide (min 255 (s.mark.missing + 1) = s.job.missingLimit)) = (w.2.1 == 1) ∧ dist e p = w.2.2 := by
  intro w hw
  refine ⟨{ inRun .running with mark :=
    { MarkUnit.reset with expected := some 24000, search := w.1, missing := w.2.1 } }, 24000,
    24000 + BitVec.ofInt 32 w.2.2, ?_⟩
  fin_cases hw <;> decide

/-- The lane that follows as a row opens: its held edge at the edge of the window; a tick beyond it, with the
window's end at the web and a tick behind it; and a station whose plate has no image on the active lanes. -/
theorem witness_rowOpened :
    (∀ w ∈ [((24500 : Pos), (24501 : Pos), LaneEntry.found 500), (24501, 24500, .absent), (24501, 24501, .missing)],
      ∃ (s t : State), exec (.markEdge 0 true 24000) s = .next t ∧ s.jobs.run = .armed ∧
        s.job.leadingLane = 0 ∧ s.job.laneActive 1 = true ∧ s.mark.held.get 1 = some w.1 ∧ s.web = w.2.1 ∧
        t.track.map (fun r => (r.lead, r.lanes.get 1)) = [(24000, w.2.2)]) ∧
    ∃ (s : State), (s.station 1).state ≠ .inactive ∧
      ∀ i, ¬ ∃ l : Fin 4, s.job.laneActive l = true ∧ i ∈ (s.plate 1).images.get l := by
  refine ⟨fun w hw => ?_, { inRun .armed with stations := .all tracking }, by decide, ?_⟩
  · refine ⟨{ atWeb w.2.1 (inRun .armed) with mark := { MarkUnit.reset with held := .all (some w.1) } }, _, rfl,
      rfl, rfl, (by decide : job.laneActive 1 = true), rfl, ?_, ?_⟩ <;> fin_cases hw <;> decide +kernel
  · rintro i ⟨l, _, hi⟩
    revert hi l
    show ∀ l : Fin 4, _ → i ∈ (Four.all ([] : List Image)).get l → False
    intro l
    fin_cases l <;> simp [Four.all, Four.get]

/-- A SPLICE row that opens behind row 700, which cannot clear it, with strokes of that row pending at a channel
that stands and at one in motion. -/
theorem witness_spliceTested :
    ∀ x ∈ [ChannelState.standing, .sync], ∃ s t : State, exec (.markEdge 0 true 2964000) s = .next t ∧
      s.trackOk ∧ s.mark.expected = some 2964000 ∧ s.jobs.run = .running ∧
      (s.station 0).state = .tracking ∧ s.chanStation 0 = some 0 ∧ (s.channel 0).state = x ∧
      (s.channel 0).strokes = [strokes.1] ∧ (s.channel 0).plan = none ∧
      t.track.map (fun r => (r.verdict, (r.stations.get 0).bind StationEntry.outcome)) =
        [(.stamp, some .sacrificed), (.splice, none)] ∧ (t.channel 0).strokes = [] := by
  intro x hx
  let s : State :=
    { onFoil 2964000 { Channel.reset with
        state := x, params := foil, strokes := [strokes.1]
        current := if x = .sync then some ⟨699, 0, 100, 1⟩ else none } with
      mem := Memory.write [] 0x9E8 [0xBD, 2, 0, 0, 3]
      mark := { MarkUnit.reset with lastOpened := 700, nextRow := 701, expected := some 2964000 } }
  have ok : s.trackOk := ⟨Nat.le_of_ble_eq_true rfl, (by decide : (701 : Word) ≠ 0),
    (by decide : (700 : Word) ≠ 0), rfl, (by decide : (701 : Word) = rowSucc 700)⟩
  refine ⟨s, _, rfl, ok, rfl, rfl, rfl, ?_⟩
  fin_cases hx <;> decide +kernel

/-- Each reason for which a mark is discarded, behind either window by one tick. -/
theorem witness_DiscardedMarkChangesOnlyTheLevel :
    (∃ s : State, s.mark.levels.get 0 = false ∧ s.jobs.run = .idle) ∧
    (∃ s : State, s.mark.levels.get 2 = false ∧ s.jobs.run = .running ∧ s.job.laneActive 2 = false) ∧
    (∃ s : State, s.mark.levels.get 0 = false ∧ s.wpu.direction = .reverse) ∧
    (∃ s : State, s.mark.levels.get 0 = false ∧ s.jobs.run = .draining ∧ s.job.leadingLane = 0) ∧
    (∃ (s : State) (e p : Pos), s.mark.levels.get 0 = false ∧ s.jobs.run = .running ∧
      s.job.leadingLane = 0 ∧ s.mark.expected = some e ∧ s.mark.search = false ∧
      s.job.window ≤ 4000 ∧ dist e p = -(s.job.window : Int) - 1) ∧
    (∃ (s : State) (e p : Pos), s.mark.levels.get 0 = false ∧ s.jobs.run = .running ∧
      s.job.leadingLane = 0 ∧ s.mark.expected = some e ∧ s.mark.search = true ∧ s.jobPitch ≤ 80000 ∧
      dist e p = -((s.jobPitch / 2 : Nat) : Int) - 1) ∧
    ∃ u : State, u.mark.levels.get 0 = true :=
  ⟨⟨.reset, by decide⟩, ⟨inRun .running, by decide⟩,
   ⟨{ State.reset with wpu := { Wpu.reset with direction := .reverse } }, by decide⟩,
   ⟨inRun .draining, by decide⟩,
   ⟨{ inRun .running with mark := { MarkUnit.reset with expected := some 24000 } }, 24000, 23499,
     by decide⟩,
   ⟨{ inRun .running with mark := { MarkUnit.reset with expected := some 24000, search := true } }, 24000,
     11999, by decide⟩,
   ⟨{ State.reset with mark := { MarkUnit.reset with levels := .all true } }, by decide⟩⟩

/-- An edge at the edge of the lane's window, one a tick beyond it, and one in ARMED. -/
theorem witness_LaneMarkIsMeasuredOrHeld :
    (∃ (s : State) (w : LaneWindow) (p : Pos), s.mark.levels.get 1 = false ∧
      s.wpu.direction = .forward ∧ s.job.laneActive 1 = true ∧ s.job.leadingLane ≠ 1 ∧
      s.jobs.run = .running ∧ s.mark.windows.get 1 = some w ∧ (dist w.centre p).natAbs = s.job.window) ∧
    (∃ (s : State) (w : LaneWindow) (p : Pos), s.mark.levels.get 1 = false ∧
      s.wpu.direction = .forward ∧ s.job.laneActive 1 = true ∧ s.job.leadingLane ≠ 1 ∧
      s.jobs.run = .draining ∧ s.mark.windows.get 1 = some w ∧
      (dist w.centre p).natAbs = s.job.window + 1) ∧
    ∃ s : State, s.mark.levels.get 1 = false ∧ s.wpu.direction = .forward ∧
      s.job.laneActive 1 = true ∧ s.job.leadingLane ≠ 1 ∧ s.jobs.run = .armed :=
  let m : MarkUnit := { MarkUnit.reset with windows := .all (some ⟨700, 24000⟩) }
  ⟨⟨{ inRun .running with mark := m }, ⟨700, 24000⟩, 23500, by decide⟩,
   ⟨{ inRun .draining with mark := m }, ⟨700, 24000⟩, 24501, by decide⟩, ⟨inRun .armed, by decide⟩⟩

/-- A count that brings the web to exactly E + W, and to the end of a search window; and one that brings it to
the end of a lane's pending window, and stops a tick short of it. -/
theorem witness_WindowCloseOpensAMissingRow :
    (∀ search : Bool, ∃ (s : State) (p : Bool × Bool) (a b : Bool) (e w : Pos), s.wpu.pair = some p ∧
      transition p (a, b) = .forward ∧
      w = (s.wpu.acc + BitVec.ofNat 48 s.wpu.scaleQ).extractLsb' 16 32 ∧ s.jobs.run = .running ∧
      s.mark.expected = some e ∧ s.track.length < 32 ∧ s.mark.search = search ∧
      dist w s.web < 0 ∧ 0 ≤ dist s.wpu.highWater w ∧
      w = if s.mark.search = true
        then moved (moved e (-((s.jobPitch / 2 : Nat) : Int))) s.jobPitch
        else moved e s.job.window) ∧
    ∀ c ∈ [((24000 : Pos), (0 : Int)), (24001, -1)], ∃ (s : State) (p : Bool × Bool) (a b : Bool)
      (w : Pos) (k : LaneWindow), s.wpu.pair = some p ∧ transition p (a, b) = .forward ∧
      w = (s.wpu.acc + BitVec.ofNat 48 s.wpu.scaleQ).extractLsb' 16 32 ∧
      s.jobs.run = .draining ∧ s.mark.windows.get 1 = some k ∧ k.row ≠ s.mark.nextRow ∧
      dist (moved k.centre s.job.window) s.web < 0 ∧ dist (moved k.centre s.job.window) w = c.2 := by
  refine ⟨fun search => ?_, fun c hc => ?_⟩
  · cases search
    · exact ⟨{ atWeb 24499 (inRun .running) with
        mark := { MarkUnit.reset with expected := some 24000 } }, (false, false), true, false, 24000,
        24500, by decide⟩
    · exact ⟨{ atWeb 35999 (inRun .running) with
        mark := { MarkUnit.reset with expected := some 24000, search := true } }, (false, false), true,
        false, 24000, 36000, by decide⟩
  · let lane (x : Pos) : State := { atWeb 24499 (inRun .draining) with
      mark := { MarkUnit.reset with windows := .all (some ⟨700, x⟩) } }
    fin_cases hc
    · exact ⟨lane 24000, (false, false), true, false, 24500, ⟨700, 24000⟩, by decide⟩
    · exact ⟨lane 24001, (false, false), true, false, 24500, ⟨700, 24001⟩, by decide⟩

/-- A run with a row on the track, numbered as a run numbers it: the hypothesis under which a hold's records
are stated (`recordsOfAHold`). -/
theorem witness_recordsOfAHold : ∃ s : State, s.engine.executing = none ∧ s.jobs.run = .running ∧
    s.wpu.pair = some (false, false) ∧ s.trackOk ∧ s.track.length = 1 :=
  ⟨{ inRun .running with
      mark := { MarkUnit.reset with lastOpened := 700, nextRow := 701 }
      track := [row 700 .stamp none] }, rfl, rfl, rfl,
    ⟨Nat.le_of_ble_eq_true rfl, (by decide : (701 : Word) ≠ 0), (by decide : (700 : Word) ≠ 0), rfl,
      (by decide : (701 : Word) = rowSucc 700)⟩, rfl⟩

/-- The same with a full track. -/
theorem witness_recordsOfAHold_full : ∃ s : State, s.trackOk ∧ s.track.length = 32 := by
  refine ⟨{ inRun .running with
      mark := { MarkUnit.reset with lastOpened := 731, nextRow := 732 }
      track := (List.range 32).map fun i => row (700 + BitVec.ofNat 32 i) .stamp none },
    ⟨Nat.le_of_ble_eq_true rfl, (by decide : (732 : Word) ≠ 0), ?_⟩, rfl⟩
  simp only [List.range, List.range.loop, List.map, numbered]
  repeat' constructor
  all_goals decide

/-- A count that brings the web to the close point of row 700, 10,625 ticks before its zone start at v8p 4,250
and a throw-on time of 20 ms, and one that stops a tick short of it (R90). -/
theorem witness_EncoderCountMovesTheWeb_close :
    ∀ w ∈ [((2991174 : Pos), Throw.closing), (2991173, .off)],
      ∃ s t : State, exec (.encoderCount true false) s = .next t ∧ t.web = w.1 + 1 ∧ s.web = w.1 ∧
        t.mark.nextRow = s.mark.nextRow ∧ t.jobs.run = .running ∧ (s.station 0).state = .tracking ∧
        (s.station 0).throw = .off ∧ stationQuiet s t 0 ∧ (t.station 0).throw = w.2 := by
  intro w hw
  refine ⟨{ onFoil w.1 .reset with track := [row 700 .stamp (some .struck)] }, _, rfl, ?_⟩
  unfold stationQuiet
  fin_cases hw <;> decide +kernel

/-- A part that runs with 32 rows on the track, the web and the high-water position at `w`. -/
def crowded (search : Bool) (w : Pos) : State :=
  let s := atWeb w (inRun .running)
  { s with
    wpu := { s.wpu with highWater := w }
    mark := { MarkUnit.reset with expected := some 24000, search := search }
    track := List.replicate 32 (row 700 .stamp none) }

/-- Leading marks that find 32 rows on the track: at either end of the leading window, beyond it, at either end of
the search window, and beyond it. -/
theorem witness_FullTrackHoldsTheRun :
    ∀ w ∈ [(false, (-500 : Int)), (false, 500), (false, 501), (false, 2 ^ 30), (true, -12000), (true, 11999),
        (true, 12000)],
      ∃ (s : State) (e p : Pos), s.mark.levels.get 0 = false ∧ s.wpu.direction = .forward ∧
        s.job.laneActive 0 = true ∧ s.job.leadingLane = 0 ∧ s.track.length = 32 ∧
        s.jobs.run = .running ∧ s.mark.expected = some e ∧ dist e p = w.2 ∧ dist e p ≤ 2 ^ 30 ∧
        (s.mark.search = false ∧ s.job.window ≤ 4000 ∧ -(s.job.window : Int) ≤ dist e p ∨
          s.mark.search = true ∧ s.jobPitch ≤ 80000 ∧ -((s.jobPitch / 2 : Nat) : Int) ≤ dist e p) := by
  intro w hw
  refine ⟨crowded w.1 0, 24000, 24000 + BitVec.ofInt 32 w.2, ?_⟩
  fin_cases hw <;> decide

/-- Counts that bring the web to the end of the leading and of the search window with 32 rows on the track. -/
theorem witness_FullTrackHoldsTheRun_count :
    ∀ x ∈ [(false, (24500 : Pos)), (true, 36000)], ∃ s : State, s.wpu.pair = some (false, false) ∧
      transition (false, false) (true, false) = .forward ∧ s.mark.search = x.1 ∧
      (s.wpu.acc + BitVec.ofNat 48 s.wpu.scaleQ).extractLsb' 16 32 = x.2 ∧
      s.track.length = 32 ∧ s.jobs.run = .running ∧ s.mark.expected = some 24000 ∧ dist x.2 s.web < 0 ∧
      x.2 = if s.mark.search = true
        then moved (moved 24000 (-((s.jobPitch / 2 : Nat) : Int))) s.jobPitch
        else moved 24000 s.job.window := by
  intro x hx
  refine ⟨crowded x.1 (x.2 - 1), ?_⟩
  fin_cases hx <;> decide

/-- The same counts with no row expected hold nothing. -/
theorem witness_FullTrackHoldsTheRun_hold :
    ∀ x ∈ [(false, (24500 : Pos)), (true, 36000)], ∃ s : State, s = crowded x.1 (x.2 - 1) ∧
      (after (.encoderCount true false) { s with mark := { s.mark with expected := none } }).map
        (fun u => (u.jobs.run, u.track.length)) = some (.running, 32) := by
  intro x hx
  refine ⟨_, rfl, ?_⟩
  fin_cases hx <;> decide +kernel

/-- A SPLICE, a SKIP and a STAMP row due at a TRACKING station, each at its commit point, and a row due at a
CATCHING one. -/
theorem witness_CommitDecidesTheOutcome :
    (∀ v ∈ [Verdict.stamp, .skip, .splice], ∀ x ∈ [StationState.tracking, .catching, .heatWait, .lifted, .faulted],
      ∃ (s : State) (front back : List RowCtx) (r : RowCtx) (e : StationEntry),
        s.track = front ++ r :: back ∧ (∀ q ∈ front ++ back, q.row ≠ r.row) ∧
        (∀ q ∈ front, q.committedAt 0 = true) ∧ r.stations.get 0 = some e ∧ e.committed = false ∧
        (s.station 0).state = x ∧ r.verdict = v ∧
        0 = dist (e.face + BitVec.ofInt 32 (e.zoneStartOff - s.pitch 0)) s.web ∧ back ≠ []) := by
  intro v _ x hx
  refine ⟨{ withStation { tracking with state := x } (atWeb 3001800 (inRun .running)) with
      track := [row 700 .stamp (some .struck), row 701 v none, row 702 .stamp none] },
    [row 700 .stamp (some .struck)], [row 702 .stamp none], row 701 v none, entry 3024000 none, rfl,
    ?_, ?_, rfl, rfl, rfl, rfl, ?_, ?_⟩ <;> cases v <;> decide +revert

/-- A strike at a station served by a channel that stands with nothing pending, its start point reached, and
by one whose list is full; and a row not struck after one whose zone end has been taken. -/
theorem witness_CommitDecidesTheOutcome_actions :
    (∃ s : State, (after (.commitEvent 0) s).map
        (fun t => ((t.channel 0).state, t.attn.has .foilLate, (t.station 0).throw)) =
      some (.rampUp, true, .closing)) ∧
    (∃ s : State, (s.channel 0).strokes.length = 24 ∧ (after (.commitEvent 0) s).map
        (fun t => ((t.channel 0).strokes.length, t.attn.has .foilLate)) = some (24, true)) ∧
    ∃ s : State, (after (.commitEvent 0) s).map (fun t => (t.station 0).throw) = some .opening :=
  let s := withStation tracking (atWeb 3001800 (inRun .running))
  let s := { s with wpu := { s.wpu with highWater := 3025900 }
                    track := [row 701 .stamp none, row 702 .stamp none] }
  let stroke : Stroke := { row := 699, startOff := 0, endOff := 100, images := 1 }
  let x : Channel := { Channel.reset with state := .standing, params := foil }
  let ended : StationEntry := { entry 3000000 (some .struck) with endTaken := true }
  ⟨⟨{ atWeb 3025900 s with channels := { Eight.all .reset with a0 := x }
                           wpu := { (atWeb 3025900 s).wpu with highWater := 3025900 } },
     by decide +kernel⟩,
   ⟨{ s with channels := { Eight.all .reset with a0 := { x with strokes := List.replicate 24 stroke } } },
     by decide +kernel⟩,
   ⟨{ withStation { tracking with throw := .on } s with
      track := [{ row 700 .stamp none with stations := ⟨some ended, none, none, none⟩ },
        row 701 .skip none, row 702 .skip none] }, by decide +kernel⟩⟩

/-- A commit that fell due before a shift moved its point beyond the web; and lists of images in order whose spans
meet and whose spans lie a tick apart. -/
theorem witness_CommitDecidesTheOutcome_owed :
    (∃ (s t : State) (r : RowCtx) (e : StationEntry), s.track = [] ++ r :: [] ∧ r.stations.get 0 = some e ∧
      e.committed = false ∧ (s.station 0).state = .tracking ∧ e.commitOwed = true ∧ ¬ s.commitReached 0 e ∧
      exec (.commitEvent 0) s = .next t ∧ t.entry? 0 700 ≠ some e) ∧
    ∀ w ∈ [(1200, 1), (1201, 2)], ∃ s : State,
      (∀ (a b : Image) (i j : Nat), i < j → (s.chanImages 0)[i]? = some a →
        (s.chanImages 0)[j]? = some b → a.start + a.len ≤ b.start) ∧
      (s.channel 0).params = foil ∧ (s.formStrokes 0 700).length = w.2 ∧
      (s.chanImages 0).map Image.start = [500, w.1] := by
  refine ⟨?_, fun w hw => ?_⟩
  · let e : StationEntry := { entry 3000000 none with commitOwed := true }
    let r : RowCtx := { row 700 .stamp none with stations := ⟨some e, none, none, none⟩ }
    refine ⟨{ onFoil 2977799 .reset with track := [r] }, _, r, e, rfl, rfl, rfl, rfl, rfl, ?_, rfl, ?_⟩
    · unfold State.commitReached
      decide +kernel
    · decide +kernel
  · let p : Plate := { plate with images := ⟨[⟨500, 500⟩, ⟨w.1, 300⟩], [], [], []⟩ }
    refine ⟨{ onFoil 0 { Channel.reset with params := foil } with
      jobs := { JobControl.reset with current := some { current with plates := ⟨some p, none, none, none⟩ } } },
      ?_, rfl, ?_, rfl⟩
    · intro a b i j hij ha hb
      change [(⟨500, 500⟩ : Image), ⟨w.1, 300⟩][i]? = some a at ha
      change [(⟨500, 500⟩ : Image), ⟨w.1, 300⟩][j]? = some b at hb
      match i, j, hij with
      | 0, 1, _ =>
        cases ha
        cases hb
        fin_cases hw <;> decide
      | _, j + 2, _ => cases hb
      | i + 1, 1, h => omega
    · fin_cases hw <;> decide +kernel

/-- Rows 700, 701 and 702 of section 5.10, and a SPLICE on either side. -/
theorem witness_SkipAndSpliceDistances :
    ∀ v ∈ [Verdict.stamp, .splice], ∀ i ∈ [0, 1, 2], ∃ (s : State) (front back : List RowCtx) (r : RowCtx)
      (e : StationEntry), s.track = front ++ r :: back ∧ front.length = i ∧ back.length = 2 - i ∧
      (∀ i j : Nat, i < j → j < s.track.length →
        (s.track.map RowCtx.row)[i]? ≠ (s.track.map RowCtx.row)[j]?) ∧
      r.stations.get 0 = some e ∧ (∀ q ∈ front ++ back, q.verdict = v) := by
  intro v _ i hi
  let x (n : Word) : RowCtx := row n v (some .struck)
  have distinct (n : Word) (k : Nat) (f : Word → RowCtx) (hf : ∀ m, (f m).row = m) :
      ∀ i j : Nat, i < j → j < 3 →
        ([f 700, f 701, f 702].map RowCtx.row)[i]? ≠ ([f 700, f 701, f 702].map RowCtx.row)[j]? := by
    intro i j hij hj
    interval_cases j <;> interval_cases i <;> simp [hf]
  let f (m : Word) (n : Word) : RowCtx := if n = m then row n .skip none else x n
  have hf (m n : Word) : (f m n).row = n := by
    by_cases h : n = m <;> simp [f, x, h, row]
  fin_cases hi
  · exact ⟨{ atWeb 3001800 (inRun .draining) with track := [f 700 700, f 700 701, f 700 702] }, [],
      [f 700 701, f 700 702], f 700 700, entry 3000000 none, rfl, rfl, rfl, distinct 0 0 (f 700) (hf 700), rfl,
      by simp [f, x, row]⟩
  · exact ⟨{ atWeb 3001800 (inRun .draining) with track := [f 701 700, f 701 701, f 701 702] }, [f 701 700],
      [f 701 702], f 701 701, entry 3024000 none, rfl, rfl, rfl, distinct 0 0 (f 701) (hf 701), rfl,
      by simp [f, x, row]⟩
  · exact ⟨{ atWeb 3001800 (inRun .draining) with track := [f 702 700, f 702 701, f 702 702] },
      [f 702 700, f 702 701], [], f 702 702, entry 3048000 none, rfl, rfl, rfl, distinct 0 0 (f 702) (hf 702), rfl,
      by simp [f, x, row]⟩

/-- CLOSING; OPENING with the web exactly at the close point of the next strike, and with no strike to come;
and a timer that has a millisecond to go. -/
theorem witness_ThrowTravelCompletes :
    (∃ s : State, (s.station 0).timer = 0 ∧ (s.station 0).throw = .closing) ∧
    (∃ (s : State) (r : RowCtx) (e : StationEntry), (s.station 0).timer = 0 ∧
      (s.station 0).throw = .opening ∧ (s.station 0).state = .tracking ∧ s.jobs.run = .running ∧
      s.track = [] ++ r :: [] ∧ r.stations.get 0 = some e ∧ e.struck = true ∧ e.endTaken = false ∧
      dist (moved (moved e.face e.zoneStartOff)
        (-(((s.wpu.v8p * (s.block 0).throwOn + 7) / 8 : Nat) : Int))) s.web = 0) ∧
    (∃ s : State, (s.station 0).timer = 0 ∧ (s.station 0).throw = .opening ∧ s.track = []) ∧
    ∃ s : State, (s.station 0).timer = 1 ∧ (s.station 0).throw = .opening :=
  ⟨⟨withStation { tracking with throw := .closing } .reset, by decide⟩,
   ⟨{ withStation { tracking with throw := .opening } (atWeb 2991175 (inRun .running)) with
      track := [row 700 .stamp (some .struck)] }, row 700 .stamp (some .struck),
     entry 3000000 (some .struck), by decide⟩,
   ⟨withStation { tracking with throw := .opening } .reset, by decide⟩,
   ⟨withStation { tracking with throw := .opening, timer := 1 } .reset, by decide⟩⟩

/-- A dwell count exactly at the limit. -/
theorem witness_LiftEventLiftsTheCylinder :
    ∃ s : State, (s.block 0).heated = true ∧ (s.station 0).state = .tracking ∧
      (s.station 0).throw = .on ∧ s.job.dwellLimit = (s.station 0).dwell :=
  ⟨withStation { tracking with throw := .on, dwell := 100 } (inRun .running), by decide⟩

/-- A lift that withdraws row 700's stroke from a channel that stands, which takes the next row's ramp up exactly at
its start point; and from one in its ramp down, which drops its plan. -/
theorem witness_withdrawn :
    ∃ s t : State, exec (.liftEvent 0) s = .next t ∧ s.losesStrike 0 700 = true ∧ s.losesStrike 0 701 = false ∧
      (s.chanStation 0 = some 0 ∧ s.chanStation 1 = some 0) ∧
      ((s.channel 0).state = .standing ∧ (∀ k ∈ (s.channel 0).strokes, s.losesStrike 0 k.row = true → k.row = 700) ∧
        (t.channel 0).state = .rampUp ∧ t.attn.has .foilLate = false) ∧
      (s.channel 1).state = .rampDown ∧ (s.channel 1).plan ≠ none ∧
        (∀ p ∈ (s.channel 1).plan, p.stroke ∈ (s.channel 1).strokes) ∧ (t.channel 1).plan = none :=
  let ended : StationEntry := { entry 3024000 (some .struck) with startTaken := true }
  let k : Stroke := ⟨701, 1900, 19100, 1⟩
  let x : Channel := { Channel.reset with state := .standing, params := foil, strokes := [strokes.1, k] }
  let two : Job := { job with channels := { job.channels with a1 := job.channels.a0 } }
  let s := onFoil (3025900 - 2824) x
  ⟨{ s with
      stations := (Four.all .reset).set 0 { tracking with throw := .on, dwell := 100 }
      jobs := { s.jobs with current := some { current with job := two } }
      track := [row 700 .stamp (some .struck), { row 701 .stamp none with stations := ⟨some ended, none, none, none⟩ }]
      channels := { s.channels with a1 :=
        { x with state := .rampDown, current := some strokes.1, plan := some ⟨strokes.1, 400⟩ } } },
    _, rfl, by decide +kernel⟩

/-- Heat lost in TRACKING with a throw that is ON and one that is OPENING already, in CATCHING, and in FAULTED; and
the other events of the heater. -/
theorem witness_HeaterEvents :
    (∀ w ∈ [(StationState.tracking, Throw.on, Throw.opening, 15), (.tracking, .opening, .opening, 7),
        (.catching, .off, .off, 7)],
      ∃ s : State, (s.station 0).heaterRun = 4 ∧ (s.station 0).heaterLevel = true ∧
        (s.block 0).heated = true ∧ (s.station 0).state = w.1 ∧ (s.station 0).throw = w.2.1 ∧
        (after (.heatLossEvent 0) s).map (fun t => ((t.station 0).throw, (t.station 0).timer)) =
          some w.2.2) ∧
    (∃ s : State, (s.station 0).heaterRun = 4 ∧ (s.station 0).heaterLevel = true ∧
      (s.block 0).heated = true ∧ (s.station 0).state = .tracking) ∧
    (∃ s : State, (s.station 0).heaterRun = 4 ∧ (s.station 0).heaterLevel = true ∧
      (s.block 0).heated = true ∧ (s.station 0).state = .faulted) ∧
    (∃ s : State, (s.station 0).heaterRun = 4 ∧ (s.station 0).heaterLevel = true ∧
      (s.block 0).heated = false) ∧
    (∃ s : State, (s.station 0).heaterRun = 4 ∧ (s.station 0).heaterLevel = false ∧
      (s.block 0).heated = true ∧ (s.station 0).state = .heatWait) ∧
    ∃ s : State, (s.station 0).heaterRun = 4 ∧ (s.station 0).heaterLevel = false ∧
      (s.station 0).state ≠ .heatWait :=
  let x : Station := { tracking with heaterRun := 4, heaterLevel := true, timer := 7 }
  ⟨fun w hw => by
    refine ⟨withStation { x with state := w.1, throw := w.2.1 } (inRun .running), ?_⟩
    fin_cases hw <;> decide +kernel, ⟨withStation x (inRun .running), by decide⟩,
   ⟨withStation { x with state := .faulted } (inRun .running), by decide⟩,
   ⟨withStation x .reset, by decide⟩,
   ⟨withStation { x with heaterLevel := false, state := .heatWait } (inRun .running), by decide⟩,
   ⟨withStation { x with heaterLevel := false } (inRun .running), by decide⟩⟩

/-- A first index with rows on the track, one whose zone has started and one to be placed anew. -/
theorem witness_IndexEdgeSetsOrChecksTheDie_rows :
    ∃ s : State, (s.station 0).indexLevel = false ∧ (s.station 0).state = .catching ∧
      s.wpu.direction = .forward ∧ (s.gen (.cylinder 0)).owed = 0 ∧ (s.station 0).indexSeen = false ∧
      s.track.length = 2 ∧
      ∀ q ∈ s.track, ∀ e ∈ q.stations.get 0,
        (e.startDue = true → e.startTaken = true) ∧ (e.endDue = true → e.endTaken = true) ∧
        (e.startTaken = false →
          let f := nearest (moved 3000007 (s.block 0).indexOffset)
            (moved q.lead (s.block 0).distance) (s.pitch 0)
          dist (moved f e.zoneStartOff) s.web < 0 ∧ dist (moved f e.zoneEndOff) s.web < 0) :=
  let e : StationEntry := { entry 3000000 (some .catching) with startTaken := true }
  ⟨{ withStation { tracking with state := .catching, indexSeen := false } (atWeb 3001800 (inRun .running)) with
      track := [{ row 700 .stamp none with stations := ⟨some e, none, none, none⟩ },
        row 701 .stamp none] }, by decide +kernel⟩

/-- A first index that places row 700 with its commit point exactly at the web, where row 701 follows it. -/
theorem witness_IndexEdgeSetsOrChecksTheDie_latch :
    ∃ s t : State, exec (.indexEdge 0 true 3001500) s = .next t ∧ (s.station 0).indexLevel = false ∧
      (s.station 0).state = .catching ∧ s.wpu.direction = .forward ∧ (s.gen (.cylinder 0)).owed = 0 ∧
      (s.station 0).indexSeen = false ∧
      (∀ q ∈ s.track, ∀ e ∈ q.stations.get 0, e.startDue = false ∧ e.endDue = false ∧ e.startTaken = false ∧
        dist (moved (nearest 3000000 (moved q.lead (s.block 0).distance) (s.pitch 0)) e.zoneStartOff) s.web < 0) ∧
      t.track.map (fun q => (q.stations.get 0).map StationEntry.commitOwed) = [some true, some false] :=
  ⟨{ withStation { tracking with state := .catching, indexSeen := false } (atWeb 2977800 (inRun .running)) with
      track := [row 700 .stamp none, row 701 .stamp none] }, _, rfl, by decide +kernel⟩

/-- First indexes that bring the zone start of row 700, and its zone end, to the web from a tick beyond it, where no
other row has a zone event; the row's die face was a tick later before. -/
theorem witness_IndexEdgeSetsOrChecksTheDie_zones :
    ∀ w ∈ [((3001800 : Pos), true, false, none), (3019200, true, true, some (0 : Int))],
      ∃ s t : State, after (.indexEdge 0 true 3001500) s = some t ∧ s.trackOk ∧ zonesTakenAlone s t 0 700 ∧
        ((s.station 0).indexLevel = false ∧ (s.station 0).state = .catching ∧ s.wpu.direction = .forward ∧
          (s.gen (.cylinder 0)).owed = 0 ∧ (s.station 0).indexSeen = false ∧ s.web = w.1) ∧
        (∃ q ∈ s.track, q.row = 700 ∧ ∃ e ∈ q.stations.get 0, e.startTaken = false ∧ e.endTaken = false ∧
          dist e.zoneStart s.web = (if w.2.2.1 = true then 17399 else -1) ∧
          dist e.zoneEnd s.web = (if w.2.2.1 = true then -1 else -17401)) ∧
        (t.entry? 0 700).map (fun e => (e.startTaken, e.endTaken, e.error)) = some w.2 := by
  intro w hw
  let s (p : Pos) (due : Bool) : State :=
    { withStation { tracking with state := .catching, indexSeen := false } (atWeb p (inRun .running)) with
      mark := { MarkUnit.reset with lastOpened := 701, nextRow := 702 }
      track := [{ row 700 .stamp none with
        stations := ⟨some { entry 3000001 (some .catching) with startDue := due }, none, none, none⟩ },
        row 701 .stamp none] }
  have ok : ∀ p b, (s p b).trackOk := fun _ _ =>
    ⟨Nat.le_of_ble_eq_true rfl, (by decide : (702 : Word) ≠ 0), (by decide : (700 : Word) ≠ 0), rfl,
      (by decide : (701 : Word) ≠ 0), rfl, (by decide : (702 : Word) = rowSucc 701)⟩
  unfold zonesTakenAlone
  fin_cases hw
  · exact ⟨s 3001800 false, ((s 3001800 false).setIndexLevel 0 true).indexEvent 0 3001500, by decide +kernel, ok _ _,
      by decide +kernel, by decide +kernel⟩
  · exact ⟨s 3019200 true, ((s 3019200 true).setIndexLevel 0 true).indexEvent 0 3001500, by decide +kernel, ok _ _,
      by decide +kernel, by decide +kernel⟩

/-- A slip in TRACKING that takes a strike not started, one in CATCHING, and an input that falls. -/
theorem witness_IndexEdgeSetsOrChecksTheDie_slip :
    (∀ w ∈ [(StationState.tracking, RowOutcome.faulted), (.catching, .struck)],
      ∃ s : State, (s.station 0).indexLevel = false ∧ (s.station 0).state = w.1 ∧
        s.wpu.direction = .forward ∧ (s.gen (.cylinder 0)).owed = 0 ∧
        (s.station 0).indexSeen = true ∧ 0 < (s.plate 0).faces * (s.plate 0).pitch ∧
        s.track = [row 700 .stamp (some .struck)] ∧
        (after (.indexEdge 0 true 1541) s).map (fun t => ((t.station 0).fault,
          t.track.map fun r => (r.stations.get 0).bind StationEntry.outcome)) = some (true, [some w.2])) ∧
    ∃ u : State, (u.station 0).indexLevel = true := by
  let s (x : StationState) : State :=
    { withStation { tracking with state := x } (inRun .running) with
      track := [row 700 .stamp (some .struck)] }
  refine ⟨fun w hw => ?_, withStation { tracking with indexLevel := true } .reset, rfl⟩
  fin_cases hw
  · exact ⟨s .tracking, by decide +kernel⟩
  · exact ⟨s .catching, by decide +kernel⟩

/-- An edge discarded, a first index, and slip checks at the tolerance and a tick beyond it. -/
theorem witness_IndexEdgeSetsOrChecksTheDie :
    (∃ s : State, (s.station 0).indexLevel = false ∧ (s.station 0).state = .faulted) ∧
    (∃ s : State, (s.station 0).indexLevel = false ∧ (s.station 0).state = .catching ∧
      s.wpu.direction = .forward ∧ (s.gen (.cylinder 0)).owed = 0 ∧ (s.station 0).indexSeen = false ∧
      s.track = [] ∧ (∀ c, (s.channel c).strokes = []) ∧ (∀ c, (s.channel c).plan = none) ∧
      ∀ c, (s.channel c).state ≠ .sync) ∧
    ∃ (s : State) (p q : Pos), (s.station 0).indexLevel = false ∧ (s.station 0).state = .tracking ∧
      s.wpu.direction = .forward ∧ (s.gen (.cylinder 0)).owed = 0 ∧ (s.station 0).indexSeen = true ∧
      0 < (s.plate 0).faces * (s.plate 0).pitch ∧
      (moved p (s.block 0).indexOffset - (s.station 0).base).toInt = (s.block 0).slipTol ∧
      (moved q (s.block 0).indexOffset - (s.station 0).base).toInt = (s.block 0).slipTol + 1 :=
  ⟨⟨withStation { tracking with state := .faulted } (inRun .running), by decide⟩,
   ⟨withStation { tracking with state := .catching, indexSeen := false } (inRun .armed), by decide⟩,
   ⟨withStation tracking (inRun .running), 1540, 1541, by decide⟩⟩

/-- An absent error; and at a TRACKING and at a CATCHING station a row found and a row missing. -/
theorem witness_ErrorAndTrimAtAZoneEnd :
    (∃ s : State, 0 < s.pitch 0 ∧ (s.station 0).indexSeen = false) ∧
    (∃ s : State, 0 < s.pitch 0 ∧ (s.station 0).indexSeen = true ∧ (s.station 0).state = .tracking) ∧
    (∃ s : State, 0 < s.pitch 0 ∧ (s.station 0).indexSeen = true ∧ (s.station 0).state = .catching) ∧
    (∃ r : RowCtx, r.status = .missing) ∧ ∃ r : RowCtx, r.status ≠ .missing :=
  ⟨⟨inRun .running, by decide⟩, ⟨withStation tracking (inRun .running), by decide⟩,
   ⟨withStation { tracking with state := .catching } (inRun .running), by decide⟩,
   ⟨{ row 700 .stamp none with status := .missing }, rfl⟩, ⟨row 700 .stamp none, by decide⟩⟩

/-- A row not committed at its zone start, with no successor: with the verdict STAMP it is struck late with its
throw OFF and in time with it ON, and with the verdict SKIP it is skipped (R81, R87). -/
theorem witness_ErrorAndTrimAtAZoneEnd_overdue :
    ∀ w ∈ [(Verdict.stamp, Throw.off, RowOutcome.struckLate), (.stamp, .on, .struck), (.skip, .off, .skipped)],
      ∃ (s : State) (r : RowCtx) (e : StationEntry), s.track = [] ++ r :: [] ∧ r.stations.get 0 = some e ∧
        e.committed = false ∧ (s.station 0).throw = w.2.1 ∧
        ((s.zoneStartEvent 0 r.row).entry? 0 r.row).bind StationEntry.outcome = some w.2.2 := by
  intro w hw
  refine ⟨{ withStation { tracking with throw := w.2.1 } (atWeb 3001800 (inRun .running)) with
      track := [row 700 w.1 none] }, row 700 w.1 none, entry 3000000 none, rfl, rfl, rfl, rfl, ?_⟩
  fin_cases hw <;> decide +kernel

/-- A strike at its zone end with the throw ON: followed by a row not yet committed the throw stays, followed by
one that is skipped it opens, and as the last row of a run that drains it opens; and an error a tick beyond twice
the catch band takes the station from TRACKING, which opens it too and renames the strike after it. A shift that
brings the close point of row 700 to the web closes the throw (R77, R90, R91). -/
theorem witness_ErrorAndTrimAtAZoneEnd_throw :
    (∀ w ∈ [((3000000 : Pos), RunState.running, [row 701 .skip none], Throw.on, StationState.tracking),
        (3000000, .running, [row 701 .skip (some .skipped)], .opening, .tracking),
        (3000000, .draining, [], .opening, .tracking),
        (3000200, .running, [row 701 .stamp (some .struck)], .on, .tracking),
        (3000201, .running, [row 701 .stamp (some .struck)], .opening, .catching)],
      ∃ (s : State) (r : RowCtx) (e : StationEntry), s.track = [] ++ r :: w.2.2.1 ∧
        r.stations.get 0 = some e ∧ e.struck = true ∧ (s.station 0).throw = .on ∧
        (s.station 0).state = .tracking ∧ s.jobs.run = w.2.1 ∧ s.mark.lastOpened = 700 ∧
        (((s.zoneEndEvent 0 r.row).station 0).throw, ((s.zoneEndEvent 0 r.row).station 0).state) =
          w.2.2.2) ∧
    ∃ s : State, (s.station 0).state = .tracking ∧ s.jobs.run = .running ∧ (s.station 0).throw = .off ∧
      ((s.shift 0 (-1)).station 0).throw = .closing ∧ ((s.shift 0 1).station 0).throw = .off := by
  refine ⟨fun w hw => ?_, onFoil 2991174 .reset, by decide +kernel⟩
  let e : StationEntry := { entry w.1 (some .struck) with startTaken := true }
  let r : RowCtx := { row 700 .stamp none with stations := ⟨some e, none, none, none⟩ }
  refine ⟨{ withStation { tracking with throw := .on, base := w.1 } (atWeb 3019200 (inRun w.2.1)) with
      mark := { MarkUnit.reset with lastOpened := 700 }, track := r :: w.2.2.1 }, r, e, rfl, rfl, rfl, rfl, rfl,
    rfl, rfl, ?_⟩
  fin_cases hw <;> decide +kernel

/-- A committed row at its zone start and zone end; a remainder that carries a shift; and counts that bring the
web to a zone start and to a zone end. -/
theorem witness_ErrorAndTrimAtAZoneEnd_events :
    (∃ (s : State) (r : RowCtx) (e : StationEntry), s.track = [] ++ r :: [] ∧
      r.stations.get 0 = some e ∧ e.committed = true) ∧
    (∃ s : State, 0 < (s.block 0).steps ∧ (s.station 0).drift + 1 * (s.station 0).rho =
      65536 * ((s.block 0).steps : Int)) ∧
    ∀ w ∈ [((3001799 : Pos), true, false), (3019199, true, true)], ∃ (s : State) (a b : Bool), s.trackOk ∧
      (s.station 0).state ≠ .inactive ∧ s.web = w.1 ∧
      (after (.encoderCount a b) s).map (fun t => (t.web, t.jobs.run,
        (t.entry? 0 700).map fun e => (e.startTaken, e.endTaken))) =
        some (w.1 + 1, .running, some w.2) := by
  refine ⟨⟨{ State.reset with track := [row 700 .stamp (some .struck)] }, row 700 .stamp (some .struck),
      entry 3000000 (some .struck), rfl, rfl, rfl⟩,
    ⟨withStation { tracking with rho := 6553600000 } (inRun .running), by decide⟩, ?_⟩
  intro w hw
  let onRow (p : Pos) (started : Bool) : State :=
    { withStation { tracking with throw := .on } (atWeb p (inRun .running)) with
      mark := { MarkUnit.reset with lastOpened := 700, nextRow := 701 }
      track := [{ row 700 .stamp none with
        stations := ⟨some { entry 3000000 (some .struck) with startTaken := started }, none, none, none⟩ }] }
  have ok : ∀ p b, (onRow p b).trackOk := fun _ _ =>
    ⟨Nat.le_of_ble_eq_true rfl, (by decide : (701 : Word) ≠ 0), (by decide : (700 : Word) ≠ 0), rfl,
      (by decide : (701 : Word) = rowSucc 700)⟩
  fin_cases hw
  · exact ⟨onRow 3001799 false, true, false, ok _ _, by decide +kernel⟩
  · exact ⟨onRow 3019199 true, true, false, ok _ _, by decide +kernel⟩

/-- Counts that bring the web to the zone end of row 700 alone, with no drift shift and with one of a tick: its
error is that of its face after the shift, and its trim is the error, beyond the dead band. -/
theorem witness_ErrorAndTrimAtAZoneEnd_count :
    ∀ w ∈ [((0 : Int), (3000020 : Pos), (20 : Int)), (6553600000, 3000021, 21)],
      ∃ s t : State, exec (.encoderCount true false) s = .next t ∧ s.trackOk ∧ t.web ≠ s.web ∧
        t.jobs.run = .running ∧ (s.station 0).state ≠ .inactive ∧ zonesTakenAlone s t 0 700 ∧
        ((s.station 0).drift + dist s.web t.web * (s.station 0).rho).tdiv
          (65536 * ((s.block 0).steps : Int)) = (if w.1 = 0 then 0 else 1) ∧
        (∃ r ∈ s.track, r.row = 700 ∧ ∃ e ∈ r.stations.get 0, e.endTaken = false ∧
          dist e.zoneEnd s.web < 0 ∧ 0 ≤ dist e.zoneEnd t.web) ∧
        (t.entry? 0 700).map (fun e => (e.face, e.error, e.trim)) = some (w.2.1, some w.2.2, w.2.2) := by
  intro w hw
  let s (rho : Int) : State :=
    { withStation { tracking with rho := rho, throw := .on } (atWeb 3019219 (inRun .running)) with
      mark := { MarkUnit.reset with lastOpened := 701, nextRow := 702 }
      track := [{ row 700 .stamp none with
        stations := ⟨some { entry 3000020 (some .struck) with startTaken := true }, none, none, none⟩ },
        row 701 .stamp none] }
  have ok : ∀ rho, (s rho).trackOk := fun _ =>
    ⟨Nat.le_of_ble_eq_true rfl, (by decide : (702 : Word) ≠ 0), (by decide : (700 : Word) ≠ 0), rfl,
      (by decide : (701 : Word) ≠ 0), rfl, (by decide : (702 : Word) = rowSucc 701)⟩
  unfold zonesTakenAlone
  fin_cases hw
  · exact ⟨s 0, _, rfl, ok _, by decide +kernel⟩
  · exact ⟨s 6553600000, _, rfl, ok _, by decide +kernel⟩

theorem witness_RearmStationPutsItBack :
    (∃ (s : State) (arg : BitVec 16), s.engine.executing = none ∧ arg.toNat = 4) ∧
    (∃ (s : State) (arg : BitVec 16) (st : Fin 4), s.engine.executing = none ∧ arg.toNat = st ∧
      (s.station st).state ≠ .faulted) ∧
    ∃ (s : State) (arg : BitVec 16) (st : Fin 4), s.engine.executing = none ∧ arg.toNat = st ∧
      (s.station st).state = .faulted :=
  ⟨⟨.reset, 4, by decide⟩, ⟨.reset, 3, 3, by decide⟩,
   ⟨withStation { tracking with state := .faulted } (inRun .running), 0, 0, by decide⟩⟩

theorem witness_RefillFoilDeclaresTheRoll :
    (∃ (s : State) (arg : BitVec 16), s.engine.executing = none ∧ arg.toNat = 8) ∧
    (∃ (s : State) (arg : BitVec 16), s.engine.executing = none ∧ arg.toNat = 7 ∧ s.mem.nat 4 0x108 = 0) ∧
    ∃ (s : State) (arg : BitVec 16) (c : Fin 8), s.engine.executing = none ∧ arg.toNat = c ∧
      s.mem.nat 4 0x108 ≠ 0 :=
  ⟨⟨.reset, 8, by decide⟩, ⟨.reset, 7, by decide⟩, ⟨{ State.reset with mem := [(0x108, 1)] }, 7, 7, by decide⟩⟩

/-- Parameters at the least of their ranges, and the shortest ramp. -/
theorem witness_RampsTravelExactly :
    (∃ p : FoilParams, p.accel = 1 ∧ p.minRamp = 2 ∧ p.minRamp % 2 = 0) ∧
      ∃ half k : Nat, half = 1 ∧ 1 ≤ k ∧ k ≤ 2 * half :=
  ⟨⟨{ FoilParams.zero with accel := 1, minRamp := 2 }, by decide⟩, ⟨1, 2, by decide⟩⟩

/-- A count of one tick that does nothing else to a channel: in a ramp up two ticks and one tick from its end, short
of the stroke's end and at it; in a ramp down two ticks and one tick from its end, with nothing pending and with a
plan whose start point it passes; and standing two ticks and one tick from the start point, by the list and by a
plan. -/
theorem witness_RampsTravelExactly_count :
    let up : Channel := { Channel.reset with
      state := .rampUp, params := foil, rampLen := 400, rampProgress := 399, current := some strokes.1 }
    let down : Channel := { up with state := .rampDown }
    let stand : Channel := { Channel.reset with state := .standing, params := foil, strokes := [strokes.2] }
    let planned : Plan := { stroke := strokes.2, len := 400 }
    ∀ w ∈ [({ up with rampProgress := 398 }, (3001899 : Pos), ChannelState.rampUp), (up, 3001899, .sync),
        (up, 3019099, .rampDown), ({ down with rampProgress := 398 }, 3019500, .rampDown),
        (down, 3019500, .standing),
        ({ down with strokes := [strokes.2], plan := some planned }, 3001500, .rampUp),
        (stand, 2999074, .standing), (stand, 2999075, .rampUp),
        ({ stand with plan := some planned }, 3001498, .standing),
        ({ stand with plan := some planned }, 3001499, .rampUp)],
      ∃ s t : State, exec (.encoderCount true false) s = .next t ∧ s.channel 0 = w.1 ∧
        (s.channel 0).fraction < 65536 ∧ undisturbed s t 0 ∧ (dist s.wpu.highWater t.wpu.highWater).toNat = 1 ∧
        s.chanFace 0 700 = some 3000000 ∧ (t.channel 0).state = w.2.2 := by
  intro up down stand planned w hw
  refine ⟨onFoil w.2.1 w.1, _, rfl, rfl, ?_⟩
  unfold undisturbed stationQuiet
  fin_cases hw <;> decide +kernel

/-- A tick that comes to the threshold, one that runs the roll out, and one that does neither. -/
theorem witness_FoilTickIsAccountedFor :
    ∃ (s : State), (0 < (s.channel 0).params.threshold ∧
        (s.channel 0).remaining - 1 ≤ (s.channel 0).params.threshold ∧ (s.channel 0).lowArmed = true) ∧
      ((s.channel 1).remaining ≤ 1 ∧ (s.channel 1).out = false) ∧ 1 < (s.channel 2).remaining ∧
        (s.channel 2).params.threshold = 0 :=
  ⟨{ State.reset with channels := { Eight.all .reset with
      a0 := { Channel.reset with remaining := 5001, params := foil }
      a1 := { Channel.reset with remaining := 1 }, a2 := { Channel.reset with remaining := 2 } } },
    by decide⟩

/-- The row that a foil tick is charged to: the current stroke's in RAMP_UP, SYNC and RAMP_DOWN, that of the stroke
merged out of, and none after a hold (R123). -/
theorem witness_FoilTickIsAccountedFor_row :
    let k : Stroke := ⟨700, 0, 100, 1⟩
    let q : Stroke := ⟨701, 0, 100, 1⟩
    ∀ w ∈ [(ChannelState.rampUp, some k, none, [1, 0]), (.sync, some k, none, [1, 0]),
        (.rampDown, some k, none, [1, 0]), (.sync, some q, some k, [1, 0]), (.rampDown, none, none, [0, 0])],
      ∃ s : State, (s.channel 0).state = w.1 ∧ (s.channel 0).current = w.2.1 ∧
        (s.channel 0).mergingFrom = w.2.2.1 ∧
        (s.foilTick 0).track.map (fun r => (r.channels.get 0).elim 9 ChannelEntry.foilUsed) = w.2.2.2 := by
  intro k q w hw
  let charges : Eight (Option ChannelEntry) :=
    { Eight.all none with a0 := some { foilUsed := 0, hops := 0, merges := 0, late := false } }
  refine ⟨{ onFoil 3000000 { Channel.reset with
      state := w.1, params := foil, current := w.2.1, mergingFrom := w.2.2.1 } with
      track := [{ row 700 .stamp none with channels := charges },
        { row 701 .stamp none with channels := charges }] }, rfl, rfl, rfl, ?_⟩
  fin_cases hw <;> decide +kernel

/-- A count with a channel in SYNC short of its stroke's end by a tick more than the count, one STANDING with
nothing pending, and one IDLE. -/
theorem witness_FoilTickIsAccountedFor_count :
    ∃ (s t : State) (f : Pos) (k : Stroke), exec (.encoderCount true false) s = .next t ∧
      (s.channel 0).state = .sync ∧ (s.channel 0).current = some k ∧ s.chanFace 0 k.row = some f ∧
      dist (moved f k.endOff) s.wpu.highWater = -2 ∧ dist (moved f k.endOff) t.wpu.highWater = -1 ∧
      (s.channel 1).state = .standing ∧ (s.channel 1).strokes = [] ∧ (s.channel 1).plan = none ∧
      (s.channel 1).fraction = 65535 ∧ (s.channel 2).state = .idle :=
  let s := atWeb 3000098 (inRun .running)
  let x : Channel := { Channel.reset with state := .sync, params := foil, current := some ⟨700, 0, 100, 1⟩ }
  ⟨{ s with
      wpu := { s.wpu with highWater := 3000098 }
      track := [row 700 .stamp (some .struck)]
      channels := { Eight.all .reset with
        a0 := x, a1 := { Channel.reset with state := .standing, fraction := 65535 } } },
    _, 3000000, ⟨700, 0, 100, 1⟩, rfl, by decide +kernel⟩

/-- An empty list; a gap of exactly twice the ramp plus Dmin; and one a tick short of it. -/
theorem witness_StrokeEndHopsOrMerges :
    ∀ extra ∈ [((-22700 : Int), 0), (-22701, 1)], ∃ (s : State) (c : Fin 8) (fx fy : Pos) (x y : Stroke),
      s.chanFace c x.row = some fx ∧ (s.channel c).strokes = [y] ∧ s.chanFace c y.row = some fy ∧
      (moved fy y.startOff - moved fx x.endOff).toInt + extra.2 =
        2 * rampLength s.wpu.v8p (s.channel c).params + (s.channel c).params.dmin := by
  intro extra h
  refine ⟨{ inRun .running with
      track := [row 700 .stamp (some .struck), row 701 .stamp (some .struck)]
      channels := { Eight.all .reset with
        a0 := { Channel.reset with
          state := .sync, params := foil, strokes := [⟨701, extra.1, 2000, 1⟩] } } },
    0, 3000000, 3024000, ⟨700, 0, 100, 1⟩, ⟨701, extra.1, 2000, 1⟩, rfl, rfl, rfl, ?_⟩
  fin_cases h <;> decide +kernel

/-- Counts of one tick that come to the end of the current stroke of a channel in SYNC: with nothing pending, with a
gap of exactly twice the ramp plus Dmin, and with a gap a tick short of it. -/
theorem witness_StrokeEndHopsOrMerges_count :
    ∀ w ∈ [(([] : List Stroke), ChannelState.rampDown, false, (0, 254)),
        ([⟨700, 25148, 26000, 1⟩], .rampDown, true, (1, 254)),
        ([⟨700, 25147, 26000, 1⟩], .sync, false, (0, 255))],
      ∃ s t : State, exec (.encoderCount true false) s = .next t ∧ undisturbed s t 0 ∧
        ((s.channel 0).state = .sync ∧ (s.channel 0).current = some strokes.1 ∧ (s.channel 0).strokes = w.1 ∧
          s.chanFace 0 700 = some 3000000 ∧
          (dist s.wpu.highWater (moved 3000000 strokes.1.endOff)).toNat = 1 ∧
          (dist s.wpu.highWater t.wpu.highWater).toNat = 1) ∧
        (∀ y ∈ w.1, -(2 ^ 30) ≤ dist (moved 3000000 y.startOff) s.wpu.highWater ∧
          dist (moved 3000000 y.startOff) s.wpu.highWater ≤ 2 ^ 30 ∧
          -(2 ^ 30) ≤ dist (moved 3000000 y.endOff) s.wpu.highWater ∧
          dist (moved 3000000 y.endOff) t.wpu.highWater < 0) ∧
        (t.channel 0).state = w.2.1 ∧ (t.channel 0).plan.isSome = w.2.2.1 ∧
        t.track.map (fun r => (r.channels.get 0).map fun e => (e.hops, e.merges)) = [some w.2.2.2] := by
  intro w hw
  let charges : Eight (Option ChannelEntry) :=
    { Eight.all none with a0 := some { foilUsed := 0, hops := 0, merges := 254, late := false } }
  refine ⟨{ onFoil 3019099 { Channel.reset with
      state := .sync, params := foil, current := some strokes.1, strokes := w.1 } with
      track := [{ row 700 .stamp (some .struck) with channels := charges }] }, _, rfl, ?_⟩
  unfold undisturbed stationQuiet
  fin_cases hw <;> exact ⟨by decide +kernel, by decide +kernel, by decide +kernel⟩

/-- A head that is not ready, its zone end at the web; and one that is, a tick behind it, with a record that
laps, one that tallies, and a drained run. -/
theorem witness_RetirementWritesTheRecord :
    (∃ (s : State) (r : RowCtx) (rest : List RowCtx) (e : StationEntry), s.track = r :: rest ∧
      (s.station 0).state ≠ .inactive ∧ r.stations.get 0 = some e ∧
      dist s.web (moved e.face e.zoneEndOff) = 0) ∧
    ∃ (s : State) (r : RowCtx) (rest : List RowCtx), s.track = r :: rest ∧
      (∀ st, ∀ e ∈ r.stations.get st, dist s.web (moved e.face e.zoneEndOff) = -1) ∧
      (∀ c, (s.channel c).strokes = [] ∧ (s.channel c).current = none ∧
        (s.channel c).mergingFrom = none) ∧
      0 < (r.row - 128 - s.mem.word 0x100).toInt ∧ s.job.tallyRows = some 10 ∧
      (r.row - s.jobs.firstRow + 1).toNat % 10 = 0 ∧ s.jobs.run = .draining ∧ rest = [] :=
  let s := { withStation tracking (inRun .draining) with track := [row 709 .stamp (some .struck)] }
  ⟨⟨atWeb 3235200 s, row 709 .stamp (some .struck), [], entry 3216000 (some .struck), rfl, by decide,
     rfl, by decide⟩,
   ⟨atWeb 3235201 { s with jobs := { s.jobs with firstRow := 700 } }, row 709 .stamp (some .struck), [],
     rfl, by decide +kernel, by decide, by decide, by decide, by decide, rfl, rfl⟩⟩

/-- A retirement that sets no cause: one whose record comes to the last place the line controller has taken, in a run
with no tally due and rows to come. -/
theorem witness_RetirementWritesTheRecord_quiet :
    ∃ (s : State) (r : RowCtx) (rest : List RowCtx), s.track = r :: rest ∧ rest ≠ [] ∧
      s.jobs.run = .draining ∧ s.headReady = true ∧
      (r.row - 128 - s.mem.word 0x100).toInt = 0 ∧ s.job.tallyRows = some 10 ∧
      (r.row - s.jobs.firstRow + 1).toNat % 10 = 9 ∧
      (after .retirementEvent s).map (fun t => t.attn) = some s.attn :=
  let s := withStation tracking (inRun .draining)
  ⟨atWeb 3211201 { s with
      track := [row 708 .stamp (some .struck), row 709 .stamp (some .struck)], mem := [(0x100, 68), (0x101, 2)]
      jobs := { s.jobs with firstRow := 700 } },
    row 708 .stamp (some .struck), [row 709 .stamp (some .struck)], by decide +kernel⟩

/-- The values at the ends of the signed fields of a record fit them, and the next ones do not; and a late flag that
a record shows, and one that it does not (`State.recordShown`). -/
theorem witness_recordShown :
    (∀ p ∈ [(14, (4000 : Int)), (14, 8191), (14, -8192), (18, 131071), (18, -131072), (20, 524287),
        (20, -524288)], fits p.1 p.2) ∧
    (∀ p ∈ [(18, (131072 : Int)), (18, -131073)], ¬ fits p.1 p.2) ∧
    let e : ChannelEntry := { foilUsed := 0, hops := 0, merges := 0, late := true }
    (inRun .running).showsLate (row 700 .stamp (some .struck)) 0 e ∧
      (inRun .running).showsLate (row 700 .stamp (some .lifted)) 0 { e with foilUsed := 1 } ∧
      ¬ (inRun .running).showsLate (row 700 .stamp (some .lifted)) 0 e := by
  refine ⟨by unfold fits; decide, by unfold fits; decide, ⟨rfl, .inr ⟨0, entry 3000000 (some .struck), .struck,
    rfl, rfl, rfl, by decide⟩⟩, ⟨rfl, .inl (by decide)⟩, ?_⟩
  rintro ⟨-, h | ⟨st, x, o, h1, h2, h3, h4⟩⟩
  · cases h
  · have : st = 0 := by
      have h : (inRun .running).chanStation 0 = some 0 := by decide
      rw [h] at h1; exact (Option.some.inj h1).symm
    subst this
    cases h2
    cases h3
    simp at h4

/-- Every result and every state of CMD_STATUS is one that an engine can hold (`State.statusShown`). -/
theorem witness_statusShown :
    (∀ p ∈ resultCodes, ∃ s : State, s.engine.result = p.1) ∧
      ∀ p ∈ [(CmdPhase.idle, 0), (.executing, 1), (.done, 2)], ∃ s : State, s.engine.phase = p.1 :=
  ⟨fun p _ => ⟨{ State.reset with engine := { Engine.reset with result := p.1 } }, rfl⟩,
   fun p _ => ⟨{ State.reset with engine := { Engine.reset with phase := p.1 } }, rfl⟩⟩

/-- A part at work: a run under way with a row on the track, a TRACKING station with its throw ON, a channel
in SYNC, a plate being saved to a slot the run does not use, and a command to be served. -/
def atWork : State :=
  { executing (.plateSave 1 record) (withStation { tracking with throw := .on } (inRun .running)) with
    mem := [(0x100, 1)]
    mark := { MarkUnit.reset with nextRow := 701, lastOpened := 700, expected := some 24000 }
    track := [row 700 .splice (some .spliceCleared)]
    channels := { Eight.all .reset with
      a0 := { Channel.reset with state := .sync, params := foil, current := some strokes.1 }
      a1 := { Channel.reset with state := .rampDown, strokes := [strokes.2], plan := some ⟨strokes.2, 400⟩ } }
    pending := [.resumeRun 0] }

/-- The part at work answers a next state, so the statements of what every step keeps are not empty. -/
theorem witness_step_of_the_part_at_work : ∃ t, step atWork = .next t := ⟨_, rfl⟩

theorem witness_StorageStaysCanonical : atWork.storageOk := by
  refine ⟨by decide, by unfold Memory.below; decide, by decide, ?_, ?_⟩
  · intro x hx
    have ok : ∀ x ∈ atWork.store, x.record.wf = true ∧ ∀ c ∈ x.record, c.1 < plateBytes := by decide
    exact ok x hx
  · intro slot w h
    have : slot = 1 ∧ w = record := by simpa [atWork, executing, eq_comm] using h
    obtain ⟨rfl, rfl⟩ := this
    exact ⟨by decide, by decide, by unfold Memory.below; decide⟩

set_option maxRecDepth 20000 in
theorem witness_ValidPlatesStayWellFormed : atWork.platesOk := by
  have ok : plateFault record = none ∧ passesCrc record = true := by decide +kernel
  refine ⟨?_, ?_⟩
  · intro x hx hv
    have : x = { record := record, marker := true, valid := true } ∨ x = .blank := by
      simpa [atWork, executing, withStation, State.setStation, State.withStations, inRun, store,
        or_comm] using hx
    rcases this with rfl | rfl
    · exact ok
    · simp [PlateSlot.blank] at hv
  · intro slot w h
    have : slot = 1 ∧ w = record := by simpa [atWork, executing, eq_comm] using h
    obtain ⟨rfl, rfl⟩ := this
    exact ok

set_option maxRecDepth 20000 in
theorem witness_ValidPlatesStayWellFormed_crc : atWork.crcOk ∧
    ∀ decayed, atWork.pending.head? = some (.powerOnReset decayed) → decayed = [] := by
  refine ⟨fun x hx => ?_, fun decayed h => by cases h⟩
  exact fun hv => (witness_ValidPlatesStayWellFormed.1 x hx (.inl hv)).2

theorem witness_TrackStaysConsecutive : atWork.trackOk := by
  refine ⟨by decide, by decide, ?_⟩
  show (700 : Word) ≠ 0 ∧ (700 : Word) = 700 ∧ (701 : Word) = rowSucc 700
  decide

theorem witness_RunStatesStayQuiet : atWork.runOk ∧ atWork.throwsOk := by
  refine ⟨⟨?_, ?_, by decide⟩, ?_⟩
  · intro h; exact absurd h (by decide)
  · intro h; exact absurd h (by decide)
  · unfold State.throwsOk; decide

theorem witness_SpliceRowsAreNeverStruck : atWork.trackOk ∧ atWork.splicesOk :=
  ⟨witness_TrackStaysConsecutive, by unfold State.splicesOk; decide⟩

theorem witness_EngineAndSlotsInUseStayConsistent :
    atWork.engineOk ∧ atWork.cycleOk ∧ atWork.jobs.run ≠ .idle ∧
      atWork.jobs.currentReferences 0 = true ∧ atWork.pending.head? ≠ some .linkReset ∧
      ∀ decayed, atWork.pending.head? ≠ some (.powerOnReset decayed) := by
  refine ⟨by unfold State.engineOk; decide, ?_, by decide, by decide, by decide, by intro d h; cases h⟩
  intro slot w h
  have : slot = 1 ∧ w = record := by simpa [atWork, executing, eq_comm] using h
  obtain ⟨rfl, rfl⟩ := this
  exact .inr (by decide)

theorem witness_ChannelsStayWithinTheirRules : atWork.channelsOk := by
  unfold State.channelsOk; decide

theorem witness_JobsInTheSlotsStayInRange : atWork.jobsOk := by
  refine ⟨(by intro j h; cases h), ?_, by decide, by decide, by decide⟩
  intro c h
  have : c = current := by simpa [atWork, executing, withStation, State.setStation,
    State.withStations, inRun, eq_comm] using h
  subst this
  have stations : ∀ st, (job.stations.get st).inRange := by
    intro st
    refine ⟨by decide +revert, by decide +revert, ?_⟩
    unfold FoilParams.inRange
    decide +revert
  have channels : ∀ c, (job.channels.get c).inRange := by
    intro c
    refine ⟨by decide +revert, fun h => ⟨by decide +revert, by decide +revert, by decide +revert, ?_⟩⟩
    unfold FoilParams.inRange
    decide +revert
  unfold Job.inRange
  and_intros
  all_goals first | exact stations | exact channels | decide

/-- A cause set that the step's write to ATTN does not name; and a rise that sends a message. -/
theorem witness_CausesStandAndMessagesFollowRises :
    (∃ (s t : State) (value : Word), (Instr.attnWrite value).wellFormed = true ∧
      exec (.attnWrite value) s = .next t ∧ s.attn.causes.getLsbD 17 = true ∧
      value.getLsbD 17 = false) ∧
    ∃ s t : State, (Instr.ackStop 0).wellFormed = true ∧ exec (.ackStop 0) s = .next t ∧
      t.attn.deliverable = true ∧ s.attn.deliverable = false ∧ s.attn.sent = 0 ∧ t.attn.sent = 1 :=
  ⟨⟨{ State.reset with attn := { Attention.reset with causes := 0x20001 } }, _, 1, by decide, rfl,
     by decide, by decide⟩,
   ⟨{ State.reset with attn := { Attention.reset with enables := 1, config := ⟨true, true, false, 0, 0⟩ } },
     _, by decide, rfl, by decide⟩⟩

/-- A step that accepts no PLATE_READ, and one after a PLATE_READ that accepts none. -/
theorem witness_PartWritesOnlyItsOwnRegions :
    ∀ code ∈ [(0 : BitVec 8), 0x09], ∃ (s t : State) (c : Instr), c.wellFormed = true ∧
      c ≠ .linkReset ∧ (∀ decayed, c ≠ .powerOnReset decayed) ∧ (∀ o bs, c ≠ .exchangeMemoryWrite o bs) ∧
      exec c s = .next t ∧ t.engine.statusCode = code ∧
      ¬ (t.engine.seq = s.engine.seq + 1 ∧ t.engine.statusCode = 0x09) := by
  intro code hc
  refine ⟨{ State.reset with engine := { Engine.reset with statusCode := code } }, _, .retirementEvent,
    by decide, by decide, ?_, ?_, rfl, rfl, ?_⟩
  · intro d h; cases h
  · intro o bs h; cases h
  · fin_cases hc <;> decide

theorem witness_OnlyAckStopDeassertsTheRequest :
    ∃ (s t : State), exec (.ackStop 0) s = .next t ∧ s.jobs.stopRequest = true ∧
      t.jobs.stopRequest = false :=
  ⟨{ State.reset with jobs := { JobControl.reset with stopRequest := true } }, _, rfl, rfl, by decide⟩

theorem witness_RemainingFoilGrowsOnlyAtARefill :
    ∃ (s t : State), (Instr.refillFoil 7).wellFormed = true ∧ exec (.refillFoil 7) s = .next t ∧
      (s.channel 7).remaining < (t.channel 7).remaining :=
  ⟨{ State.reset with mem := [(0x108, 1)] }, _, rfl, rfl, by decide⟩

end Sys2Proof.Tests
end

section
/-! Resets and the step generators' output: the reset tables, the invariants at reset, and the one step that a
generator emits. -/

namespace Sys2Proof.Machine

/-! ## The state after reset -/

theorem mem_store_reset {x : PlateSlot} (h : x ∈ State.reset.store) : x = .blank :=
  List.eq_of_mem_replicate h

@[simp] theorem State.reset_station (st : Fin 4) : State.reset.station st = .reset :=
  Four.get_all _ st

@[simp] theorem State.reset_channel (c : Fin 8) : State.reset.channel c = .reset :=
  Eight.get_all _ c

@[simp] theorem State.reset_gen (g : GenId) : State.reset.gen g = .reset := by
  cases g with
  | cylinder st => exact Four.get_all _ st
  | foil c => exact Eight.get_all _ c

theorem Station.reset_resting : Station.reset.resting := by
  simp [Station.resting, Station.reset]

theorem Channel.reset_resting : Channel.reset.resting := by
  simp [Channel.resting, Channel.reset]

theorem State.reset_storageOk : State.reset.storageOk := by
  refine ⟨rfl, fun c hc => absurd hc (List.not_mem_nil), rfl, fun x hx => ?_, fun _ _ h => nomatch h⟩
  rw [mem_store_reset hx]
  exact ⟨rfl, fun c hc => absurd hc (List.not_mem_nil)⟩

theorem State.reset_platesOk : State.reset.platesOk := by
  refine ⟨fun x hx h => ?_, fun _ _ h => nomatch h⟩
  rw [mem_store_reset hx] at h
  simp [PlateSlot.blank] at h

theorem State.reset_runOk : State.reset.runOk := by
  refine ⟨fun _ => ⟨fun st => ?_, fun c => ?_, rfl⟩, fun _ => ⟨rfl, rfl⟩, by decide⟩
  · exact ⟨State.reset_station st ▸ Station.reset_resting, by
      rw [show State.reset.cylGens.get st = .reset from Four.get_all _ st]; rfl⟩
  · exact ⟨State.reset_channel c ▸ Channel.reset_resting, by
      rw [show State.reset.foilGens.get c = .reset from Eight.get_all _ c]; rfl⟩

/-- Settles O48: each invariant holds at reset since every block is at rest and every slot blank. -/
theorem resetMeetsTheInvariants : Obligations.ResetMeetsTheInvariants := by
  refine ⟨State.reset_storageOk, State.reset_platesOk, ⟨by decide, by decide, trivial⟩,
    State.reset_runOk, fun st h => ?_, fun r hr => absurd hr List.not_mem_nil, ?_,
    fun _ _ h => ?_, fun c => ?_, ?_⟩
  · simp [Station.reset, Throw.engaged] at h
  · simp [State.engineOk, State.reset, Engine.reset]
  · cases h
  · simp [Channel.reset]
  · simp [State.jobsOk, State.reset, JobControl.reset, Wpu.reset]

/-! ## The resets -/

/-- What either kind of reset leaves: the reset values, but for the plate store, the count of free values and
the queue. -/
theorem exec_reset {c : Instr} (s : State)
    (hc : (∃ decayed, c = .powerOnReset decayed) ∨ c = .linkReset) :
    ∃ store count,
      exec c s = .next (((State.reset.withStore store).withFreeCount count).withPending s.pending) := by
  have hp : s.abandonCycle.pending = s.pending := by
    unfold State.abandonCycle
    split <;> simp
  rcases hc with ⟨decayed, rfl⟩ | rfl
  · rw [← hp]
    exact ⟨_, _, rfl⟩
  · rw [← hp]
    exact ⟨_, _, rfl⟩

/-- Settles O2: every field but the store, the free count and the queue is that of the reset state. -/
theorem resetsLeaveEveryBlock : Obligations.ResetsLeaveEveryBlock := by
  intro c s hc
  obtain ⟨store, count, h⟩ := exec_reset s hc
  have hweb : State.reset.web = 0 := by decide
  have hcond : State.reset.attn.condition = false ∧ State.reset.attn.intx = false := by decide
  refine ⟨_, h, rfl, ?_⟩
  and_intros
  any_goals rfl
  · exact hweb
  · intro g
    have hg := State.reset_gen g
    exact ⟨congrArg StepGen.ratio hg, congrArg StepGen.acc hg, congrArg StepGen.emitted hg,
      congrArg StepGen.owed hg, congrArg StepGen.dirHigh hg⟩
  · intro st
    have hx := State.reset_station st
    exact ⟨hx ▸ Station.reset_resting, congrArg Station.base hx, congrArg Station.indexLevel hx,
      congrArg Station.heaterLevel hx, congrArg Station.heaterRun hx,
      congrArg (fun x => x.throw.engaged) hx⟩
  · intro k
    have hx := State.reset_channel k
    exact ⟨hx ▸ Channel.reset_resting, congrArg Channel.rampLen hx, congrArg Channel.rampProgress hx,
      congrArg Channel.foilTicks hx, congrArg Channel.fraction hx, congrArg Channel.remaining hx,
      congrArg Channel.runUsed hx, congrArg Channel.lowArmed hx, congrArg Channel.out hx,
      congrArg Channel.params hx⟩
  · intro a ha
    simp [State.readByte, exchangeBytes, ha, State.reset, Memory.read]
  · exact hcond.1
  · exact hcond.2

/-! ## The step generators' output -/

theorem State.gen_setGen (s : State) (g k : GenId) (x : StepGen) :
    (s.setGen g x).gen k = if k = g then x else s.gen k := by
  cases g <;> cases k <;> simp [State.gen, State.setGen]

theorem State.setGen_eq (s : State) (g : GenId) (x : StepGen) :
    s.setGen g x =
      { s with cylGens := (s.setGen g x).cylGens, foilGens := (s.setGen g x).foilGens } := by
  cases g <;> rfl

/-- A word not zero comes one nearer to 0 by a step towards it. -/
theorem toInt_sub_one_of_pos {x : BitVec 32} (h : 0 < x.toInt) : (x - 1#32).toInt = x.toInt - 1 := by
  simp only [BitVec.toInt_eq_toNat_cond, BitVec.toNat_sub, BitVec.toNat_ofNat] at *
  split at h <;> split <;> omega

theorem toInt_add_one_of_neg {x : BitVec 32} (h : x.toInt < 0) : (x + 1#32).toInt = x.toInt + 1 := by
  simp only [BitVec.toInt_eq_toNat_cond, BitVec.toNat_add, BitVec.toNat_ofNat] at *
  split at h <;> split <;> omega

/-- A step towards the commanded position takes one from what is owed: the owed count never wraps. -/
theorem StepGen.emit_owed (g : StepGen) (h : g.owed ≠ 0) : g.emit.owed.natAbs + 1 = g.owed.natAbs := by
  unfold StepGen.emit
  split
  · rename_i hpos
    have hstep : StepGen.owed { g with emitted := g.emitted + 1, dirHigh := true } = g.owed - 1 := by
      have hsub : g.commanded - (g.emitted + 1#32) = g.commanded - g.emitted - 1#32 := by bv_omega
      exact (congrArg BitVec.toInt hsub).trans (toInt_sub_one_of_pos hpos)
    omega
  · rename_i hneg
    have hstep : StepGen.owed { g with emitted := g.emitted - 1, dirHigh := false } = g.owed + 1 := by
      have hsub : g.commanded - (g.emitted - 1#32) = g.commanded - g.emitted + 1#32 := by bv_omega
      exact (congrArg BitVec.toInt hsub).trans (toInt_add_one_of_neg (lt_of_le_of_ne (not_lt.1 hneg) h))
    omega

theorem exec_stepEmit (g : GenId) (ns : Nat) (s : State) :
    exec (.stepEmit g ns) s =
      if (s.gen g).owed ≠ 0 ∧ 250 ≤ ns then .next (s.setGen g (s.gen g).emit) else .next s := rfl

/-- Settles O28, by the sign of the owed count. -/
theorem stepEmitSendsOneStep : Obligations.StepEmitSendsOneStep := by
  intro g ns s
  refine ⟨fun h => ?_, fun hns howed => ?_⟩
  · rw [exec_stepEmit, if_neg (by omega)]
  · have hgen : (s.setGen g (s.gen g).emit).gen g = (s.gen g).emit := by rw [State.gen_setGen, if_pos rfl]
    refine ⟨s.setGen g (s.gen g).emit, by rw [exec_stepEmit, if_pos ⟨howed, hns⟩], fun hpos => ?_,
      fun hneg => ?_, ?_, fun k hk => ?_, State.setGen_eq s g _⟩
    · rw [hgen, StepGen.emit, if_pos hpos]
    · rw [hgen, StepGen.emit, if_neg (by omega)]
    · rw [hgen, StepGen.emit_owed _ howed]
    · rw [State.gen_setGen, if_neg hk]

end Sys2Proof.Machine
end

section
/-! One induction over the rows of the table: what the engine's bookkeeping, each command and each event of the
mechanism keep, every step keeps. -/

namespace Sys2Proof

/-- The events of the mechanism and the part's own events: every row but the resets, the commands and the
writes of the line controller. -/
def Instr.mechanical : Instr → Bool
  | .encoderCount _ _ | .encoderFault _ _ | .timebaseExpiry _ | .liftEvent _ | .throwTravelComplete _
  | .stepEmit _ _ | .markEdge _ _ _ | .commitEvent _ | .retirementEvent | .indexEdge _ _ _
  | .heatLossEvent _ | .heatReadyEvent _ => true
  | _ => false

end Sys2Proof

namespace Sys2Proof.Machine

/-- What the command engine's words, attention, exchange memory, the queue and a command begun keep. -/
structure CommandsKeep (P : State → Prop) : Prop where
  engine : ∀ s x, P s → P (s.withEngine x)
  attn : ∀ s x, P s → P (s.withAttn x)
  mem : ∀ s x, P s → P (s.withMem x)
  pending : ∀ s x, P s → P (s.withPending x)
  begins : ∀ s code arg, P s → P (s.begin code arg).1

section
variable {P : State → Prop} (k : CommandsKeep P)
include k

theorem CommandsKeep.complete {s : State} (r : CmdResult) (h : P s) : P (s.complete r) :=
  k.attn _ _ (k.engine _ _ h)

theorem CommandsKeep.accept {s : State} (h : P s) : P s.accept := by
  have hb := k.begins _ (s.withEngine s.engine.accept).engine.statusCode
    (s.withEngine s.engine.accept).engine.arg (k.engine s s.engine.accept h)
  unfold State.accept
  dsimp only
  split
  · rename_i heq
    rw [heq] at hb
    exact k.complete _ hb
  · rename_i heq
    rw [heq] at hb
    exact hb

theorem CommandsKeep.serveEngine {s : State} (h : P s) : P s.serveEngine := by
  unfold State.serveEngine
  split
  · exact k.accept h
  · exact h

theorem CommandsKeep.writeCmd {s : State} (v : Word) (h : P s) : P (s.writeCmd v) :=
  k.serveEngine (k.engine _ _ h)

theorem CommandsKeep.writeRegister {s : State} (offset : Nat) (w : Word) (h : P s) :
    P (s.writeRegister offset w) := by
  unfold State.writeRegister
  split
  · exact k.writeCmd w h
  · split
    · exact k.attn _ _ h
    · split
      · exact k.attn _ _ h
      · exact h

theorem CommandsKeep.windowAccess {s : State} (offset : Nat) (bytes : List Byte) (h : P s) :
    P (s.windowAccess offset bytes) := by
  unfold State.windowAccess
  split
  · unfold State.registerPageWrite
    split
    · exact k.writeRegister _ _ h
    · split
      · exact k.writeRegister _ _ (k.writeRegister _ _ h)
      · exact h
  · exact k.mem _ _ h

theorem CommandsKeep.windowAccesses {s : State} (l : List (Nat × List Byte)) (h : P s) :
    P (l.foldl (fun s a => s.windowAccess a.1 a.2) s) := by
  induction l generalizing s with
  | nil => exact h
  | cons a l ih => exact ih (k.windowAccess _ _ h)

theorem CommandsKeep.hostWrite {s t : State} (offset : Nat) (bytes : List Byte) (h : P s)
    (he : s.hostWrite offset bytes = .next t) : P t := by
  unfold State.hostWrite at he
  split at he
  · obtain rfl : s.windowWrite offset bytes = t := by simpa using he
    unfold State.windowWrite
    split
    · exact k.windowAccess _ _ h
    · exact k.windowAccesses _ h
  · simp at he

/-- The induction over the table: what a reset gives, the ends of the commands that take time, and the events
of the mechanism keep, each step keeps. -/
theorem CommandsKeep.step
    (reset : ∀ c s t, (∃ decayed, c = .powerOnReset decayed) ∨ c = .linkReset → exec c s = .next t → P t)
    (loaded : ∀ s j, P s → P (s.validateJob j).1)
    (saved : ∀ s slot working misread, P s → P (s.endCycle slot working misread).1)
    (event : ∀ c s t, c.mechanical = true → P s → exec c s = .next t → P t)
    {s t : State} (h : P s) (he : step s = .next t) : P t := by
  unfold Machine.step at he
  split at he
  · obtain rfl : s = t := by simpa using he
    exact h
  · rename_i c rest _
    replace h := k.pending _ rest h
    have command (v : Word)
        (hv : (.next ((s.withPending rest).writeCmd v) : Host.Outcome State Fault Refusal) = .next t) : P t := by
      obtain rfl : (s.withPending rest).writeCmd v = t := by simpa using hv
      exact k.writeCmd v h
    cases c with
    | powerOnReset decayed => exact reset _ _ _ (.inl ⟨decayed, rfl⟩) he
    | linkReset => exact reset _ _ _ (.inr rfl) he
    | encoderCount a b => exact event _ _ _ rfl h he
    | encoderFault a b => exact event _ _ _ rfl h he
    | timebaseExpiry heaters => exact event _ _ _ rfl h he
    | liftEvent st => exact event _ _ _ rfl h he
    | throwTravelComplete st => exact event _ _ _ rfl h he
    | stepEmit g ns => exact event _ _ _ rfl h he
    | markEdge lane level p => exact event _ _ _ rfl h he
    | commitEvent st => exact event _ _ _ rfl h he
    | retirementEvent => exact event _ _ _ rfl h he
    | indexEdge st level p => exact event _ _ _ rfl h he
    | heatLossEvent st => exact event _ _ _ rfl h he
    | heatReadyEvent st => exact event _ _ _ rfl h he
    | loadJobComplete =>
      simp only [exec, execLoadJobComplete] at he
      split at he
      · rename_i j _
        obtain rfl := Host.Outcome.next.inj he
        exact k.serveEngine (k.complete _ (loaded _ j h))
      · exact Host.Outcome.next.inj he ▸ h
    | plateSaveComplete misread =>
      simp only [exec, execPlateSaveComplete] at he
      split at he
      · rename_i slot working _
        obtain rfl := Host.Outcome.next.inj he
        exact k.serveEngine (k.complete _ (saved _ slot working misread h))
      · exact Host.Outcome.next.inj he ▸ h
    | loadJob arg => exact command _ he
    | startRun arg => exact command _ he
    | endRun arg => exact command _ he
    | holdRun arg => exact command _ he
    | resumeRun arg => exact command _ he
    | rearmStation arg => exact command _ he
    | refillFoil arg => exact command _ he
    | plateSave arg => exact command _ he
    | plateRead arg => exact command _ he
    | ackStop arg => exact command _ he
    | unknownCommand code arg => exact command _ he
    | cmdWithdraw value => exact command _ he
    | cmdPendWrite value => exact command _ he
    | attnWrite value => exact Host.Outcome.next.inj he ▸ k.writeRegister _ _ h
    | attnEnableWrite value => exact Host.Outcome.next.inj he ▸ k.writeRegister _ _ h
    | registerWriteIgnored offset bytes => exact k.hostWrite _ _ h he
    | exchangeMemoryWrite offset bytes => exact k.hostWrite _ _ h he
    | configSpaceWrite config => exact Host.Outcome.next.inj he ▸ k.attn _ _ h

end

end Sys2Proof.Machine
end

section
/-! The jobs in the slots: LOAD_JOB puts a job there whose checks passed, START_RUN moves it, and no other step
touches a job, the scale or the headroom in force. -/

namespace Sys2Proof.Machine

/-! ## The web position unit at a count -/

theorem State.webChange_wpu (p : Pos) (s : State) : (s.webChange p).wpu = s.wpu.advanceHighWater := by
  simp [State.webChange, forChannels, forStations]

/-- A count moves the accumulator and sets the direction; the high-water position follows where the integer
part has changed (R1, R3, R5, R7). -/
theorem State.count_wpu (d : Direction) (s : State) :
    (s.count d).wpu =
      if (s.wpu.count d).position = s.web then s.wpu.count d else (s.wpu.count d).advanceHighWater := by
  unfold State.count
  dsimp only
  rw [show (s.withWpu (s.wpu.count d)).web = (s.wpu.count d).position from rfl]
  split
  · rfl
  · rw [State.webChange_wpu, State.withWpu_wpu]

theorem Wpu.advanceHighWater_eq (w : Wpu) :
    w.advanceHighWater =
      { w with highWater := if 0 < dist w.highWater w.position then w.position else w.highWater } := by
  unfold Wpu.advanceHighWater
  split <;> rfl

theorem Wpu.count_eq (w : Wpu) (d : Direction) :
    w.count d = { w with direction := (w.count d).direction, acc := (w.count d).acc } := by
  cases d <;> rfl

/-! ## A job whose checks passed is in range -/

/-- The checks of LOAD_JOB that do not read a plate put the job in range (R133 to R135, R138). -/
theorem inRange_of_checks {k : Candidate} (h : runChecks k jobChecks = []) : k.job.inRange := by
  have hc (c) (hc : c ∈ jobChecks) : c k [] = [] := runChecks_nil h c hc
  have h1 := hc check1 (by simp [jobChecks])
  have h2 := hc check2 (by simp [jobChecks])
  have h3 := hc check3 (by simp [jobChecks])
  have h4 := hc check4 (by simp [jobChecks])
  have h5 := hc check5 (by simp [jobChecks])
  have h6 := hc check6 (by simp [jobChecks])
  simp only [check1, List.append_eq_nil_iff, require_nil, within, Bool.and_eq_true, decide_eq_true_eq,
    mapIdx_flatten_nil] at h1
  obtain ⟨⟨⟨⟨⟨⟨⟨⟨⟨⟨⟨⟨⟨hset, hlead⟩, hoff⟩, hwin⟩, hmiss⟩, hq⟩, hrev⟩, hv8⟩, _⟩, hres⟩, hdwell⟩, hhead⟩,
    hdef⟩, htally⟩ := h1
  have hactive : k.job.laneActive k.job.leadingLane = true := by
    simpa [check2, jobOk, names, require_nil] using h2
  have hcrawl : k.job.crawl < k.job.resume := by
    simpa [check3, jobOk, names, require_nil] using h3
  have hstations (st) : (k.job.stations.get st).inRange :=
    stationRanges_nil _ st ((eachStation_nil _).1 h4 st)
  have hchannels (c) : (k.job.channels.get c).inRange :=
    channelRanges_nil _ c ((eachChannel_nil _).1 h5 c)
  have hany : ∃ st, (k.job.stations.get st).active = true := by
    have hb : k.job.stations.toList.any StationBlock.active = true := by
      simpa [check6, typesOk, stationOk, names, require_nil] using h6
    obtain ⟨b, hb, ha⟩ := List.any_eq_true.1 hb
    obtain ⟨st, rfl⟩ := (Four.mem_toList _ _).1 hb
    exact ⟨st, ha⟩
  exact ⟨by omega, by omega, hactive, by omega, hoff, by omega, by omega, by omega, by omega, by omega, by omega,
    by omega, by omega, by omega, hcrawl, by omega, by omega, by omega, by omega, by omega, by omega, hstations,
    hany, hchannels⟩

/-! ## Steps that leave the slots alone -/

/-- The two states agree on the job slots, the scale and the headroom in force. -/
def sameJobs (s t : State) : Prop :=
  t.jobs.next = s.jobs.next ∧ t.jobs.current = s.jobs.current ∧ t.wpu.scaleQ = s.wpu.scaleQ ∧
    t.wpu.headroom = s.wpu.headroom

theorem sameJobs.jobsOk {s t : State} (h : sameJobs s t) (hs : s.jobsOk) : t.jobsOk := by
  obtain ⟨hn, hc, hq, hh⟩ := h
  unfold State.jobsOk at *
  rwa [hn, hc, hq, hh]

theorem sameJobs_of_wpu {s t : State} (hn : t.jobs.next = s.jobs.next) (hc : t.jobs.current = s.jobs.current)
    (hw : t.wpu = s.wpu) : sameJobs s t :=
  ⟨hn, hc, congrArg Wpu.scaleQ hw, congrArg Wpu.headroom hw⟩

theorem State.count_sameJobs (d : Direction) (s : State) : sameJobs s (s.count d) := by
  refine ⟨by simp, by simp, ?_, ?_⟩ <;>
  · rw [State.count_wpu, Wpu.advanceHighWater_eq, Wpu.count_eq]
    split <;> rfl

theorem State.enterIdle_sameJobs (s : State) : sameJobs s s.enterIdle := by
  refine ⟨by simp, by simp, ?_, ?_⟩ <;> simp [(State.enterIdle_spec s).2]

theorem State.retire_sameJobs (s : State) : sameJobs s s.retire := by
  have hw : s.retireHead.wpu = s.wpu := by simp
  unfold State.retire
  dsimp only
  split
  · obtain ⟨hn, hc, hq, hh⟩ := s.retireHead.enterIdle_sameJobs
    exact ⟨by simp, by simp, hq.trans (congrArg Wpu.scaleQ hw), hh.trans (congrArg Wpu.headroom hw)⟩
  · exact sameJobs_of_wpu (by simp) (by simp) hw

theorem State.overspeedCheck_wpu (s : State) :
    s.overspeedCheck.wpu = { s.wpu with overspeed := s.overspeedCheck.wpu.overspeed } := by
  unfold State.overspeedCheck
  split_ifs <;> simp

theorem State.speedUpdate_sameJobs (s : State) : sameJobs s s.speedUpdate := by
  refine ⟨by simp, by simp, ?_, ?_⟩ <;>
  · unfold State.speedUpdate
    rw [State.overspeedCheck_wpu]
    rfl

/-- No event touches a job in a slot, the scale or the headroom in force. -/
theorem sameJobs_of_event {c : Instr} {s t : State} (hc : c.mechanical = true) (he : exec c s = .next t) :
    sameJobs s t := by
  have same (u : State) (hn : u.jobs.next = s.jobs.next) (hj : u.jobs.current = s.jobs.current)
      (hw : u.wpu = s.wpu) (hu : (.next u : Host.Outcome State Fault Refusal) = .next t) : sameJobs s t :=
    Host.Outcome.next.inj hu ▸ sameJobs_of_wpu hn hj hw
  cases c with
  | encoderCount a b =>
    simp only [exec, execEncoderCount] at he
    split at he
    · cases he
      exact ⟨rfl, rfl, rfl, rfl⟩
    · split at he
      · cases he
        exact (s.setPair a b).count_sameJobs .forward
      · cases he
        exact (s.setPair a b).count_sameJobs .reverse
      · exact same s rfl rfl rfl he
  | encoderFault a b =>
    simp only [exec, execEncoderFault] at he
    split at he
    · cases he
      exact ⟨rfl, rfl, rfl, rfl⟩
    · split at he
      · cases he
        exact ⟨by simp, by simp, by simp [State.setPair], by simp [State.setPair]⟩
      · exact same s rfl rfl rfl he
  | timebaseExpiry heaters =>
    obtain rfl := Host.Outcome.next.inj he
    obtain ⟨hn, hj, hq, hh⟩ := s.speedUpdate_sameJobs
    exact ⟨by simp [forChannels, forStations], by simp [forChannels, forStations],
      by simpa [forChannels, forStations] using hq, by simpa [forChannels, forStations] using hh⟩
  | liftEvent st =>
    simp only [exec, execLiftEvent] at he
    split at he <;> exact same _ (by simp) (by simp) (by simp) he
  | throwTravelComplete st =>
    simp only [exec, execThrowTravelComplete] at he
    split at he <;> exact same _ (by simp) (by simp) (by simp) he
  | stepEmit g ns =>
    simp only [exec, execStepEmit] at he
    split at he <;> exact same _ (by simp) (by simp) (by simp) he
  | markEdge lane level p =>
    simp only [exec, execMarkEdge] at he
    split at he
    · exact same _ (by simp) (by simp) (by simp) he
    · split at he <;> exact same _ (by simp) (by simp) (by simp) he
  | commitEvent st =>
    simp only [exec, execCommitEvent] at he
    split at he <;> exact same _ (by simp) (by simp) (by simp) he
  | retirementEvent =>
    simp only [exec, execRetirementEvent] at he
    split at he
    · cases he
      exact s.retire_sameJobs
    · exact same _ rfl rfl rfl he
  | indexEdge st level p =>
    simp only [exec, execIndexEdge] at he
    split at he
    · exact same _ (by simp) (by simp) (by simp) he
    · split at he <;> exact same _ (by simp) (by simp) (by simp) he
  | heatLossEvent st =>
    simp only [exec, execHeatLossEvent] at he
    split at he
    · split at he <;> exact same _ (by simp) (by simp) (by simp) he
    · exact same _ (by simp) (by simp) (by simp) he
  | heatReadyEvent st =>
    simp only [exec, execHeatReadyEvent] at he
    split at he
    · split at he <;> exact same _ (by simp) (by simp) (by simp) he
    · exact same _ (by simp) (by simp) (by simp) he
  | _ => cases hc

/-! ## The commands -/

theorem sameJobs.refl (s : State) : sameJobs s s := ⟨rfl, rfl, rfl, rfl⟩

theorem State.endRun_sameJobs (s : State) : sameJobs s s.endRun.1 := by
  unfold State.endRun
  split
  · exact .refl s
  · exact .refl s
  · exact s.enterIdle_sameJobs
  · exact s.enterIdle_sameJobs
  · split
    · exact s.enterIdle_sameJobs
    · exact sameJobs_of_wpu (by simp) (by simp) (by simp)

theorem State.holdRun_sameJobs (s : State) : sameJobs s s.holdRun.1 := by
  unfold State.holdRun
  split
  · exact sameJobs_of_wpu (by simp) (by simp) (by simp)
  · exact .refl s

theorem State.resumeRun_sameJobs (s : State) : sameJobs s s.resumeRun.1 := by
  unfold State.resumeRun
  split <;> exact ⟨rfl, rfl, rfl, rfl⟩

theorem State.rearmStation_sameJobs (arg : BitVec 16) (s : State) : sameJobs s (s.rearmStation arg).1 := by
  unfold State.rearmStation
  split
  · exact .refl s
  · split
    · exact sameJobs_of_wpu (by simp) (by simp) (by simp)
    · exact .refl s

theorem State.refillFoil_sameJobs (arg : BitVec 16) (s : State) : sameJobs s (s.refillFoil arg).1 := by
  unfold State.refillFoil
  split
  · exact .refl s
  · dsimp only
    split
    · exact .refl s
    · exact sameJobs_of_wpu (by simp) (by simp) (by simp)

theorem State.plateRead_sameJobs (arg : BitVec 16) (s : State) : sameJobs s (s.plateRead arg).1 := by
  unfold State.plateRead
  dsimp only
  split_ifs <;> exact ⟨rfl, rfl, rfl, rfl⟩

theorem State.ackStop_sameJobs (s : State) : sameJobs s s.ackStop.1 := by
  unfold State.ackStop
  dsimp only
  split <;> exact ⟨rfl, rfl, rfl, rfl⟩

theorem JobControl.dropNext_next {j : JobControl} {slot : Nat} {x : Job} (h : (j.dropNext slot).next = some x) :
    j.next = some x := by
  unfold JobControl.dropNext at h
  split at h
  · split at h
    · simp at h
    · exact h
  · exact h

theorem State.plateSave_jobsOk (arg : BitVec 16) {s : State} (h : s.jobsOk) : (s.plateSave arg).1.jobsOk := by
  obtain ⟨hn, hrest⟩ := h
  unfold State.plateSave
  dsimp only
  split
  · exact ⟨hn, hrest⟩
  · split
    · exact ⟨hn, hrest⟩
    · split
      · exact sameJobs.jobsOk (sameJobs_of_wpu (by simp) (by simp) (by simp)) ⟨hn, hrest⟩
      · split
        · exact ⟨hn, hrest⟩
        · refine ⟨fun j hj => hn j (JobControl.dropNext_next (slot := arg.toNat) ?_), by simpa using hrest⟩
          simpa [State.startCycle] using hj

theorem JobControl.candidate_inRange {s : State} {j : Job} (h : s.jobsOk) (hj : s.jobs.candidate = some j) :
    j.inRange := by
  obtain ⟨hn, hc, -⟩ := h
  unfold JobControl.candidate at hj
  split at hj
  · rename_i x hx
    exact hn j (hj ▸ hx)
  · obtain ⟨c, hcur, rfl⟩ := Option.map_eq_some_iff.1 hj
    exact hc c hcur

theorem State.beginRun_jobs (c : Current) (first : Word) (s : State) :
    (s.beginRun c first).jobs =
      { s.jobs with next := none, current := some c, run := .armed, holdCause := .none, firstRow := first } := by
  simp [State.beginRun, forChannels, forStations]

theorem State.beginRun_wpu (c : Current) (first : Word) (s : State) :
    (s.beginRun c first).wpu =
      { s.wpu with scaleQ := c.job.scaleQ, headroom := c.job.headroom, highWater := s.web, overspeed := false } := by
  simp [State.beginRun, forChannels, forStations, State.web]

theorem State.beginRun_jobsOk {s : State} {c : Current} (first : Word) (h : c.job.inRange) :
    (s.beginRun c first).jobsOk := by
  refine ⟨by simp [State.beginRun_jobs], fun d hd => ?_, ?_⟩
  · obtain rfl : c = d := by simpa [State.beginRun_jobs] using hd
    exact h
  · rw [State.beginRun_wpu]
    unfold Job.inRange at h
    dsimp only
    omega

theorem State.startRun_jobsOk {s : State} (h : s.jobsOk) : s.startRun.1.jobsOk := by
  have report (fs : List Failure) (u : State) (hu : u.jobsOk) : (u.writeReport fs).jobsOk :=
    sameJobs.jobsOk (sameJobs_of_wpu (by simp) (by simp) (by simp)) hu
  unfold State.startRun
  dsimp only
  split
  · exact h
  · split
    · exact h
    · rename_i j hj
      split
      · split
        · exact report _ _ (State.beginRun_jobsOk _ (JobControl.candidate_inRange h hj))
        · exact report _ _ h
      · exact h

theorem State.begin_jobsOk {s : State} (code : BitVec 8) (arg : BitVec 16) (h : s.jobsOk) :
    (s.begin code arg).1.jobsOk := by
  unfold State.begin
  split
  · exact h
  · exact State.startRun_jobsOk h
  · exact s.endRun_sameJobs.jobsOk h
  · exact s.holdRun_sameJobs.jobsOk h
  · exact s.resumeRun_sameJobs.jobsOk h
  · exact (s.rearmStation_sameJobs arg).jobsOk h
  · exact (s.refillFoil_sameJobs arg).jobsOk h
  · exact State.plateSave_jobsOk arg h
  · exact (s.plateRead_sameJobs arg).jobsOk h
  · exact s.ackStop_sameJobs.jobsOk h
  · exact h

/-- The end of LOAD_JOB puts a job in NEXT where no check has failed alone (R137). -/
theorem State.validateJob_jobsOk {s : State} (j : Job) (h : s.jobsOk) : (s.validateJob j).1.jobsOk := by
  unfold State.validateJob
  dsimp only
  split
  · rename_i hfs
    obtain ⟨-, hrest⟩ := h
    refine ⟨fun x hx => ?_, by simpa using hrest⟩
    obtain rfl : j = x := by simpa using hx
    exact inRange_of_checks hfs
  · exact sameJobs.jobsOk (sameJobs_of_wpu (by simp) (by simp) (by simp)) h

theorem commandsKeep_jobsOk : CommandsKeep State.jobsOk where
  engine _ _ h := h
  attn _ _ h := h
  mem _ _ h := h
  pending _ _ h := h
  begins _ code arg h := State.begin_jobsOk code arg h

/-- Settles O56, by the induction over the table: LOAD_JOB's checks put a job in range, START_RUN takes the
scale and the headroom from it, and no event touches them. -/
theorem jobsInTheSlotsStayInRange : Obligations.JobsInTheSlotsStayInRange := by
  intro s t h he
  refine commandsKeep_jobsOk.step (fun c s t hc he => ?_) (fun s j => State.validateJob_jobsOk j)
    (fun s slot working misread h => h) (fun c s t hc h he => (sameJobs_of_event hc he).jobsOk h) h he
  obtain ⟨store, count, hr⟩ := exec_reset s hc
  obtain rfl := Host.Outcome.next.inj (hr.symm.trans he)
  exact ⟨fun j hj => (nomatch hj), fun c hc => (nomatch hc), by simp [State.reset, Wpu.reset]⟩

end Sys2Proof.Machine
end

section
/-! What the run states mean, and where a throw may be on: the throw is CLOSING or ON at a TRACKING station of a
moving run alone, through every operation of a station, a row open, a hold and a count. -/

namespace Sys2Proof.Machine

/-! ## Where a throw may be on -/

/-- A station may stand as `x` in run state `run`: its throw is on only where it is TRACKING and the run moves. -/
def Station.throwOk (run : RunState) (x : Station) : Prop :=
  x.throw.engaged = true → x.state = .tracking ∧ (run = .running ∨ run = .draining)

theorem State.throwsOk.of_same {s t : State} (h : s.throwsOk) (hr : t.jobs.run = s.jobs.run)
    (hst : t.stations = s.stations) : t.throwsOk := by
  intro st
  rw [hr, State.station, hst]
  exact h st

theorem State.throwsOk.setStation {s : State} (h : s.throwsOk) (st : Fin 4) {x : Station}
    (hx : x.throwOk s.jobs.run) : (s.setStation st x).throwsOk := by
  intro k
  rw [State.station_setStation, (State.setStation_frame st x s).2.2.2.2.2.2.2.1]
  split
  · exact hx
  · exact h k

/-- A station changed in neither its throw nor its state. -/
theorem State.throwsOk.setStation_same {s : State} (h : s.throwsOk) (st : Fin 4) {x : Station}
    (ht : x.throw = (s.station st).throw) (hs : x.state = (s.station st).state) :
    (s.setStation st x).throwsOk :=
  h.setStation st fun hx => by
    rw [ht] at hx
    rw [hs]
    exact h st hx

theorem Throw.engaged_iff (x : Throw) : x.engaged = true ↔ x = .closing ∨ x = .on := by
  cases x <;> simp [Throw.engaged]

theorem Station.openThrow_not_engaged (x : Station) (off : Nat) : (x.openThrow off).throw.engaged = false := by
  unfold Station.openThrow
  split
  · rfl
  · rename_i h
    simpa using h

theorem Station.openThrow_throwOk (x : Station) (off : Nat) (run : RunState) : (x.openThrow off).throwOk run :=
  fun h => by simp [Station.openThrow_not_engaged] at h

theorem State.moving_iff (s : State) : s.moving = true ↔ s.jobs.run = .running ∨ s.jobs.run = .draining := by
  simp [State.moving]

section
variable {s : State}

theorem State.throwsOk.openThrow (h : s.throwsOk) (st : Fin 4) : (s.openThrow st).throwsOk :=
  h.setStation st (Station.openThrow_throwOk _ _ _)

theorem State.throwsOk.closeTest (h : s.throwsOk) (st : Fin 4) : (s.closeTest st).throwsOk := by
  unfold State.closeTest
  split
  · rename_i hc
    simp only [State.closeDue, Bool.and_eq_true, beq_iff_eq, State.moving_iff] at hc
    exact h.setStation st fun _ => ⟨hc.1.1.1, hc.1.1.2⟩
  · exact h

/-- A throw that is not on, or a station that goes to TRACKING, may change its state. -/
theorem State.throwsOk.setState (h : s.throwsOk) (st : Fin 4) {dest : StationState}
    (hd : (s.station st).throw.engaged = false ∨ dest = .tracking) : (s.setState st dest).throwsOk :=
  h.setStation st fun hx => by
    rcases hd with hd | rfl
    · simp [hd] at hx
    · exact ⟨rfl, (h st hx).2⟩

theorem State.throwsOk.departure (h : s.throwsOk) (st : Fin 4) (dest : StationState) :
    (s.departure st dest).throwsOk :=
  h.of_same (by simp) (by simp [State.departure])

theorem State.throwsOk.leaveFor (h : s.throwsOk) (st : Fin 4) (dest : StationState) :
    (s.leaveFor st dest).throwsOk := by
  have hs : ((s.openThrow st).setState st dest).throwsOk :=
    (h.openThrow st).setState st (.inl (by
      rw [State.openThrow, State.station_setStation, if_pos rfl, Station.openThrow_not_engaged]))
  unfold State.leaveFor
  dsimp only
  split
  · exact hs.departure st dest
  · exact hs

theorem State.throwsOk.shiftRows (h : s.throwsOk) (st : Fin 4) (k : Int) (moves : RowCtx → Bool) :
    (s.shiftRows st k moves).throwsOk := by
  refine State.throwsOk.closeTest ?_ st
  refine (h.setStation_same st (x := { s.station st with base := moved (s.station st).base k }) rfl rfl).of_same ?_ ?_
  · simp
  · simp

theorem State.throwsOk.tickShifts (h : s.throwsOk) (st : Fin 4) (dir : Int) (waiting : List Word) (n : Nat) :
    (s.tickShifts st dir waiting n).throwsOk := by
  induction n generalizing s with
  | zero => exact h
  | succ n ih => exact ih (h.shiftRows st dir _)

theorem State.throwsOk.drift (h : s.throwsOk) (st : Fin 4) (amount : Int) : (s.drift st amount).throwsOk := by
  unfold State.drift
  refine State.throwsOk.tickShifts ?_ st _ _ _
  exact h.setStation_same st rfl rfl

/-- The entry and the risk set as a commit to `o` leaves them, before the channels and the throw (R82, R85). -/
def State.markCommitted (st : Fin 4) (n : Word) (o : RowOutcome) (s : State) : State :=
  let s := s.mapEntry st n fun e => { e with committed := true, outcome := some o }
  s.setStation st { s.station st with risk := (s.station st).risk.filter fun m => m != n }

theorem State.commit_eq {st : Fin 4} {r : RowCtx} {e : StationEntry} (s : State) (h : r.stations.get st = some e) :
    s.commit st r =
      let o := s.decideOutcome st r e
      let t := s.markCommitted st r.row o
      if o.strike then (t.serving st (State.handover r.row)).closeTest st
      else if t.previousEnded st r.row then t.openThrow st else t := by
  unfold State.commit
  rw [h]
  rfl

theorem State.commit_none {st : Fin 4} {r : RowCtx} (s : State) (h : r.stations.get st = none) :
    s.commit st r = s := by
  unfold State.commit
  rw [h]

theorem State.throwsOk.markCommitted (h : s.throwsOk) (st : Fin 4) (n : Word) (o : RowOutcome) :
    (s.markCommitted st n o).throwsOk := by
  refine State.throwsOk.setStation_same (h.of_same ?_ ?_) st rfl rfl
  · simp
  · simp

theorem State.throwsOk.commit (h : s.throwsOk) (st : Fin 4) (r : RowCtx) : (s.commit st r).throwsOk := by
  cases he : r.stations.get st with
  | none =>
    rw [State.commit_none s he]
    exact h
  | some e =>
    rw [State.commit_eq s he]
    dsimp only
    have hm := h.markCommitted st r.row (s.decideOutcome st r e)
    split
    · exact (hm.of_same (by simp) (by simp)).closeTest st
    · split
      · exact hm.openThrow st
      · exact hm

theorem State.throwsOk.commitAll (h : s.throwsOk) (st : Fin 4) (n : Nat) : (s.commitAll st n).throwsOk := by
  induction n generalizing s with
  | zero => exact h
  | succ n ih =>
    unfold State.commitAll
    split
    · exact ih (h.commit st _)
    · exact h

/-- The overdue commit of a zone-start event (R81). -/
def State.overdueCommit (st : Fin 4) (n : Word) (s : State) : State :=
  match s.row? n with
  | some r => if r.committedAt st then s else s.commit st r
  | none => s

theorem State.zoneStartEvent_eq (st : Fin 4) (n : Word) (s : State) :
    s.zoneStartEvent st n =
      let t := (s.mapEntry st n fun e => { e with startTaken := true }).overdueCommit st n
      t.mapEntry st n (StationEntry.checkStart (t.station st).throw) := rfl

theorem State.throwsOk.overdueCommit (h : s.throwsOk) (st : Fin 4) (n : Word) : (s.overdueCommit st n).throwsOk := by
  unfold State.overdueCommit
  split
  · split
    · exact h
    · exact h.commit st _
  · exact h

theorem State.throwsOk.mapEntry (h : s.throwsOk) (st : Fin 4) (n : Word) (f : StationEntry → StationEntry) :
    (s.mapEntry st n f).throwsOk :=
  h.of_same (by simp) (by simp)

theorem State.throwsOk.zoneStartEvent (h : s.throwsOk) (st : Fin 4) (n : Word) :
    (s.zoneStartEvent st n).throwsOk :=
  ((h.mapEntry st n _).overdueCommit st n).mapEntry st n _

theorem State.throwsOk.applyTrim (h : s.throwsOk) (st : Fin 4) (k : Int) : (s.applyTrim st k).throwsOk := by
  unfold State.applyTrim
  split
  · exact h
  · refine State.throwsOk.drift (State.throwsOk.shiftRows ?_ st _ _) st _
    exact (h.of_same (t := s.deliverCylinder st k) (by simp) (by simp)).setStation_same st rfl rfl

theorem State.throwsOk.bandCheck (h : s.throwsOk) (st : Fin 4) (r : RowCtx) (error : Option Int) :
    (s.bandCheck st r error).throwsOk := by
  have raise (u : State) (c : AttnCause) (hu : u.throwsOk) : (u.raise c).throwsOk := hu.of_same (by simp) (by simp)
  unfold State.bandCheck
  split
  · exact h
  · split
    · split
      · split
        · exact raise _ _ (h.setState st (.inr rfl))
        · exact h
      · split
        · exact raise _ _ (h.leaveFor st _)
        · exact h
      · exact h
    · exact h

theorem State.throwsOk.openAtEnd (h : s.throwsOk) (st : Fin 4) (n : Word) : (s.openAtEnd st n).throwsOk := by
  unfold State.openAtEnd
  split
  · split
    · exact h.openThrow st
    · exact h
  · exact h

theorem State.throwsOk.writeRegistration (h : s.throwsOk) (st : Fin 4) (n : Word) (error : Option Int) (k : Int) :
    (s.writeRegistration st n error k).throwsOk := by
  have hm : (s.mapEntry st n fun e => { e with error := error, trim := k, endTaken := true }).throwsOk :=
    h.of_same (by simp) (by simp)
  unfold State.writeRegistration
  dsimp only
  split
  · exact hm.setStation_same st rfl rfl
  · exact hm

theorem State.throwsOk.zoneEndEvent (h : s.throwsOk) (st : Fin 4) (n : Word) : (s.zoneEndEvent st n).throwsOk := by
  unfold State.zoneEndEvent
  split
  · exact h
  · split
    · exact h
    · exact ((((h.writeRegistration st n _ _).applyTrim st _).bandCheck st _ _).openAtEnd st n)

/-- The row's zone-start event at the station has been taken; so it counts where the row has no entry there. -/
def RowCtx.startedAt (r : RowCtx) (st : Fin 4) : Bool :=
  match r.stations.get st with
  | some e => e.startTaken
  | none => true

/-- The zone event of row `r` whose turn it is at the station. -/
def State.zoneEvent (st : Fin 4) (r : RowCtx) (s : State) : State :=
  if r.startedAt st then s.zoneEndEvent st r.row else s.zoneStartEvent st r.row

theorem State.zoneEvents_none {st : Fin 4} {n : Nat} {s : State}
    (h : s.track.find? (fun r => r.eventDueAt st) = none) : s.zoneEvents st n = s := by
  cases n with
  | zero => rfl
  | succ n => rw [State.zoneEvents, h]

theorem State.zoneEvents_some {st : Fin 4} {n : Nat} {s : State} {r : RowCtx}
    (h : s.track.find? (fun r => r.eventDueAt st) = some r) :
    s.zoneEvents st (n + 1) = (s.zoneEvent st r).zoneEvents st n := by
  rw [State.zoneEvents, h]
  rfl

theorem State.throwsOk.zoneEvent (h : s.throwsOk) (st : Fin 4) (r : RowCtx) : (s.zoneEvent st r).throwsOk := by
  unfold State.zoneEvent
  split
  · exact h.zoneEndEvent st _
  · exact h.zoneStartEvent st _

theorem State.throwsOk.zoneEvents (h : s.throwsOk) (st : Fin 4) (n : Nat) : (s.zoneEvents st n).throwsOk := by
  induction n generalizing s with
  | zero => exact h
  | succ n ih =>
    cases hf : s.track.find? fun r => r.eventDueAt st with
    | none => rwa [State.zoneEvents_none hf]
    | some r =>
      rw [State.zoneEvents_some hf]
      exact ih (h.zoneEvent st r)

theorem State.throwsOk.stationWeb (h : s.throwsOk) (p : Pos) (delta : Int) (st : Fin 4) :
    (s.stationWeb p delta st).throwsOk := by
  unfold State.stationWeb
  split
  · refine State.throwsOk.closeTest (State.throwsOk.zoneEvents (State.throwsOk.drift (h.of_same ?_ ?_) st _) st _) st
    · simp
    · simp
  · exact h

theorem State.throwsOk.giveUp (h : s.throwsOk) (st : Fin 4) (n : Word) (l : List Word) :
    (s.giveUp st n l).throwsOk := by
  induction l generalizing s with
  | nil => exact h
  | cons m l ih =>
    apply ih
    split
    · split
      · unfold State.addRisk
        split
        · exact h
        · exact (h.setStation_same st (x := { s.station st with risk := (s.station st).risk ++ [n] }) rfl rfl).of_same
            (by simp) (by simp)
      · have hm : ((s.mapEntry st m fun e => { e with outcome := some .sacrificed }).serving st
            (State.withdraw m)).throwsOk := h.of_same (by simp) (by simp)
        unfold State.sacrifice
        dsimp only
        split
        · split
          · exact hm
          · exact hm.openThrow st
        · exact hm.openThrow st
    · exact h

theorem State.throwsOk.stationOpen (h : s.throwsOk) (r : RowCtx) (st : Fin 4) : (s.stationOpen r st).throwsOk := by
  unfold State.stationOpen
  split
  · have hp : (s.placeRow st r).throwsOk := by
      unfold State.placeRow
      exact (h.of_same (by simp) (by simp)).setStation_same st rfl rfl
    unfold State.spliceTest
    split
    · exact hp.giveUp st _ _
    · exact hp
  · exact h

theorem State.throwsOk.drainStation (h : s.throwsOk) (st : Fin 4) : (s.drainStation st).throwsOk := by
  unfold State.drainStation
  split
  · dsimp only
    split
    · exact (h.commitAll st _).openThrow st
    · exact h.commitAll st _
  · exact h

theorem State.throwsOk.indexEvent (h : s.throwsOk) (st : Fin 4) (p : Pos) : (s.indexEvent st p).throwsOk := by
  unfold State.indexEvent
  dsimp only
  split
  · split
    · refine State.throwsOk.of_same (s := (s.leaveFor st .faulted).setStation st
        { (s.leaveFor st .faulted).station st with fault := true }) ?_ ?_ ?_
      · exact (h.leaveFor st _).setStation_same st rfl rfl
      · simp [State.slip]
      · simp [State.slip]
    · exact h
  · unfold State.firstIndex
    refine State.throwsOk.closeTest (State.throwsOk.zoneEvents ?_ st _) st
    refine State.throwsOk.of_same (h.setStation_same st
      (x := { s.station st with base := moved p (s.block st).indexOffset, drift := 0, indexSeen := true }) rfl rfl) ?_ ?_
    · simp
    · simp

theorem State.throwsOk.heatLoss (h : s.throwsOk) (st : Fin 4) : (s.heatLoss st).throwsOk := by
  unfold State.heatLoss
  dsimp only
  split
  all_goals
    refine State.throwsOk.of_same ?_ (State.raiseStop_frame _ _ _).2.2.2.2.2.2.2.2.1
      (State.raiseStop_frame _ _ _).2.2.2.2.2.2.1
  · exact h.leaveFor st _
  · exact h.leaveFor st _
  · exact h.leaveFor st _
  · exact h

theorem State.throwsOk.completeTravel (h : s.throwsOk) (st : Fin 4) : (s.completeTravel st).throwsOk := by
  unfold State.completeTravel
  split
  · rename_i hc
    exact h.setStation st fun _ => h st (by rw [hc]; rfl)
  · exact (h.setStation st fun hx => by simp [Throw.engaged] at hx).closeTest st
  · exact h

theorem State.throwsOk.stationExpiry (h : s.throwsOk) (heaters : Four Bool) (st : Fin 4) :
    (s.stationExpiry heaters st).throwsOk := by
  have hs : ((s.setStation st ((s.station st).sampleHeater (heaters.get st)))).throwsOk := by
    refine h.setStation_same st ?_ ?_ <;>
    · unfold Station.sampleHeater
      split <;> rfl
  have hc (u : State) (hu : u.throwsOk) : (u.countDwell st).throwsOk := by
    unfold State.countDwell
    dsimp only
    split <;> exact hu.setStation_same st rfl rfl
  have hl (u : State) (hu : u.throwsOk) : (u.resumeLifted st).throwsOk := by
    unfold State.resumeLifted
    split
    · exact hu.setState st (.inr rfl)
    · exact hu
  refine State.throwsOk.closeTest (hl _ (hc _ ?_)) st
  exact hs.setStation_same st rfl rfl

end

/-- What an action keeps at each of the four stations, it keeps at all of them. -/
theorem forStations_induct {P : State → Prop} {f : Fin 4 → State → State} (h : ∀ st s, P s → P (f st s)) {s : State}
    (hs : P s) : P (forStations f s) :=
  h 3 _ (h 2 _ (h 1 _ (h 0 _ hs)))

theorem forChannels_induct {P : State → Prop} {f : Fin 8 → State → State} (h : ∀ c s, P s → P (f c s)) {s : State}
    (hs : P s) : P (forChannels f s) :=
  h 7 _ (h 6 _ (h 5 _ (h 4 _ (h 3 _ (h 2 _ (h 1 _ (h 0 _ hs)))))))

theorem forLanes_induct {P : State → Prop} {f : Fin 4 → State → State} (h : ∀ l s, P s → P (f l s)) {s : State}
    (hs : P s) : P (forLanes f s) :=
  h 3 _ (h 2 _ (h 1 _ (h 0 _ hs)))

end Sys2Proof.Machine
end

section
/-! What a hold does to every block: the stations, the channels and the mark unit at once, then the rows retired
oldest first, each with a record that stands. -/

namespace Sys2Proof.Machine

/-! ## Row numbers on the track lie in slots of their own -/

theorem rowSucc_sub_toNat (n : Word) : (rowSucc n - n).toNat = 1 ∨ (rowSucc n - n).toNat = 2 := by
  unfold rowSucc
  split
  · rename_i h
    right
    have hn : n = -1#32 := by bv_omega
    subst hn
    rfl
  · left
    rw [show n + 1 - n = 1#32 by bv_omega]
    rfl

/-- A row behind another on the track is ahead of it by one or two for each row between (R27). -/
theorem numbered_sub_toNat {last next : Word} {r : RowCtx} {rest : List RowCtx}
    (h : numbered last next (r :: rest)) (hlen : rest.length < 32) :
    ∀ q ∈ rest, 1 ≤ (q.row - r.row).toNat ∧ (q.row - r.row).toNat ≤ 2 * rest.length := by
  induction rest generalizing r with
  | nil => simp
  | cons p rest ih =>
    obtain ⟨-, hp, hrest⟩ := h
    have hstep := rowSucc_sub_toNat r.row
    rw [← hp] at hstep
    intro q hq
    rw [List.length_cons] at hlen ⊢
    rcases List.mem_cons.1 hq with rfl | hq
    · omega
    · have hq := ih hrest (by omega) q hq
      have hsum : q.row - r.row = (q.row - p.row) + (p.row - r.row) := by bv_omega
      rw [hsum, BitVec.toNat_add]
      omega

theorem numbered_tail {last next : Word} {r : RowCtx} {rest : List RowCtx} (h : numbered last next (r :: rest)) :
    numbered last next rest := by
  cases rest with
  | nil => trivial
  | cons q rest => exact h.2.2

theorem recordSlot_ne {m n : Word} (h : 1 ≤ (n - m).toNat) (h' : (n - m).toNat < 128) :
    recordSlot m ≠ recordSlot n := by
  unfold recordSlot
  bv_omega

/-- The rows of the track are written to slots of their own (R27, R32). -/
theorem State.trackOk.pairwise_slots {s : State} (h : s.trackOk) :
    s.track.Pairwise fun r q => recordSlot r.row ≠ recordSlot q.row := by
  obtain ⟨hlen, -, hnum⟩ := h
  unfold trackCapacity at hlen
  generalize s.track = l at hlen hnum
  induction l with
  | nil => exact .nil
  | cons r rest ih =>
    rw [List.length_cons] at hlen
    refine .cons (fun q hq => ?_) (ih (by omega) (numbered_tail hnum))
    have hq := numbered_sub_toNat hnum (by omega) q hq
    exact recordSlot_ne hq.1 (by omega)

/-- The rows of the track have numbers of their own (R27, R32). -/
theorem State.trackOk.pairwise_rows {s : State} (h : s.trackOk) :
    s.track.Pairwise fun r q => r.row ≠ q.row :=
  h.pairwise_slots.imp fun h e => h (congrArg recordSlot e)

/-! ## Rows retired -/

/-- A state with CURRENT's content and nothing else, for what reads only that. -/
def State.ofCur (c : Current) : State := State.reset.withJobs { State.reset.jobs with current := some c }

theorem State.recordBytes_congr {s t : State} (h : t.cur = s.cur) (r : RowCtx) (n : Nat) :
    t.recordBytes r n = s.recordBytes r n := by
  have hcur (u : State) : u.recordBytes r n = (State.ofCur u.cur).recordBytes r n := rfl
  rw [hcur, h, ← hcur]

/-- A retirement of rows leaves a slot that none of them is written to. -/
theorem State.read_retireRows_other (rs : List RowCtx) (s : State) {x : Nat} (hlo : 0x4000 ≤ x)
    (h : ∀ r ∈ rs, ¬ (recordSlot r.row ≤ x ∧ x < recordSlot r.row + 128)) :
    (s.retireRows rs).mem.read x = s.mem.read x := by
  induction rs generalizing s with
  | nil => rfl
  | cons r rs ih =>
    rw [State.retireRows, ih _ (fun q hq => h q (List.mem_cons_of_mem r hq)), State.withLastRetired_mem,
      State.withTrack_mem, (State.record_spec r s).1, if_neg (h r List.mem_cons_self), if_neg (by omega),
      if_neg (by omega)]

theorem recordSlot_disjoint {m n : Word} (h : recordSlot m ≠ recordSlot n) {x : Nat} (hx : x < 128) :
    ¬ (recordSlot n ≤ recordSlot m + x ∧ recordSlot m + x < recordSlot n + 128) := by
  unfold recordSlot at *
  omega

theorem State.recordBytes_retire (s : State) (q : RowCtx) (rs : List RowCtx) (r : RowCtx) (n : Nat) :
    (((s.record q).withTrack rs).withLastRetired (some q)).recordBytes r n = s.recordBytes r n :=
  State.recordBytes_congr (by simp) r n

/-- Rows retired to slots of their own each have their record there at the end (R187, R196). -/
theorem State.read_retireRows (rs : List RowCtx) (s : State)
    (h : rs.Pairwise fun r q => recordSlot r.row ≠ recordSlot q.row) :
    ∀ r ∈ rs, ∀ x, x < 128 →
      (s.retireRows rs).mem.read (recordSlot r.row + x) = (s.recordBytes r r.row.toNat).getD x 0 := by
  induction rs generalizing s with
  | nil => simp
  | cons q rs ih =>
    obtain ⟨hq, hrs⟩ := List.pairwise_cons.1 h
    intro r hr x hx
    rw [State.retireRows]
    rcases List.mem_cons.1 hr with rfl | hr
    · rw [State.read_retireRows_other _ _ (by have := recordSlot_range r.row; omega)
        (fun p hp => recordSlot_disjoint (hq p hp) hx), State.withLastRetired_mem,
        State.withTrack_mem, (State.record_spec r s).1, if_pos (by omega), Nat.add_sub_cancel_left]
    · rw [ih _ hrs r hr x hx, State.recordBytes_retire]

theorem State.lapped_congr {s t : State} (h : changedByRecords s.mem t.mem) (n : Word) : t.lapped n ↔ s.lapped n := by
  have hw : t.mem.word 0x100 = s.mem.word 0x100 := by
    unfold Memory.word
    rw [Memory.nat_congr fun x hx hx' => h x (by unfold recordOffset; omega)]
  rw [State.lapped, State.lapped, hw]

theorem State.tallied_congr {s t : State} (hc : t.cur = s.cur) (hf : t.jobs.firstRow = s.jobs.firstRow) (n : Word) :
    t.tallied n ↔ s.tallied n := by
  rw [State.tallied, State.tallied, State.job, State.job, hc, hf]

/-- The causes that rows retired set (R192, R195). -/
theorem State.retireRows_causes (rs : List RowCtx) (s : State) :
    causesSet s (s.retireRows rs) fun k =>
      k = .recordLapped ∧ (∃ r ∈ rs, s.lapped r.row) ∨ k = .tally ∧ ∃ r ∈ rs, s.tallied r.row := by
  induction rs generalizing s with
  | nil => intro k; simp [State.retireRows]
  | cons q rs ih =>
    intro k
    have hlap (n) : (((s.record q).withTrack rs).withLastRetired (some q)).lapped n ↔ s.lapped n :=
      State.lapped_congr (State.record_within q s) n
    have htal (n) : (((s.record q).withTrack rs).withLastRetired (some q)).tallied n ↔ s.tallied n :=
      State.tallied_congr (by simp) (by simp) n
    have hrest := ih (((s.record q).withTrack rs).withLastRetired (some q)) k
    simp only [hlap, htal, State.withLastRetired_attn, State.withTrack_attn, (State.record_attn q s).1 k] at hrest
    rw [State.retireRows, hrest]
    simp only [List.mem_cons, exists_eq_or_imp]
    generalize s.attn.has k = h, s.lapped q.row = a, s.tallied q.row = b,
      (∃ r ∈ rs, s.lapped r.row) = a', (∃ r ∈ rs, s.tallied r.row) = b'
    tauto

/-! ## The blocks at a hold -/

/-- The state a hold retires the rows from: the run HELD, and the stations, the channels and the mark unit as the
hold leaves them (R149). -/
def State.heldBlocks (cause : HoldCause) (s : State) : State :=
  let s := s.withJobs { s.jobs with run := .held, holdCause := cause }
  let s := s.raiseStop .runHeld cause.stop
  let s := forStations State.holdStation s
  let s := forChannels State.holdChannel s
  s.withMark s.mark.clear

theorem State.hold_eq (cause : HoldCause) (s : State) :
    s.hold cause = ((s.heldBlocks cause).retireRows (s.heldBlocks cause).track).withLastRetired none := rfl

/-- Entries changed at one station. -/
theorem RowCtx.mapStation_get (r : RowCtx) (st k : Fin 4) (f : StationEntry → StationEntry) :
    (r.mapStation st f).stations.get k = if k = st then (r.stations.get st).map f else r.stations.get k := by
  simp [RowCtx.mapStation]

/-- The rows as holding the stations numbered in `p` leaves them. -/
def RowCtx.abandonedAt (r : RowCtx) (p : Fin 4 → Bool) : RowCtx :=
  { r with stations := r.stations.mapIdx fun st e => if p st then e.map StationEntry.abandon else e }

theorem RowCtx.ext_stations {r q : RowCtx} (h : ∀ st, r.stations.get st = q.stations.get st)
    (hq : r = { q with stations := r.stations }) : r = q := by
  rw [hq, Four.ext_get h]

theorem RowCtx.abandonedAt_mapStation (r : RowCtx) (p : Fin 4 → Bool) (st : Fin 4) (h : p st = false) :
    (r.abandonedAt p).mapStation st StationEntry.abandon = r.abandonedAt fun k => k == st || p k := by
  refine RowCtx.ext_stations (fun k => ?_) rfl
  rw [RowCtx.mapStation_get]
  by_cases hk : k = st
  · subst hk
    simp [RowCtx.abandonedAt, h]
  · simp [RowCtx.abandonedAt, hk]

theorem State.holdStation_track (st : Fin 4) (s : State) (p : Fin 4 → Bool) (l : List RowCtx) (hp : p st = false)
    (h : s.track = l.map fun r => r.abandonedAt p) :
    (s.holdStation st).track = l.map fun r => r.abandonedAt fun k => k == st && s.activeAt st || p k := by
  unfold State.holdStation
  cases ha : s.activeAt st with
  | false => simpa using h
  | true =>
    simp only [if_true, State.mapEntries, State.withTrack_track, (State.setStation_frame _ _ _).2.2.2.2.1, h,
      List.map_map, Bool.and_true]
    exact List.map_congr_left fun r _ => RowCtx.abandonedAt_mapStation r p st hp

theorem State.holdStation_activeAt (st k : Fin 4) (s : State) : (s.holdStation st).activeAt k = s.activeAt k := by
  unfold State.holdStation
  split
  · rename_i ha
    by_cases hk : k = st
    · subst hk
      have hx : (s.station k).state ≠ .inactive := by simpa [State.activeAt] using ha
      cases hs : (s.station k).state <;>
        simp_all [State.activeAt, State.mapEntries, State.setStation, State.station, State.withTrack,
          Station.hold, StationState.held] <;> rfl
    · simp [State.activeAt, State.mapEntries, State.setStation, State.station, State.withTrack, hk, State.withStations]
  · rfl

theorem RowCtx.abandonedAt_activeAt (s : State) (r : RowCtx) : r.abandonedAt s.activeAt = s.abandoned r := by
  refine RowCtx.ext_stations (fun k => ?_) rfl
  by_cases hk : (s.station k).state = .inactive
  · simp [RowCtx.abandonedAt, State.abandoned, State.activeAt, hk]
  · simp only [RowCtx.abandonedAt, State.abandoned, State.activeAt, Four.get_mapIdx, hk, if_false, bne_iff_ne, ne_eq,
      not_false_eq_true, if_true]
    rfl

theorem RowCtx.abandonedAt_none (r : RowCtx) : (r.abandonedAt fun _ => false) = r :=
  RowCtx.ext_stations (fun k => by simp [RowCtx.abandonedAt]) rfl

/-- Holding the four stations leaves every row as a hold leaves it (R96, R150). -/
theorem State.holdStations_track (s : State) : (forStations State.holdStation s).track = s.track.map s.abandoned := by
  have h0 : s.track = s.track.map fun r => r.abandonedAt fun _ => false := by
    simp only [RowCtx.abandonedAt_none, List.map_id']
  have h1 := State.holdStation_track 0 s _ _ rfl h0
  have h2 := State.holdStation_track 1 _ _ _ (by simp) h1
  have h3 := State.holdStation_track 2 _ _ _ (by simp) h2
  have h4 := State.holdStation_track 3 _ _ _ (by simp) h3
  refine h4.trans (List.map_congr_left fun r _ => ?_)
  rw [← RowCtx.abandonedAt_activeAt]
  congr 1
  funext k
  simp only [State.holdStation_activeAt]
  fin_cases k <;> simp

/-- The rows a hold retires are the rows of the track as the hold leaves them (R96, R150). -/
theorem State.heldBlocks_track (cause : HoldCause) (s : State) :
    (s.heldBlocks cause).track = s.track.map s.abandoned := by
  unfold State.heldBlocks
  simp only [State.withMark_track, forChannels_keeps (fun s => s.track) State.holdChannel (by simp),
    State.holdStations_track]
  rfl

/-! ## What a hold does -/

theorem Station.hold_eq (x : Station) (offTime : Nat) :
    x.hold offTime =
      { x with
        state := if x.state = .tracking ∨ x.state = .lifted then .catching else x.state
        throw := if x.throw = .closing ∨ x.throw = .on then .opening else x.throw
        timer := if x.throw = .closing ∨ x.throw = .on then offTime else x.timer
        dwell := 0, risk := [] } := by
  unfold Station.hold Station.openThrow Throw.engaged StationState.held
  cases ht : x.throw <;> cases x.state <;> simp [ht]

theorem State.hold_station (cause : HoldCause) (s : State) (st : Fin 4) : (s.hold cause).station st =
    if (s.station st).state = .inactive then s.station st else (s.station st).hold (s.block st).throwOff := by
  let s0 := (s.withJobs { s.jobs with run := .held, holdCause := cause }).raiseStop .runHeld cause.stop
  have hst : (s.hold cause).station st = (forStations State.holdStation s0).station st := by
    simp [State.hold, s0, State.station, forChannels_keeps (fun s => s.stations)]
  rw [hst, State.holdStation_station]
  rfl

theorem State.hold_channel (cause : HoldCause) (s : State) (c : Fin 8) : (s.hold cause).channel c =
    if (s.channel c).state = .idle then s.channel c
    else (s.channel c).hold (rampLength s.wpu.v8p (s.channel c).params) := by
  let s0 := (s.withJobs { s.jobs with run := .held, holdCause := cause }).raiseStop .runHeld cause.stop
  have hch : (s.hold cause).channel c = (forChannels State.holdChannel (forStations State.holdStation s0)).channel c := by
    simp [State.hold, s0, State.channel]
  rw [hch, State.holdChannel_channel]
  simp only [State.channel, forStations_keeps (fun s => s.channels) State.holdStation (by simp),
    forStations_keeps (fun s => s.wpu) State.holdStation (by simp)]
  rfl

theorem State.hold_stationsHeld (cause : HoldCause) (s : State) : stationsHeld s (s.hold cause) := by
  intro st
  rw [State.hold_station]
  refine ⟨fun hi => if_pos hi, fun hi => ?_⟩
  rw [if_neg hi, Station.hold_eq]

theorem State.hold_channelsHeld (cause : HoldCause) (s : State) : channelsHeld s (s.hold cause) := by
  intro c
  rw [State.hold_channel]
  refine ⟨fun hi => if_pos hi, fun hi => ?_⟩
  rw [if_neg hi]
  unfold Channel.hold Channel.cutRampUp Channel.accounts
  cases hx : (s.channel c).state <;> simp_all
  split <;> simp_all

theorem State.hold_jobs (cause : HoldCause) (s : State) :
    (s.hold cause).jobs = ({ s.jobs with run := .held, holdCause := cause } : JobControl).handStop cause.stop := by
  simp [State.hold, State.raiseStop, State.handStop, forStations, forChannels]

theorem State.hold_mark (cause : HoldCause) (s : State) : (s.hold cause).mark = s.mark.clear := by
  simp [State.hold, forStations, forChannels]

theorem State.hold_track (cause : HoldCause) (s : State) : (s.hold cause).track = [] := by
  rw [State.hold_eq, State.withLastRetired_track]
  obtain ⟨hnil, hcons, -⟩ := State.retireRows_spec (s.heldBlocks cause).track (s.heldBlocks cause)
  by_cases h : (s.heldBlocks cause).track = []
  · rw [hnil h, h]
  · exact hcons h

@[simp] theorem State.heldBlocks_frame (cause : HoldCause) (s : State) :
    (s.heldBlocks cause).mem = s.mem ∧
    (s.heldBlocks cause).records = s.records ∧
    (s.heldBlocks cause).attn = s.attn.raise .runHeld ∧
    (s.heldBlocks cause).cur = s.cur ∧
    (s.heldBlocks cause).jobs.firstRow = s.jobs.firstRow := by
  simp [State.heldBlocks, forStations, forChannels, State.raiseStop, State.handStop, State.raise, State.cur]
  exact ⟨rfl, rfl⟩

theorem State.abandoned_row (s : State) (r : RowCtx) : (s.abandoned r).row = r.row := rfl

/-- The causes a hold sets (R149, R192, R195). -/
theorem State.hold_causes (cause : HoldCause) (s : State) : causesSet s (s.hold cause) s.holdSets := by
  intro k
  have hlap (n) : (s.heldBlocks cause).lapped n ↔ s.lapped n := State.lapped_congr (fun x _ => by simp) n
  have htal (n) : (s.heldBlocks cause).tallied n ↔ s.tallied n := State.tallied_congr (by simp) (by simp) n
  have hrows := State.retireRows_causes (s.heldBlocks cause).track (s.heldBlocks cause) k
  simp only [hlap, htal, State.heldBlocks_frame, State.heldBlocks_track, Attention.raise_has, List.mem_map,
    exists_exists_and_eq_and, State.abandoned_row] at hrows
  rw [State.hold_eq, State.withLastRetired_attn, State.heldBlocks_track, hrows, State.holdSets]
  exact or_assoc.trans or_left_comm

theorem State.hold_mem (cause : HoldCause) (s : State) :
    (s.hold cause).mem = ((s.heldBlocks cause).retireRows (s.track.map s.abandoned)).mem := by
  rw [State.hold_eq, State.withLastRetired_mem, State.heldBlocks_track]

/-- The record of a row a hold retires (R150, R187, R196). -/
theorem State.hold_recordBytes (cause : HoldCause) (s : State) (hok : s.trackOk) {r : RowCtx} (hr : r ∈ s.track) {x : Nat}
    (hx : x < 128) :
    (s.hold cause).mem.read (recordSlot r.row + x) = (s.recordBytes (s.abandoned r) r.row.toNat).getD x 0 := by
  have hslots : (s.track.map s.abandoned).Pairwise fun r q => recordSlot r.row ≠ recordSlot q.row := by
    rw [List.pairwise_map]
    exact hok.pairwise_slots
  rw [State.hold_mem, ← State.abandoned_row s r,
    State.read_retireRows _ _ hslots _ (List.mem_map_of_mem hr) x hx,
    State.recordBytes_congr (State.heldBlocks_frame cause s).2.2.2.1]

/-- The records of a hold (R35, R150, R187, R196). -/
theorem State.hold_records (cause : HoldCause) (s : State) : recordsOfAHold s (s.hold cause) := by
  obtain ⟨hnil, -, hlast, hmem, -⟩ := State.retireRows_spec (s.heldBlocks cause).track (s.heldBlocks cause)
  obtain ⟨hword, holdest⟩ := State.hold_words cause s
  refine ⟨fun hok r hr => ⟨State.recordShown_of_bytes fun x hx => ?_, fun x hx => ?_⟩, fun r hr => ⟨?_, hword r hr⟩,
    holdest, fun ht => ?_, ?_⟩
  · exact State.hold_recordBytes cause s hok hr hx
  · exact State.hold_recordBytes cause s hok hr hx
  · rw [State.hold_eq, State.withLastRetired_records]
    exact hlast (s.abandoned r) (by rw [State.heldBlocks_track, List.getLast?_map, hr]; rfl)
  · rw [State.hold_eq, hnil (by rw [State.heldBlocks_track, ht]; rfl)]
    exact ⟨by simp, by simp⟩
  · intro x hx
    rw [State.hold_eq, State.withLastRetired_mem, hmem x hx, (State.heldBlocks_frame cause s).1]

/-- What a hold does to every block (R149, R150). -/
theorem State.hold_blocksHeld (cause : HoldCause) (s : State) : blocksHeld s (s.hold cause) :=
  ⟨State.hold_stationsHeld cause s, State.hold_channelsHeld cause s, State.hold_mark cause s,
    State.hold_track cause s, State.hold_records cause s, by simp, by simp, by simp⟩

theorem State.hold_sameOutside (cause : HoldCause) (s : State) : sameOutside s (s.hold cause) := by
  simp [sameOutside]

end Sys2Proof.Machine
end

section
/-! An encoder fault: the hold it asks for. -/

namespace Sys2Proof.Machine

theorem transition_illegal : ∀ p q : Bool × Bool, p.1 ≠ q.1 → p.2 ≠ q.2 → transition p q = .illegal := by decide

theorem State.handHold_of_holdable {s : State} (cause : HoldCause) (h : s.jobs.run.holdable = true) :
    s.handHold cause = s.hold cause := if_pos h

theorem State.handHold_of_not_holdable {s : State} (cause : HoldCause) (h : s.jobs.run.holdable = false) :
    s.handHold cause = s := if_neg (by simp [h])

theorem exec_encoderFault {s : State} {p : Bool × Bool} {a b : Bool} (hp : s.wpu.pair = some p) (ha : p.1 ≠ a)
    (hb : p.2 ≠ b) : exec (.encoderFault a b) s = .next ((s.setPair a b).handHold .encoder) := by
  have harm : exec (.encoderFault a b) s = execEncoderFault a b s := rfl
  rw [harm, execEncoderFault, hp]
  simp only [transition_illegal p (a, b) ha hb]

/-- Settles O25: the fault sets the pair and then acts as `State.hold` does. -/
theorem encoderFaultHoldsTheRun : Obligations.EncoderFaultHoldsTheRun := by
  unfold Obligations.EncoderFaultHoldsTheRun
  intro s p a b hp ha hb
  refine ⟨_, exec_encoderFault hp ha hb, by simp; rfl, fun hrun => ?_, fun hrun => ?_⟩
  · have hno : (s.setPair a b).jobs.run.holdable = false := by
      rcases hrun with hrun | hrun <;> simp [State.setPair, hrun, RunState.holdable]
    rw [State.handHold_of_not_holdable _ hno]
    rfl
  · have hyes : (s.setPair a b).jobs.run.holdable = true := by
      rcases hrun with hrun | hrun | hrun <;> simp [State.setPair, hrun, RunState.holdable]
    rw [State.handHold_of_holdable _ hyes]
    generalize hu : s.setPair a b = u
    have hattn : u.attn = s.attn := by rw [← hu]; rfl
    have hsets : u.holdSets = s.holdSets := by rw [← hu]; rfl
    refine ⟨?_, ?_, ?_, ?_⟩
    · rw [State.hold_jobs, ← hu]; rfl
    · rw [(State.hold_frame _ _).1]
      have hself : { s with wpu := u.wpu } = u := by rw [← hu]; rfl
      rw [hself]
      exact State.hold_blocksHeld _ u
    · rw [← hsets, causesSet, ← hattn]
      exact State.hold_causes _ u
    · have hout := State.hold_sameOutside .encoder u
      rw [← hu] at hout ⊢
      exact hout

end Sys2Proof.Machine
end

section
/-! What the run states mean, kept by every event of a run under way: each operation of the mark unit, the row track
and the stations, a row open, a hold and a retirement. -/

namespace Sys2Proof.Machine

/-- A run that is under way, with what ARMED and HELD mean, and no throw on where none may be. -/
structure State.underWay (s : State) : Prop where
  notIdle : s.jobs.run ≠ .idle
  quiet : s.jobs.run = .armed ∨ s.jobs.run = .held → s.track = [] ∧ s.mark.expected = none
  cause : s.jobs.holdCause ≠ .none ↔ s.jobs.run = .held
  throws : s.throwsOk

theorem State.track_eq_nil_iff {s t : State} (h : t.rows = s.rows) : t.track = [] ↔ s.track = [] := by
  have hl : t.track.length = s.track.length := by simpa [State.rows] using congrArg List.length h
  rw [← List.length_eq_zero_iff, hl, List.length_eq_zero_iff]

section
variable {s t : State}

theorem State.underWay.runOk (h : s.underWay) : s.runOk :=
  ⟨fun hi => absurd hi h.notIdle, fun hr => h.quiet (hr.resolve_left h.notIdle), h.cause⟩

theorem State.underWay_of_runOk (hr : s.runOk) (ht : s.throwsOk) (hi : s.jobs.run ≠ .idle) : s.underWay :=
  ⟨hi, fun h => hr.2.1 (.inr h), hr.2.2, ht⟩

/-- An operation that keeps the run, the rows and the expected mark keeps the run under way. -/
theorem State.underWay.of_same (h : s.underWay) (hrun : t.jobs.run = s.jobs.run)
    (hcause : t.jobs.holdCause = s.jobs.holdCause) (hrows : t.rows = s.rows) (hexp : t.mark.expected = s.mark.expected)
    (hthrows : t.throwsOk) : t.underWay where
  notIdle := hrun ▸ h.notIdle
  quiet hr := by
    rw [hrun] at hr
    rw [State.track_eq_nil_iff hrows, hexp]
    exact h.quiet hr
  cause := by rw [hcause, hrun]; exact h.cause
  throws := hthrows

/-- The same where the stations stand as they are. -/
theorem State.underWay.of_stations (h : s.underWay) (hrun : t.jobs.run = s.jobs.run)
    (hcause : t.jobs.holdCause = s.jobs.holdCause) (hrows : t.rows = s.rows) (hexp : t.mark.expected = s.mark.expected)
    (hst : t.stations = s.stations) : t.underWay :=
  h.of_same hrun hcause hrows hexp (h.throws.of_same hrun hst)

theorem Station.hold_throwOk {x : Station} {run : RunState} (h : x.throwOk run) (off : Nat) (run' : RunState) :
    (if x.state = .inactive then x else x.hold off).throwOk run' := by
  intro he
  split at he
  · rename_i hi
    rw [(h he).1] at hi
    cases hi
  · have hoff : (x.hold off).throw.engaged = false := Station.openThrow_not_engaged x off
    simp [hoff] at he

/-- A hold with a cause leaves the run under way (R92, R149). -/
theorem State.throwsOk.underWay_hold (h : s.throwsOk) {cause : HoldCause} (hc : cause ≠ .none) :
    (s.hold cause).underWay where
  notIdle := by simp [State.hold_jobs, JobControl.handStop]
  quiet _ := ⟨State.hold_track cause s, by simp [State.hold_mark, MarkUnit.clear]⟩
  cause := by simp [State.hold_jobs, JobControl.handStop, hc]
  throws st := by
    rw [State.hold_station]
    exact Station.hold_throwOk (h st) _ _

theorem State.underWay.handHold (h : s.underWay) {cause : HoldCause} (hc : cause ≠ .none) :
    (s.handHold cause).underWay := by
  unfold State.handHold
  split
  · exact h.throws.underWay_hold hc
  · exact h

/-! ## A row open -/

/-- A row open in ARMED or RUNNING leaves the run under way; with the status FIRST, or in RUNNING, it is RUNNING then
unless the track is full (R28, R33, R145). -/
theorem State.underWay.openRow (h : s.underWay) (status : MarkStatus) (p : Pos)
    (hrun : s.jobs.run = .running ∨ s.jobs.run = .armed ∧ status = .first) : (s.openRow status p).underWay := by
  unfold State.openRow
  split
  · exact h.handHold (by simp)
  · dsimp only
    generalize ht : ((forLanes (State.openLane (s.newRow status p).row p)
      (s.appendRow (s.newRow status p))).withMark _).noteStatus status = t
    have htrun : t.jobs.run = s.jobs.run ∧ t.jobs.holdCause = s.jobs.holdCause ∧ t.stations = s.stations := by
      rw [← ht]; simp [forLanes]
    have hnone : s.jobs.holdCause = .none := by
      by_contra hc
      have := h.cause.1 hc
      rcases hrun with hr | ⟨hr, -⟩ <;> simp [hr] at this
    have hfirst : (t.noteFirst status).jobs.run = .running ∧ (t.noteFirst status).jobs.holdCause = .none := by
      unfold State.noteFirst
      split
      · exact ⟨rfl, by simpa using htrun.2.1.trans hnone⟩
      · rename_i hs
        exact ⟨htrun.1.trans (hrun.resolve_right fun hr => hs hr.2), htrun.2.1.trans hnone⟩
    have hthrows : (t.noteFirst status).throwsOk := by
      intro st he
      have hst : (t.noteFirst status).station st = s.station st := by simp [State.station, htrun.2.2]
      rw [hst] at he ⊢
      exact ⟨(h.throws st he).1, .inl hfirst.1⟩
    generalize t.noteFirst status = u at hfirst hthrows
    have hrun' : (forStations (State.stationOpen (s.newRow status p)) u).jobs.run = .running := by
      simpa [forStations] using hfirst.1
    exact ⟨by simp [hrun'], by simp [hrun'], by rw [hrun']; simp [forStations, hfirst.2],
      forStations_induct (fun st _ hu => hu.stationOpen _ st) hthrows⟩

/-! ## A web position change -/

theorem State.underWay.closeLane (h : s.underWay) (p : Pos) (l : Fin 4) : (s.closeLane p l).underWay := by
  refine h.of_stations (by simp) (by simp) (by simp) ?_ (by simp)
  unfold State.closeLane
  split
  · split
    · simp [State.laneMissing, State.setWindow]
    · rfl
  · rfl

theorem State.underWay.closeLeading (h : s.underWay) (p : Pos) : (s.closeLeading p).underWay := by
  unfold State.closeLeading
  split
  · rename_i hr _
    split
    · exact h.openRow _ _ (.inl hr)
    · exact h
  · exact h

theorem State.underWay.markWeb (h : s.underWay) (p : Pos) : (s.markWeb p).underWay :=
  forLanes_induct (P := State.underWay) (fun l _ hu => hu.closeLane p l)
    ((forLanes_induct (P := State.underWay) (fun l _ hu => hu.closeLane p l) h).closeLeading p)

theorem State.underWay.reverseCheck (h : s.underWay) : s.reverseCheck.underWay := by
  unfold State.reverseCheck
  split
  · exact h.throws.underWay_hold (by simp)
  · exact h

theorem State.underWay.webChange (h : s.underWay) (p : Pos) : (s.webChange p).underWay := by
  refine State.underWay.reverseCheck (State.underWay.markWeb ?_ p)
  refine forStations_induct (P := State.underWay) (fun st u hu => ?_)
    (forChannels_induct (P := State.underWay) (fun c u hu => ?_) ?_)
  · exact hu.of_same (by simp) (by simp) (by simp) (by simp) (hu.throws.stationWeb p _ st)
  · exact hu.of_stations (by simp) (by simp) (by simp) (by simp) (by simp)
  · exact h.of_stations rfl rfl rfl rfl rfl

theorem State.underWay.count (h : s.underWay) (d : Direction) : (s.count d).underWay := by
  have hw : (s.withWpu (s.wpu.count d)).underWay := h.of_stations rfl rfl rfl rfl rfl
  unfold State.count
  dsimp only
  split
  · exact hw
  · exact hw.webChange _

/-! ## Marks -/

theorem State.underWay.leadingEdge (h : s.underWay) (p : Pos) (n : Nat) : (s.leadingEdge p n).underWay := by
  induction n generalizing s with
  | zero => exact h
  | succ n ih =>
    unfold State.leadingEdge
    split
    · rename_i hr _
      split
      · exact h
      · split
        · exact ih (h.openRow _ _ (.inl hr))
        · exact h.openRow _ _ (.inl hr)
    · exact h

theorem State.underWay.setHeld (h : s.underWay) (l : Fin 4) (p : Option Pos) : (s.setHeld l p).underWay :=
  h.of_stations rfl rfl rfl rfl rfl

theorem State.underWay.laneFound (h : s.underWay) (l : Fin 4) (w : LaneWindow) (p : Pos) :
    (s.laneFound l w p).underWay :=
  h.of_stations (by simp) (by simp) (by simp) (by simp [State.laneFound, State.setWindow]) (by simp)

theorem State.underWay.laneEdge (h : s.underWay) (l : Fin 4) (p : Pos) : (s.laneEdge l p).underWay := by
  unfold State.laneEdge
  split
  · split
    · exact h.laneFound l _ p
    · exact h.setHeld l _
  · exact h.setHeld l _

theorem State.underWay.takeMark (h : s.underWay) (l : Fin 4) (p : Pos) : (s.takeMark l p).underWay := by
  unfold State.takeMark
  split
  · split
    · split
      · rename_i hr
        exact h.openRow _ _ (.inr ⟨hr, rfl⟩)
      · exact h.leadingEdge p _
      · exact h
    · split
      · exact h.setHeld l _
      · exact h.laneEdge l p
      · exact h.laneEdge l p
      · exact h
  · exact h

/-! ## The entry to IDLE and the retirement of the head row -/

/-- What the entry to IDLE leaves is what IDLE means (R12, R32, R38, R99, R105, R147). -/
theorem State.enterIdle_runOk (s : State) : s.enterIdle.runOk ∧ s.enterIdle.throwsOk := by
  obtain ⟨hjobs, -, hmark, hwpu, htrack, -, hst, hch, -⟩ := s.enterIdle_spec
  refine ⟨⟨fun _ => ⟨fun st => ?_, fun c => ?_, by rw [hwpu]⟩, fun _ => ⟨htrack, by rw [hmark]; rfl⟩, by simp [hjobs]⟩,
    fun st he => ?_⟩
  · rw [(hst st).1, (hst st).2]
    simp [Station.resting, Station.toInactive]
  · rw [(hch c).1, (hch c).2]
    simp [Channel.resting, Channel.toIdle]
  · rw [(hst st).1] at he
    simp [Station.toInactive, Throw.engaged] at he

theorem State.headReady_track (h : s.headReady = true) : s.track ≠ [] := by
  intro ht
  simp [State.headReady, ht] at h

theorem State.underWay.retire (h : s.underWay) (hready : s.headReady = true) : s.retire.runOk ∧ s.retire.throwsOk := by
  have hrun : ¬ (s.jobs.run = .armed ∨ s.jobs.run = .held) := fun hr => State.headReady_track hready (h.quiet hr).1
  have hu : s.retireHead.underWay := ⟨by simpa using h.notIdle, fun hr => absurd (by simpa using hr) hrun,
    by simpa using h.cause, h.throws.of_same (by simp) (by simp)⟩
  unfold State.retire
  dsimp only
  split
  · exact s.retireHead.enterIdle_runOk
  · exact ⟨hu.runOk, hu.throws⟩

end

end Sys2Proof.Machine
end

section
/-! What the run states mean, kept by every step: the events in IDLE, the events of a run under way, and the
commands. -/

namespace Sys2Proof.Machine

/-! ## The events of a run under way -/

theorem State.underWay.raise {s : State} (h : s.underWay) (c : AttnCause) : (s.raise c).underWay :=
  h.of_stations rfl rfl rfl rfl rfl

theorem State.underWay.setStation {s : State} (h : s.underWay) (st : Fin 4) {x : Station}
    (ht : x.throw = (s.station st).throw) (hs : x.state = (s.station st).state) : (s.setStation st x).underWay :=
  h.of_same rfl rfl (by simp) rfl (h.throws.setStation_same st ht hs)

theorem State.underWay.timebase {s : State} (h : s.underWay) (heaters : Four Bool) :
    (forChannels State.channelExpiry (forStations (State.stationExpiry heaters) s.speedUpdate)).liveUpdate.underWay := by
  suffices hw : (forChannels State.channelExpiry (forStations (State.stationExpiry heaters) s.speedUpdate)).underWay from
    hw.of_stations (by simp) (by simp) (by simp) (by simp) (by simp)
  refine forChannels_induct (P := State.underWay) (fun c u hu => ?_)
    (forStations_induct (P := State.underWay) (fun st u hu => ?_) ?_)
  · exact hu.of_stations (by simp) (by simp) (by simp) (by simp) (by simp)
  · exact hu.of_same (by simp) (by simp) (by simp) (by simp) (hu.throws.stationExpiry heaters st)
  · exact h.of_stations (by simp) (by simp) (by simp) (by simp) (by simp)

/-- Every event of the mechanism in a run under way keeps what the run states mean (R32, R92, R99, R105, R147 to
R151). -/
theorem State.underWay.event {c : Instr} {s t : State} (hc : c.mechanical = true) (h : s.underWay)
    (he : exec c s = .next t) : t.runOk ∧ t.throwsOk := by
  have done {u : State} (hu : u.underWay) (he : (.next u : Host.Outcome State Fault Refusal) = .next t) :
      t.runOk ∧ t.throwsOk := by
    obtain rfl := Host.Outcome.next.inj he
    exact ⟨hu.runOk, hu.throws⟩
  cases c with
  | encoderCount a b =>
    have hp : (s.setPair a b).underWay := h.of_stations rfl rfl rfl rfl rfl
    simp only [exec, execEncoderCount] at he
    split at he
    · exact done hp he
    · split at he
      · exact done (hp.count _) he
      · exact done (hp.count _) he
      · exact done h he
  | encoderFault a b =>
    have hp : (s.setPair a b).underWay := h.of_stations rfl rfl rfl rfl rfl
    simp only [exec, execEncoderFault] at he
    split at he
    · exact done hp he
    · split at he
      · exact done (hp.handHold (by simp)) he
      · exact done h he
  | timebaseExpiry heaters => exact done (h.timebase heaters) he
  | liftEvent st =>
    simp only [exec, execLiftEvent] at he
    split at he
    · exact done (State.underWay.raise (h.of_same (by simp) (by simp) (by simp) (by simp) (h.throws.leaveFor st _)) _) he
    · exact done h he
  | throwTravelComplete st =>
    simp only [exec, execThrowTravelComplete] at he
    split at he
    · exact done (h.of_same (by simp) (by simp) (by simp) (by simp) (h.throws.completeTravel st)) he
    · exact done h he
  | stepEmit g ns =>
    simp only [exec, execStepEmit] at he
    split at he
    · exact done (h.of_stations (by simp) (by simp) (by simp) (by simp) (by simp)) he
    · exact done h he
  | markEdge lane level p =>
    have hm : (s.setMarkLevel lane level).underWay := h.of_stations rfl rfl rfl rfl rfl
    simp only [exec, execMarkEdge] at he
    split at he
    · exact done h he
    · split at he
      · exact done (hm.takeMark lane p) he
      · exact done hm he
  | commitEvent st =>
    simp only [exec, execCommitEvent] at he
    split at he
    · exact done (h.of_same (by simp) (by simp) (by simp) (by simp) (h.throws.commit st _)) he
    · exact done h he
  | retirementEvent =>
    simp only [exec, execRetirementEvent] at he
    split at he
    · rename_i hready
      obtain rfl := Host.Outcome.next.inj he
      exact h.retire hready
    · exact done h he
  | indexEdge st level p =>
    have hl : (s.setIndexLevel st level).underWay := h.setStation st rfl rfl
    simp only [exec, execIndexEdge] at he
    split at he
    · exact done h he
    · split at he
      · exact done (hl.of_same (by simp) (by simp) (by simp) (by simp) (hl.throws.indexEvent st p)) he
      · exact done hl he
  | heatLossEvent st =>
    have ha : (s.setStation st ((s.station st).acceptHeater false)).underWay := h.setStation st rfl rfl
    simp only [exec, execHeatLossEvent] at he
    split at he
    · split at he
      · exact done (ha.of_same (by simp) (by simp) (by simp) (by simp) (ha.throws.heatLoss st)) he
      · exact done ha he
    · exact done h he
  | heatReadyEvent st =>
    have ha : (s.setStation st ((s.station st).acceptHeater true)).underWay := h.setStation st rfl rfl
    simp only [exec, execHeatReadyEvent] at he
    split at he
    · split at he
      · rename_i hw
        simp only [Bool.and_eq_true, beq_iff_eq] at hw
        refine done (ha.of_same (by simp) (by simp) (by simp) (by simp) (ha.throws.setState st (.inl ?_))) he
        by_contra hon
        have := (ha.throws st (by simpa using hon)).1
        rw [hw.2] at this
        cases this
      · exact done ha he
    · exact done h he
  | _ => cases hc

/-! ## The events in IDLE -/

/-- What an operation in IDLE keeps of rest. -/
structure keepsRest (s t : State) : Prop where
  run : t.jobs.run = s.jobs.run
  cause : t.jobs.holdCause = s.jobs.holdCause
  track : t.track = s.track
  expected : t.mark.expected = s.mark.expected
  stations : ∀ st, (s.station st).resting → (t.station st).resting
  channels : ∀ c, (s.channel c).resting → (t.channel c).resting
  cylinders : ∀ st, (t.cylGens.get st).ratio = (s.cylGens.get st).ratio
  foils : ∀ c, (t.foilGens.get c).ratio = (s.foilGens.get c).ratio
  overspeed : t.wpu.overspeed = s.wpu.overspeed

/-- IDLE, with what it means. -/
structure State.atRest (s : State) : Prop where
  idle : s.jobs.run = .idle
  ok : s.runOk

section
variable {s t : State}

theorem State.atRest.station (h : s.atRest) (st : Fin 4) : (s.station st).resting := ((h.ok.1 h.idle).1 st).1

theorem State.atRest.channel (h : s.atRest) (c : Fin 8) : (s.channel c).resting := ((h.ok.1 h.idle).2.1 c).1

theorem State.atRest.track (h : s.atRest) : s.track = [] := (h.ok.2.1 (.inl h.idle)).1

theorem State.atRest.throwsOk (h : s.atRest) : s.throwsOk := by
  intro st he
  obtain ⟨-, -, hoff, -⟩ := h.station st
  simp [hoff, Throw.engaged] at he

theorem State.atRest.activeAt (h : s.atRest) (st : Fin 4) : s.activeAt st = false := by
  obtain ⟨hi, -⟩ := h.station st
  simp [State.activeAt, hi]

theorem State.atRest.keeps (h : s.atRest) (k : keepsRest s t) : t.atRest := by
  obtain ⟨hidle, hquiet, hcause⟩ := h.ok
  obtain ⟨hst, hch, hover⟩ := hidle h.idle
  refine ⟨k.run.trans h.idle, fun _ => ⟨fun st => ⟨k.stations st (hst st).1, ?_⟩,
    fun c => ⟨k.channels c (hch c).1, ?_⟩, by rw [k.overspeed, hover]⟩, ?_, ?_⟩
  · rw [k.cylinders, (hst st).2]
  · rw [k.foils, (hch c).2]
  · rw [k.run, k.track, k.expected]; exact hquiet
  · rw [k.run, k.cause]; exact hcause

/-- An operation on the web position unit alone keeps rest, where it keeps the overspeed flag. -/
theorem keepsRest_of_wpu {w : Wpu} (h : t = s.withWpu w) (ho : w.overspeed = s.wpu.overspeed) : keepsRest s t := by
  subst h
  exact ⟨rfl, rfl, rfl, rfl, fun _ h => h, fun _ h => h, fun _ => rfl, fun _ => rfl, ho⟩

theorem keepsRest_setStation (st : Fin 4) {x : Station} (hx : (s.station st).resting → x.resting) :
    keepsRest s (s.setStation st x) := by
  refine ⟨rfl, rfl, rfl, rfl, fun k hk => ?_, fun _ h => h, fun _ => rfl, fun _ => rfl, rfl⟩
  rw [State.station_setStation]
  split
  · rename_i he
    exact hx (he ▸ hk)
  · exact hk

theorem forChannels_self {f : Fin 8 → State → State} (h : ∀ c, f c s = s) : forChannels f s = s := by
  simp [forChannels, h]

theorem forStations_self {f : Fin 4 → State → State} (h : ∀ st, f st s = s) : forStations f s = s := by
  simp [forStations, h]

theorem forLanes_self {f : Fin 4 → State → State} (h : ∀ l, f l s = s) : forLanes f s = s := by
  simp [forLanes, h]

/-- A web position change in IDLE moves the high-water position and nothing else (R5, R7). -/
theorem State.atRest.webChange (h : s.atRest) (p : Pos) : s.webChange p = s.withWpu s.wpu.advanceHighWater := by
  generalize hu : s.withWpu s.wpu.advanceHighWater = u
  have hr : u.atRest := h.keeps (keepsRest_of_wpu hu.symm (by rw [Wpu.advanceHighWater]; split <;> rfl))
  have hfoil (hw n c) : u.foilAdvance hw n c = u := by
    rw [State.foilAdvance, if_pos (hr.channel c).1]
  have hstation (d st) : u.stationWeb p d st = u := by
    rw [State.stationWeb, hr.activeAt st]
    rfl
  have hmoving : u.moving = false := by simp [State.moving, hr.idle]
  have hlane (l) : u.closeLane p l = u := by
    unfold State.closeLane
    split
    · rw [hmoving]; rfl
    · rfl
  have hleading : u.closeLeading p = u := by
    unfold State.closeLeading
    rw [hr.idle]
  have hreverse : u.reverseCheck = u := by
    rw [State.reverseCheck, hr.idle]
    rfl
  unfold State.webChange
  simp only [hu]
  rw [forChannels_self (hfoil _ _), forStations_self (hstation _), State.markWeb, forLanes_self hlane, hleading,
    forLanes_self hlane, hreverse]

/-- A count in IDLE moves the web position unit and nothing else (R3, R7). -/
theorem State.atRest.count (h : s.atRest) (d : Direction) : keepsRest s (s.count d) := by
  have hcount : keepsRest s (s.withWpu (s.wpu.count d)) := keepsRest_of_wpu rfl (by cases d <;> rfl)
  unfold State.count
  dsimp only
  split
  · exact hcount
  · rw [(h.keeps hcount).webChange]
    exact keepsRest_of_wpu rfl (by rw [Wpu.advanceHighWater]; split <;> cases d <;> rfl)

/-- An expiry in IDLE changes the heater samples of the stations and nothing else of them (R75). -/
theorem State.atRest.stationExpiry (h : s.atRest) (heaters : Four Bool) (st : Fin 4) :
    (s.stationExpiry heaters st).atRest := by
  have hsample : ((s.setStation st ((s.station st).sampleHeater (heaters.get st)))).atRest := by
    refine h.keeps (keepsRest_setStation st fun hx => ?_)
    unfold Station.sampleHeater
    split
    · exact hx
    · exact hx
  have htimer (u : State) (hu : u.atRest) : (u.setStation st { u.station st with timer := (u.station st).timer - 1 }).atRest := by
    refine hu.keeps (keepsRest_setStation st fun hx => ?_)
    obtain ⟨hi, hf, ht, h0, hrest⟩ := hx
    exact ⟨hi, hf, ht, by simp [h0], hrest⟩
  have hdwell (u : State) (hu : u.atRest) : (u.countDwell st).atRest := by
    have hi := (hu.station st).1
    unfold State.countDwell
    have hno : (u.station st).state ≠ .tracking := by simp [hi]
    simp only [beq_eq_false_iff_ne.2 hno, Bool.and_false, Bool.false_and, Bool.false_eq_true, if_false]
    refine hu.keeps (keepsRest_setStation st fun hx => ?_)
    obtain ⟨hi, hf, ht, h0, -, hrest⟩ := hx
    exact ⟨hi, hf, ht, h0, rfl, hrest⟩
  have hresume (u : State) (hu : u.atRest) : u.resumeLifted st = u := by
    rw [State.resumeLifted, (hu.station st).1]
    rfl
  have hclose (u : State) (hu : u.atRest) : u.closeTest st = u := by
    rw [State.closeTest, State.closeDue, (hu.station st).1]
    rfl
  have hfinal := hdwell _ (htimer _ hsample)
  unfold State.stationExpiry
  dsimp only
  rw [hresume _ hfinal, hclose _ hfinal]
  exact hfinal

theorem State.atRest.timebase (h : s.atRest) (heaters : Four Bool) :
    (forChannels State.channelExpiry (forStations (State.stationExpiry heaters) s.speedUpdate)).liveUpdate.atRest := by
  have hspeed : s.speedUpdate = s.withWpu s.wpu.updateSpeed.updatePlanning := by
    exact if_pos h.idle
  have hs : s.speedUpdate.atRest := h.keeps (keepsRest_of_wpu hspeed rfl)
  have hst := forStations_induct (P := State.atRest) (fun st _ hu => hu.stationExpiry heaters st) hs
  generalize forStations (State.stationExpiry heaters) s.speedUpdate = u at hst
  have hch (c) : u.channelExpiry c = u := by
    rw [State.channelExpiry, (hst.channel c).1]
    rfl
  rw [forChannels_self hch]
  exact hst.keeps ⟨by simp, by simp, by simp, by simp, fun st hx => by simpa [State.station] using hx,
    fun c hx => by simpa [State.channel] using hx, by simp, by simp, by simp⟩

theorem keepsRest_setGen (g : GenId) {x : StepGen} (hx : x.ratio = (s.gen g).ratio) : keepsRest s (s.setGen g x) := by
  refine ⟨by simp, by simp, by simp, by simp, fun st h => by simpa [State.station] using h,
    fun c h => by simpa [State.channel] using h, fun st => ?_, fun c => ?_, by simp⟩
  · have := State.gen_setGen s g (.cylinder st) x
    rw [State.gen, State.gen] at this
    rw [this]
    split
    · rename_i hg
      rw [hx, ← hg]
      rfl
    · rfl
  · have := State.gen_setGen s g (.foil c) x
    rw [State.gen, State.gen] at this
    rw [this]
    split
    · rename_i hg
      rw [hx, ← hg]
      rfl
    · rfl

theorem StepGen.emit_ratio (g : StepGen) : g.emit.ratio = g.ratio := by
  unfold StepGen.emit
  split <;> rfl

/-- Every event of the mechanism in IDLE keeps what IDLE means (R99, R105, R147). -/
theorem State.atRest.event {c : Instr} (hc : c.mechanical = true) (h : s.atRest) (he : exec c s = .next t) :
    t.runOk ∧ t.throwsOk := by
  have done {u : State} (hu : u.atRest) (he : (.next u : Host.Outcome State Fault Refusal) = .next t) :
      t.runOk ∧ t.throwsOk := by
    obtain rfl := Host.Outcome.next.inj he
    exact ⟨hu.ok, hu.throwsOk⟩
  cases c with
  | encoderCount a b =>
    have hp : (s.setPair a b).atRest :=
      h.keeps (keepsRest_of_wpu (w := { s.wpu with pair := some (a, b) }) rfl rfl)
    simp only [exec, execEncoderCount] at he
    split at he
    · exact done hp he
    · split at he
      · exact done (hp.keeps (hp.count _)) he
      · exact done (hp.keeps (hp.count _)) he
      · exact done h he
  | encoderFault a b =>
    have hp : (s.setPair a b).atRest :=
      h.keeps (keepsRest_of_wpu (w := { s.wpu with pair := some (a, b) }) rfl rfl)
    have hhold : (s.setPair a b).handHold .encoder = s.setPair a b :=
      State.handHold_of_not_holdable _ (by rw [hp.idle]; rfl)
    simp only [exec, execEncoderFault, hhold] at he
    split at he
    · exact done hp he
    · split at he
      · exact done hp he
      · exact done h he
  | timebaseExpiry heaters => exact done (h.timebase heaters) he
  | liftEvent st =>
    have hno : s.liftDue st = false := by simp [State.liftDue, State.heatedActive, h.activeAt st]
    simp only [exec, execLiftEvent, hno] at he
    exact done h he
  | throwTravelComplete st =>
    have hno : s.travelDone st = false := by simp [State.travelDone, (h.station st).2.2.1]
    simp only [exec, execThrowTravelComplete, hno] at he
    exact done h he
  | stepEmit g ns =>
    simp only [exec, execStepEmit] at he
    split at he
    · exact done (h.keeps (keepsRest_setGen g (StepGen.emit_ratio _))) he
    · exact done h he
  | markEdge lane level p =>
    have hm : (s.setMarkLevel lane level).atRest :=
      h.keeps ⟨rfl, rfl, rfl, rfl, fun _ h => h, fun _ h => h, fun _ => rfl, fun _ => rfl, rfl⟩
    have htake : (s.setMarkLevel lane level).takeMark lane p = s.setMarkLevel lane level := by
      simp only [State.takeMark, hm.idle, ite_self]
    simp only [exec, execMarkEdge, htake, ite_self] at he
    split at he
    · exact done h he
    · exact done hm he
  | commitEvent st =>
    have hno : s.commitDue st = none := by
      unfold State.commitDue State.firstUncommitted
      rw [h.track]
      rfl
    simp only [exec, execCommitEvent, hno] at he
    exact done h he
  | retirementEvent =>
    have hno : s.headReady = false := by rw [State.headReady, h.track]
    simp only [exec, execRetirementEvent, hno] at he
    exact done h he
  | indexEdge st level p =>
    have hl : (s.setIndexLevel st level).atRest := h.keeps (keepsRest_setStation st fun hx => hx)
    have hno : (s.setIndexLevel st level).indexTaken st = false := by simp [State.indexTaken, hl.activeAt st]
    simp only [exec, execIndexEdge, hno, Bool.and_false] at he
    split at he
    · exact done h he
    · exact done hl he
  | heatLossEvent st =>
    have ha : (s.setStation st ((s.station st).acceptHeater false)).atRest :=
      h.keeps (keepsRest_setStation st fun hx => hx)
    have hno : (s.setStation st ((s.station st).acceptHeater false)).heatedActive st = false := by
      simp [State.heatedActive, ha.activeAt st]
    simp only [exec, execHeatLossEvent, hno] at he
    split at he
    · exact done ha he
    · exact done h he
  | heatReadyEvent st =>
    have ha : (s.setStation st ((s.station st).acceptHeater true)).atRest :=
      h.keeps (keepsRest_setStation st fun hx => hx)
    have hno : (s.setStation st ((s.station st).acceptHeater true)).heatedActive st = false := by
      simp [State.heatedActive, ha.activeAt st]
    simp only [exec, execHeatReadyEvent, hno, Bool.false_and] at he
    split at he
    · exact done ha he
    · exact done h he
  | _ => cases hc

end

end Sys2Proof.Machine
end

section
/-! What the run states mean, kept by every command, and so by every step. -/

namespace Sys2Proof.Machine

/-- What the run states mean, with where a throw may be on. -/
def State.runHolds (s : State) : Prop := s.runOk ∧ s.throwsOk

section
variable {s t : State}

theorem State.underWay.runHolds (h : s.underWay) : s.runHolds := ⟨h.runOk, h.throws⟩

theorem State.atRest.runHolds (h : s.atRest) : s.runHolds := ⟨h.ok, h.throwsOk⟩

/-- The state is at rest in IDLE, and the run is under way outside it. -/
theorem State.runHolds.cases (h : s.runHolds) : s.atRest ∨ s.underWay := by
  by_cases hi : s.jobs.run = .idle
  · exact .inl ⟨hi, h.1⟩
  · exact .inr (State.underWay_of_runOk h.1 h.2 hi)

/-- A command that leaves the run, the rows, the mark unit, the stations and the generators as they are, and the
channels in the state they are in. -/
theorem State.runHolds.of_same (h : s.runHolds) (hrun : t.jobs.run = s.jobs.run)
    (hcause : t.jobs.holdCause = s.jobs.holdCause) (htrack : t.track = s.track) (hmark : t.mark = s.mark)
    (hst : t.stations = s.stations) (hch : ∀ c, (s.channel c).resting → (t.channel c).resting)
    (hcyl : t.cylGens = s.cylGens) (hfoil : t.foilGens = s.foilGens) (hwpu : t.wpu = s.wpu) : t.runHolds := by
  rcases h.cases with h | h
  · exact (h.keeps ⟨hrun, hcause, htrack, by rw [hmark], fun st hx => by rwa [State.station, hst], hch,
      fun _ => by rw [hcyl], fun _ => by rw [hfoil], by rw [hwpu]⟩).runHolds
  · exact (h.of_stations hrun hcause (by rw [State.rows, htrack, State.rows]) (by rw [hmark]) hst).runHolds

/-- The same where the channels stand as they are too. -/
theorem State.runHolds.of_blocks (h : s.runHolds) (hrun : t.jobs.run = s.jobs.run)
    (hcause : t.jobs.holdCause = s.jobs.holdCause) (htrack : t.track = s.track) (hmark : t.mark = s.mark)
    (hst : t.stations = s.stations) (hch : t.channels = s.channels)
    (hcyl : t.cylGens = s.cylGens) (hfoil : t.foilGens = s.foilGens) (hwpu : t.wpu = s.wpu) : t.runHolds :=
  h.of_same hrun hcause htrack hmark hst (fun c hx => by rwa [State.channel, hch]) hcyl hfoil hwpu

/-! ## The run begun -/

theorem Station.start_throwOk (x : Station) (heated : Bool) (rho : Int) (run : RunState) :
    (x.start heated rho).throwOk run := by
  intro he
  simp [Station.start, Throw.engaged] at he

theorem State.throwsOk.startStation (h : s.throwsOk) (st : Fin 4) : (s.startStation st).throwsOk := by
  unfold State.startStation
  dsimp only
  split
  · have hst := h.setStation st (Station.start_throwOk (s.station st) (s.block st).heated
      (ratioResidual (s.block st).steps (s.plate st).revolution) s.jobs.run)
    exact hst.of_same (by simp) (by simp)
  · exact h.setStation_same st rfl rfl

/-- START_RUN leaves the run ARMED with what ARMED means (R144). -/
theorem State.atRest.beginRun (h : s.atRest) (c : Current) (first : Word) : (s.beginRun c first).underWay where
  notIdle := by simp [State.beginRun_jobs]
  quiet _ := by simp [State.beginRun, forChannels, forStations, MarkUnit.start, MarkUnit.clear]
  cause := by simp [State.beginRun_jobs]
  throws := by
    have hoff (u : State) (hu : u.stations = s.stations) : u.throwsOk := by
      intro st he
      rw [State.station, hu] at he
      obtain ⟨-, -, hthrow, -⟩ := h.station st
      rw [State.station] at hthrow
      simp [hthrow, Throw.engaged] at he
    unfold State.beginRun
    refine forChannels_induct (P := State.throwsOk) (fun c u hu => hu.of_same (by simp) (by simp))
      (forStations_induct (P := State.throwsOk) (fun st u hu => hu.startStation st) (hoff _ ?_))
    rfl

theorem State.runHolds.writeReport (h : s.runHolds) (fs : List Failure) : (s.writeReport fs).runHolds :=
  h.of_blocks (by simp) (by simp) (by simp) (by simp) (by simp) (by simp) (by simp) (by simp) (by simp)

theorem State.runHolds.startRun (h : s.runHolds) : s.startRun.1.runHolds := by
  unfold State.startRun
  dsimp only
  split
  · exact h
  · rename_i hidle
    have hrest : s.atRest := ⟨by simpa using hidle, h.1⟩
    split
    · exact h
    · split
      · split
        · exact (hrest.beginRun _ _).runHolds.writeReport _
        · exact h.writeReport _
      · exact h

/-! ## The other commands -/

theorem State.underWay.enterDraining (h : s.underWay) (hr : s.jobs.run = .running) : s.enterDraining.underWay := by
  have hnone : s.jobs.holdCause = .none := by
    by_contra hc
    have := h.cause.1 hc
    rw [hr] at this
    cases this
  have hrun : s.enterDraining.jobs.run = .draining := by simp [State.enterDraining, forStations]
  refine ⟨by simp [hrun], by simp [hrun], ?_, ?_⟩
  · rw [hrun]
    simp [State.enterDraining, forStations, hnone]
  · exact forStations_induct (P := State.throwsOk) (fun st u hu => hu.drainStation st) fun st he =>
      ⟨(h.throws st he).1, .inr rfl⟩

theorem State.runHolds.endRun (h : s.runHolds) : s.endRun.1.runHolds := by
  unfold State.endRun
  split
  · exact h
  · exact h
  · exact s.enterIdle_runOk
  · exact s.enterIdle_runOk
  · rename_i hr
    split
    · exact s.enterIdle_runOk
    · exact ((State.underWay_of_runOk h.1 h.2 (by simp [hr])).enterDraining hr).runHolds

theorem State.runHolds.holdRun (h : s.runHolds) : s.holdRun.1.runHolds := by
  unfold State.holdRun
  split
  · exact (h.2.underWay_hold (by simp)).runHolds
  · exact h

theorem State.runHolds.resumeRun (h : s.runHolds) : s.resumeRun.1.runHolds := by
  unfold State.resumeRun
  split
  · rename_i hr
    refine State.underWay.runHolds ⟨by simp, fun _ => h.1.2.1 (.inr (.inr hr)), by simp, fun st he => ?_⟩
    obtain ⟨-, hm⟩ := h.2 st he
    simp [hr] at hm
  · exact h

/-- A station that REARM_STATION takes is FAULTED, so the run is under way and its throw is not on (R69, R99). -/
theorem State.runHolds.rearmStation (h : s.runHolds) (arg : BitVec 16) : (s.rearmStation arg).1.runHolds := by
  unfold State.rearmStation
  split
  · exact h
  · rename_i st _
    split
    · rename_i hf
      rcases h.cases with hi | hw
      · rw [(hi.station st).1] at hf
        cases hf
      · suffices hth : (s.setStation st ((s.station st).rearm (s.block st).heated)).throwsOk from
          (hw.of_same (t := s.setStation st _) rfl rfl (by simp) rfl hth).runHolds
        refine hw.throws.setStation st fun he => ?_
        have := (hw.throws st he).1
        rw [hf] at this
        cases this
    · exact h

theorem State.runHolds.refillFoil (h : s.runHolds) (arg : BitVec 16) : (s.refillFoil arg).1.runHolds := by
  unfold State.refillFoil
  split
  · exact h
  · rename_i c _
    dsimp only
    split
    · exact h
    · refine h.of_same (by simp) (by simp) (by simp) (by simp) (by simp) (fun k hk => ?_) (by simp) (by simp) (by simp)
      rw [State.channel_setChannel]
      split
      · rename_i he
        exact he ▸ hk
      · exact hk

theorem State.runHolds.startCycle (h : s.runHolds) (slot : Nat) (working : Memory) : (s.startCycle slot working).runHolds :=
  h.of_blocks (by simp) (by simp) (by simp) (by simp) (by simp) (by simp) (by simp) (by simp) (by simp)

theorem State.runHolds.plateSave (h : s.runHolds) (arg : BitVec 16) : (s.plateSave arg).1.runHolds := by
  unfold State.plateSave
  dsimp only
  split
  · exact h
  · split
    · exact h
    · split
      · exact h.of_blocks (by simp) (by simp) (by simp) (by simp) (by simp) (by simp) (by simp) (by simp) (by simp)
      · split
        · exact h
        · exact h.startCycle _ _

theorem State.runHolds.plateRead (h : s.runHolds) (arg : BitVec 16) : (s.plateRead arg).1.runHolds := by
  unfold State.plateRead
  dsimp only
  split_ifs
  · exact h
  · exact h.of_blocks rfl rfl rfl rfl rfl rfl rfl rfl rfl
  · exact h.of_blocks rfl rfl rfl rfl rfl rfl rfl rfl rfl

theorem State.runHolds.ackStop (h : s.runHolds) : s.ackStop.1.runHolds := by
  unfold State.ackStop
  dsimp only
  split
  · exact h.of_blocks rfl rfl rfl rfl rfl rfl rfl rfl rfl
  · exact h.of_blocks rfl rfl rfl rfl rfl rfl rfl rfl rfl

theorem State.runHolds.begin (h : s.runHolds) (code : BitVec 8) (arg : BitVec 16) : (s.begin code arg).1.runHolds := by
  unfold State.begin
  split
  · exact h
  · exact h.startRun
  · exact h.endRun
  · exact h.holdRun
  · exact h.resumeRun
  · exact h.rearmStation arg
  · exact h.refillFoil arg
  · exact h.plateSave arg
  · exact h.plateRead arg
  · exact h.ackStop
  · exact h

theorem State.runHolds.validateJob (h : s.runHolds) (j : Job) : (s.validateJob j).1.runHolds := by
  unfold State.validateJob
  dsimp only
  split
  · exact State.runHolds.writeReport
      (h.of_blocks (t := s.withJobs { s.jobs with next := some j }) rfl rfl rfl rfl rfl rfl rfl rfl rfl) _
  · exact h.writeReport _

end

theorem commandsKeep_runHolds : CommandsKeep State.runHolds where
  engine _ _ h := h
  attn _ _ h := h
  mem _ _ h := h
  pending _ _ h := h
  begins _ code arg h := h.begin code arg

/-- A reset leaves a state that means what IDLE means. -/
theorem runHolds_of_reset {c : Instr} {s t : State} (hc : (∃ decayed, c = .powerOnReset decayed) ∨ c = .linkReset)
    (he : exec c s = .next t) : t.runHolds := by
  obtain ⟨store, count, hr⟩ := exec_reset s hc
  obtain rfl := Host.Outcome.next.inj (hr.symm.trans he)
  have hok : State.reset.runOk := State.reset_runOk
  exact State.atRest.runHolds ⟨rfl, hok⟩

/-- Settles O52, by the induction over the table: the events in IDLE keep rest, those of a run under way keep what
its state means, and each command goes from one to the other with what the new state means. -/
theorem runStatesStayQuiet : Obligations.RunStatesStayQuiet := by
  intro s t hrun hthrows he
  refine commandsKeep_runHolds.step (fun c s t => runHolds_of_reset) (fun s j h => h.validateJob j)
    (fun s slot working misread h => h.of_blocks rfl rfl rfl rfl rfl rfl rfl rfl rfl) (fun c s t hc h he => ?_)
    (s := s) ⟨hrun, hthrows⟩ he
  rcases h.cases with h | h
  · exact h.event hc he
  · exact h.event hc he

end Sys2Proof.Machine
end

section
/-! Bytes laid one after another in exchange memory, and the fields they show; the job check report by them. -/

namespace Sys2Proof.Machine

/-- The bytes stand in memory from `a` on. -/
def Memory.holds (m : Memory) (a : Nat) (bs : List Byte) : Prop := ∀ x, x < bs.length → m.read (a + x) = bs.getD x 0

theorem Memory.holds_write (m : Memory) (a : Nat) (bs : List Byte) : (m.write a bs).holds a bs := by
  intro x hx
  rw [Memory.read_write, if_pos (by omega), Nat.add_sub_cancel_left]

section
variable {m : Memory} {a : Nat}

theorem Memory.holds.append {bs cs : List Byte} (h : m.holds a (bs ++ cs)) :
    m.holds a bs ∧ m.holds (a + bs.length) cs := by
  refine ⟨fun x hx => ?_, fun x hx => ?_⟩
  · rw [h x (by rw [List.length_append]; omega), List.getD_append _ _ _ _ hx]
  · rw [Nat.add_assoc, h (bs.length + x) (by rw [List.length_append]; omega),
      List.getD_append_right _ _ _ _ (by omega), Nat.add_sub_cancel_left]

/-- A byte list that stands in memory reads back as the integer it makes. -/
theorem Memory.holds.nat {bs : List Byte} (h : m.holds a bs) {n : Nat} (hn : bs.length = n) : m.nat n a = ofLeBytes bs := by
  unfold Memory.nat
  congr 1
  refine List.ext_getElem (by simp [hn]) fun i hi hi' => ?_
  have hb := h i hi'
  rw [List.getD_eq_getElem _ _ hi'] at hb
  simpa [Memory.bytes] using hb

theorem Memory.holds.nat_leBytes {n v : Nat} (h : m.holds a (leBytes n v)) : m.nat n a = v % 256 ^ n := by
  rw [h.nat (leBytes_length n v), ofLeBytes_leBytes]

theorem leBytes_zero (n : Nat) : leBytes n 0 = List.replicate n 0 := by
  induction n with
  | zero => rfl
  | succ n ih => rw [leBytes, Nat.zero_div, ih]; rfl

theorem Memory.holds.zeros {n : Nat} (h : m.holds a (leBytes n 0)) : ∀ x, x < n → m.read (a + x) = 0 := by
  intro x hx
  rw [h x (by simpa using hx), leBytes_zero, List.getD_replicate _ hx]

/-- Byte lists of one length laid one after another: each stands at its place. -/
theorem Memory.holds.flatten {k : Nat} {l : List (List Byte)} (hl : ∀ bs ∈ l, bs.length = k)
    (h : m.holds a l.flatten) : ∀ i bs, l[i]? = some bs → m.holds (a + k * i) bs := by
  induction l generalizing a with
  | nil => simp
  | cons b l ih =>
    rw [List.flatten_cons] at h
    obtain ⟨hb, hrest⟩ := h.append
    rw [hl b List.mem_cons_self] at hrest
    intro i bs hi
    cases i with
    | zero =>
      obtain rfl : b = bs := by simpa using hi
      exact hb
    | succ i =>
      have := ih (fun x hx => hl x (List.mem_cons_of_mem b hx)) hrest i bs (by simpa using hi)
      rwa [show a + k * (i + 1) = a + k + k * i by ring]

theorem Memory.holds.padTo {n : Nat} {bs : List Byte} (h : m.holds a (padTo n bs)) :
    m.holds a bs ∧ ∀ x, bs.length ≤ x → x < n → m.read (a + x) = 0 := by
  obtain ⟨hb, hz⟩ := h.append
  refine ⟨hb, fun x hx hxn => ?_⟩
  have := hz (x - bs.length) (by rw [List.length_replicate]; omega)
  rw [List.getD_replicate _ (by omega)] at this
  rwa [show a + bs.length + (x - bs.length) = a + x by omega] at this

/-! ## The job check report -/

theorem Failure.encode_length (f : Failure) : f.encode.length = 8 := by simp [Failure.encode]

theorem encodes_length (fs : List Failure) : ∀ bs ∈ (fs.take 8).map Failure.encode, bs.length = 8 := by
  intro bs hbs
  obtain ⟨f, -, rfl⟩ := List.mem_map.1 hbs
  exact f.encode_length

theorem Scope.code_of_mem {p : Scope × Nat} (h : p ∈ scopeCodes) : p.2 = p.1.code % 256 ^ 1 := by
  revert p
  decide

theorem JobError.code_of_mem {p : JobError × Nat} (h : p ∈ errorCodes) : p.2 = p.1.code % 256 ^ 1 := by
  revert p
  decide

/-- The eight bytes of a report entry show its failure (R202). -/
theorem Failure.entryShown_of_holds {f : Failure} (h : m.holds a f.encode) : entryShown m a f := by
  obtain ⟨h, h6⟩ := h.append
  obtain ⟨h, h5⟩ := h.append
  obtain ⟨h, h4⟩ := h.append
  obtain ⟨h, h2⟩ := h.append
  obtain ⟨h0, h1⟩ := h.append
  simp only [List.length_append, leBytes_length] at h1 h2 h4 h5 h6
  exact ⟨fun p hp hf => by rw [h0.nat_leBytes, Scope.code_of_mem hp, hf], h1.nat_leBytes, h2.nat_leBytes,
    fun p hp hf => by rw [h4.nat_leBytes, JobError.code_of_mem hp, hf], h5.nat_leBytes, by simpa using h6.nat_leBytes⟩

theorem reportBytes_length (fs : List Failure) : (reportBytes fs).length = 72 := by
  refine padTo_length _ _ ?_
  have hf := length_flatten_of_length 8 _ (encodes_length fs)
  simp only [List.length_append, leBytes_length, hf, List.length_map, List.length_take]
  omega

/-- The bytes of the report show its failures (R142, R202). -/
theorem reportShown_of_holds {fs : List Failure} (h : m.holds 0x200 (reportBytes fs)) : reportShown m fs := by
  have hflat := length_flatten_of_length 8 _ (encodes_length fs)
  obtain ⟨h, hpad⟩ := h.padTo
  obtain ⟨h, hentries⟩ := h.append
  obtain ⟨hcount, hzero⟩ := h.append
  simp only [List.length_append, leBytes_length, hflat, List.length_map, List.length_take] at hentries hzero hpad
  refine ⟨?_, fun x hlo hhi => ?_, fun i hi => ⟨fun f hf => ?_, fun hf x hx => ?_⟩⟩
  · rw [hcount.nat_leBytes]
    omega
  · have := hzero.zeros (x - 0x201) (by omega)
    rwa [show 0x200 + 1 + (x - 0x201) = x by omega] at this
  · refine Failure.entryShown_of_holds (hentries.flatten (encodes_length fs) i f.encode ?_)
    rw [List.getElem?_map, List.getElem?_take_of_lt hi, hf]
    rfl
  · have hge := List.getElem?_eq_none_iff.1 hf
    have := hpad (8 + 8 * i + x) (by omega) (by omega)
    rwa [show 0x200 + (8 + 8 * i + x) = 0x208 + 8 * i + x by omega] at this

theorem State.reportShown_writeReport (s : State) (fs : List Failure) : reportShown (s.writeReport fs).mem fs :=
  reportShown_of_holds (s.mem.holds_write _ _)

/-- The report is written in its own place alone (R177). -/
theorem State.writeReport_within (s : State) (fs : List Failure) :
    changedWithin s.mem (s.writeReport fs).mem 0x200 0x248 := by
  intro x hx
  refine Memory.read_write_of_outside _ _ _ _ ?_
  rw [reportBytes_length, reportOffset]
  omega

end

end Sys2Proof.Machine
end

section
/-! START_RUN: what beginning a run does to every block, and the command by its checks. -/

namespace Sys2Proof.Machine

/-! ## The stations and the channels at START_RUN -/

/-- A station as START_RUN leaves it under the job and the plates in `s` (R55, R72, R76, R144). -/
def State.startedStation (s : State) (st : Fin 4) (x : Station) : Station :=
  if (s.block st).active then
    x.start (s.block st).heated (ratioResidual (s.block st).steps (s.plate st).revolution)
  else { x with trimTotal := 0 }

/-- A cylinder generator as START_RUN leaves it under the job and the plates in `s` (R15, R55). -/
def State.startedCylinder (s : State) (st : Fin 4) (g : StepGen) : StepGen :=
  if (s.block st).active then { g with ratio := cylinderRatio (s.block st).steps (s.plate st).revolution } else g

/-- A channel as START_RUN leaves it under the job in `s` (R103, R105). -/
def State.startedChannel (s : State) (c : Fin 8) (x : Channel) : Channel :=
  if (s.chanBlock c).assigned then x.start (s.job.channelParams (s.chanBlock c)) else x

/-- A foil generator as START_RUN leaves it under the job in `s` (R16). -/
def State.startedFoil (s : State) (c : Fin 8) (g : StepGen) : StepGen :=
  if (s.chanBlock c).assigned then { g with ratio := (s.job.channelParams (s.chanBlock c)).fs } else g

theorem apply_self_of_eq {α β : Type} [DecidableEq α] (f : α → β) (i k : α) : (if i = k then f k else f i) = f i := by
  split
  · rename_i h
    rw [h]
  · rfl

section
variable {s t : State}

theorem State.job_congr (h : t.cur = s.cur) : t.job = s.job := congrArg Current.job h

theorem State.block_congr (h : t.cur = s.cur) (st : Fin 4) : t.block st = s.block st := by
  rw [State.block, State.job_congr h, State.block]

theorem State.plate_congr (h : t.cur = s.cur) (st : Fin 4) : t.plate st = s.plate st := by
  rw [State.plate, h, State.plate]

theorem State.chanBlock_congr (h : t.cur = s.cur) (c : Fin 8) : t.chanBlock c = s.chanBlock c := by
  rw [State.chanBlock, State.job_congr h, State.chanBlock]

end

section
variable (s : State)

theorem State.startStations_station (st : Fin 4) :
    (forStations State.startStation s).station st = s.startedStation st (s.station st) := by
  refine forStations_station State.startStation s.startedStation (fun t => t.cur = s.cur)
    (fun k t h => by simpa using h) (fun k st t h => ?_) s rfl st
  unfold State.startStation State.startedStation
  rw [State.block_congr h, State.plate_congr h]
  dsimp only
  split
  · exact State.station_setStation t k st _
  · exact State.station_setStation t k st _

theorem State.startStations_cylGens (st : Fin 4) :
    (forStations State.startStation s).cylGens.get st = s.startedCylinder st (s.cylGens.get st) := by
  refine forStations_cylGens State.startStation s.startedCylinder (fun t => t.cur = s.cur)
    (fun k t h => by simpa using h) (fun k st t h => ?_) s rfl st
  unfold State.startStation State.startedCylinder
  rw [State.block_congr h, State.plate_congr h]
  dsimp only
  split
  · exact Four.get_set t.cylGens k st _
  · rw [apply_self_of_eq fun k => t.cylGens.get k]
    rfl

theorem State.startChannels_channel (c : Fin 8) :
    (forChannels State.startChannel s).channel c = s.startedChannel c (s.channel c) := by
  refine forChannels_channel State.startChannel s.startedChannel (fun t => t.cur = s.cur)
    (fun k t h => by simpa using h) (fun k c t h => ?_) s rfl c
  unfold State.startChannel State.startedChannel
  rw [State.chanBlock_congr h, State.job_congr h]
  dsimp only
  split
  · exact State.channel_setChannel t k c _
  · rw [apply_self_of_eq fun k => t.channel k]

theorem State.startChannels_foilGens (c : Fin 8) :
    (forChannels State.startChannel s).foilGens.get c = s.startedFoil c (s.foilGens.get c) := by
  refine forChannels_foilGens State.startChannel s.startedFoil (fun t => t.cur = s.cur)
    (fun k t h => by simpa using h) (fun k c t h => ?_) s rfl c
  unfold State.startChannel State.startedFoil
  rw [State.chanBlock_congr h, State.job_congr h]
  dsimp only
  split
  · exact Eight.get_set t.foilGens k c _
  · rw [apply_self_of_eq fun k => t.foilGens.get k]

end

/-! ## A run begun -/

/-- The state in which START_RUN starts the stations: the job in CURRENT and the figures of the run set (R144). -/
def State.runSet (c : Current) (first : Word) (s : State) : State :=
  let s := s.withJobs { s.jobs with next := none, current := some c, run := .armed, holdCause := .none, firstRow := first }
  let s := s.withWpu { s.wpu with scaleQ := c.job.scaleQ, headroom := c.job.headroom, highWater := s.web, overspeed := false }
  let s := s.withMark (s.mark.start first)
  let s := (s.withTrack []).withLastRetired none
  s.withRecords { writtenThrough := first - 1, oldestIntact := first }

theorem State.beginRun_eq (c : Current) (first : Word) (s : State) :
    s.beginRun c first = forChannels State.startChannel (forStations State.startStation (s.runSet c first)) := rfl

section
variable (c : Current) (first : Word) (s : State)

theorem State.beginRun_station (st : Fin 4) :
    (s.beginRun c first).station st = (s.runSet c first).startedStation st (s.station st) := by
  rw [State.beginRun_eq, State.station, forChannels_keeps (fun s => s.stations) State.startChannel (by simp)]
  exact State.startStations_station _ st

theorem State.beginRun_cylGens (st : Fin 4) :
    (s.beginRun c first).cylGens.get st = (s.runSet c first).startedCylinder st (s.cylGens.get st) := by
  rw [State.beginRun_eq, forChannels_keeps (fun s => s.cylGens) State.startChannel (by simp)]
  exact State.startStations_cylGens _ st

theorem State.beginRun_channel (k : Fin 8) :
    (s.beginRun c first).channel k = (s.runSet c first).startedChannel k (s.channel k) := by
  rw [State.beginRun_eq, State.startChannels_channel, State.channel,
    forStations_keeps (fun s => s.channels) State.startStation (by simp)]
  unfold State.startedChannel State.chanBlock State.job
  rw [forStations_keeps (fun s => s.cur) State.startStation (by simp)]
  rfl

theorem State.beginRun_foilGens (k : Fin 8) :
    (s.beginRun c first).foilGens.get k = (s.runSet c first).startedFoil k (s.foilGens.get k) := by
  rw [State.beginRun_eq, State.startChannels_foilGens,
    forStations_keeps (fun s => s.foilGens) State.startStation (by simp)]
  unfold State.startedFoil State.chanBlock State.job
  rw [forStations_keeps (fun s => s.cur) State.startStation (by simp)]
  rfl

theorem State.beginRun_rest :
    (s.beginRun c first).mark = s.mark.start first ∧ (s.beginRun c first).track = [] ∧
      (s.beginRun c first).records = { writtenThrough := first - 1, oldestIntact := first } ∧
      (s.beginRun c first).mem = s.mem := by
  simp [State.beginRun, forChannels, forStations]

end

/-! ## START_RUN -/

section
variable {s : State} {j : Job}

theorem State.startRun_of_failure (hidle : s.jobs.run = .idle) (hj : s.jobs.candidate = some j)
    (hfirst : firstRowOk (s.mem.word 0x104) = true) (hfs : runChecks (s.candidate j) plateChecks ≠ []) :
    s.startRun = (s.writeReport (runChecks (s.candidate j) plateChecks), .jobInvalid) := by
  unfold State.startRun
  simp only [hidle, hj, ne_eq, not_true_eq_false, if_false, firstRowOffset, hfirst, if_true, hfs]

theorem State.startRun_of_pass (hidle : s.jobs.run = .idle) (hj : s.jobs.candidate = some j)
    (hfirst : firstRowOk (s.mem.word 0x104) = true) (hfs : runChecks (s.candidate j) plateChecks = []) :
    s.startRun = ((s.beginRun { job := j, plates := (s.candidate j).plates } (s.mem.word 0x104)).writeReport [], .ok) := by
  unfold State.startRun
  simp only [hidle, hj, ne_eq, not_true_eq_false, if_false, firstRowOffset, hfirst, if_true, hfs]
  rfl

theorem JobControl.candidate_eq {x : JobControl}
    (h : x.next = some j ∨ x.next = none ∧ x.current.map Current.job = some j) : x.candidate = some j := by
  unfold JobControl.candidate
  rcases h with h | ⟨hn, hc⟩
  · rw [h]
  · rw [hn, hc]

end

/-- What START_RUN leaves where its checks pass, block by block. -/
theorem State.beginRun_blocks (s : State) (j : Job) (plates : Four (Option Plate)) (first : Word) :
    let t := s.beginRun { job := j, plates := plates } first
    (∀ st, (j.stations.get st).active = true → ∀ p, plates.get st = some p →
      t.cylGens.get st =
        { s.cylGens.get st with ratio := cylinderRatio (j.stations.get st).steps p.revolution } ∧
      t.station st = (s.station st).start (j.stations.get st).heated
        (ratioResidual (j.stations.get st).steps p.revolution)) ∧
    (∀ st, (j.stations.get st).active = false → t.cylGens.get st = s.cylGens.get st ∧
      t.station st = { s.station st with trimTotal := 0 }) ∧
    (∀ c, (j.channels.get c).assigned = true →
      t.foilGens.get c = { s.foilGens.get c with ratio := (j.channelParams (j.channels.get c)).fs } ∧
      t.channel c = (s.channel c).start (j.channelParams (j.channels.get c))) ∧
    ∀ c, (j.channels.get c).assigned = false → t.foilGens.get c = s.foilGens.get c ∧ t.channel c = s.channel c := by
  have hblock (st) : (s.runSet { job := j, plates := plates } first).block st = j.stations.get st := rfl
  have hplate (st) : (s.runSet { job := j, plates := plates } first).plate st = (plates.get st).getD .zero := rfl
  have hchan (c) : (s.runSet { job := j, plates := plates } first).chanBlock c = j.channels.get c := rfl
  have hjob : (s.runSet { job := j, plates := plates } first).job = j := rfl
  refine ⟨fun st ha p hp => ⟨?_, ?_⟩, fun st ha => ⟨?_, ?_⟩, fun c ha => ⟨?_, ?_⟩, fun c ha => ⟨?_, ?_⟩⟩
  · rw [State.beginRun_cylGens, State.startedCylinder, hblock, if_pos ha, hplate, hp]
    rfl
  · rw [State.beginRun_station, State.startedStation, hblock, if_pos ha, hplate, hp]
    rfl
  · rw [State.beginRun_cylGens, State.startedCylinder, hblock, if_neg (by simp [ha])]
  · rw [State.beginRun_station, State.startedStation, hblock, if_neg (by simp [ha])]
  · rw [State.beginRun_foilGens, State.startedFoil, hchan, if_pos ha, hjob]
  · rw [State.beginRun_channel, State.startedChannel, hchan, if_pos ha, hjob]
  · rw [State.beginRun_foilGens, State.startedFoil, hchan, if_neg (by simp [ha])]
  · rw [State.beginRun_channel, State.startedChannel, hchan, if_neg (by simp [ha])]

theorem Station.start_eq (x : Station) (heated : Bool) (rho : Int) :
    x.start heated rho =
      { x with
        state := if heated = true ∧ x.heaterLevel = false then .heatWait else .catching
        fault := false, indexSeen := false, drift := 0, trimTotal := 0, lastError := none
        rho := rho, throw := .off, timer := 0, dwell := 0, risk := [] } := by
  unfold Station.start
  simp only [Bool.and_eq_true, Bool.not_eq_true']

theorem State.complete_writeReport (t : State) (fs : List Failure) (r : CmdResult) :
    (t.writeReport fs).complete r =
      { t with mem := (t.writeReport fs).mem, engine := t.engine.complete r, attn := t.attn.raise .cmdDone } := rfl

/-- Settles O13: the report by its bytes, a failure by the report alone, and a pass by what the run begun does. -/
theorem startRunByItsChecks : Obligations.StartRunByItsChecks := by
  intro arg s j first hfree hidle hj hfirst hne hle
  have hok : firstRowOk ((State.accepted s 2 arg).mem.word 0x104) = true := by
    change firstRowOk (s.mem.word 0x104) = true
    rw [← hfirst, firstRowOk, Bool.and_eq_true]
    exact ⟨bne_iff_ne.2 hne, decide_eq_true hle⟩
  have hexec := exec_startRun s arg hfree
  refine ⟨(s.writeReport (runChecks (s.candidate j) plateChecks)).mem, State.writeReport_within s _,
    State.reportShown_writeReport s _, fun hfs => ?_, fun hfs => ?_⟩
  · rw [hexec, State.startRun_of_failure (s := State.accepted s 2 arg) hidle (JobControl.candidate_eq hj) hok hfs]
    rfl
  · rw [State.startRun_of_pass (s := State.accepted s 2 arg) hidle (JobControl.candidate_eq hj) hok hfs] at hexec
    have hword : (State.accepted s 2 arg).mem.word 0x104 = first := hfirst.symm
    have hcandidate : (State.accepted s 2 arg).candidate j = s.candidate j := rfl
    rw [hword, hcandidate, State.complete_writeReport] at hexec
    generalize hu : State.accepted s 2 arg = u at hexec
    obtain ⟨hmark, htrack, hrecords, -⟩ := u.beginRun_rest { job := j, plates := (s.candidate j).plates } first
    obtain ⟨hactive, hinactive, hassigned, hunassigned⟩ := u.beginRun_blocks j (s.candidate j).plates first
    have hjobs := u.beginRun_jobs { job := j, plates := (s.candidate j).plates } first
    have hwpu := u.beginRun_wpu { job := j, plates := (s.candidate j).plates } first
    obtain ⟨-, -, hstore, hmem, hengine, hattn, hgeneration, hfree', hpending⟩ :=
      State.beginRun_frame { job := j, plates := (s.candidate j).plates } first u
    generalize u.beginRun { job := j, plates := (s.candidate j).plates } first = t at *
    subst hu
    refine ⟨_, hexec, ?_, ?_, ?_, hjobs, hwpu, hmark, htrack, hrecords, fun st ha p hp => ?_, hinactive, hassigned,
      hunassigned, hstore, hgeneration, hfree', hpending⟩
    · rw [hfs]
      exact congrArg (fun m : Memory => m.write 0x200 (reportBytes [])) hmem
    · change t.engine.complete .ok = _
      rw [hengine]
      rfl
    · change t.attn.raise .cmdDone = _
      rw [hattn]
      rfl
    · obtain ⟨hcyl, hst⟩ := hactive st ha p hp
      exact ⟨hcyl, hst.trans (Station.start_eq _ _ _)⟩

end Sys2Proof.Machine
end

section
/-! The live page: its bytes as fields, for a state whose live bytes stand in memory, and the update that writes
them. -/

namespace Sys2Proof.Machine

/-! ## Fields -/

section
variable {m : Memory} {a : Nat}

theorem Memory.holds.word {w : Word} (h : m.holds a (leBytes 4 w.toNat)) : m.word a = w := by
  rw [Memory.word, h.nat_leBytes]
  have hw := w.isLt
  exact BitVec.eq_of_toNat_eq (by rw [BitVec.toNat_ofNat]; omega)

theorem Memory.holds.byte {v : Nat} (h : m.holds a (leBytes 1 v)) (hv : v < 256) : m.nat 1 a = v := by
  rw [h.nat_leBytes, Nat.mod_eq_of_lt (by simpa using hv)]

/-- A signed integer that its field can hold reads back as it is. -/
theorem ofTwos_twos {bits : Nat} (hb : 0 < bits) {x : Int} (hlo : -(2 ^ (bits - 1)) ≤ x) (hhi : x < 2 ^ (bits - 1)) :
    ofTwos bits (twos bits x) = x := by
  obtain ⟨k, rfl⟩ : ∃ k, bits = k + 1 := ⟨bits - 1, by omega⟩
  simp only [Nat.add_sub_cancel] at hlo hhi
  have hpow : (2 : Int) ^ (k + 1) = 2 * 2 ^ k := by ring
  have hnat : ((2 ^ k : Nat) : Int) = 2 ^ k := by push_cast; rfl
  unfold ofTwos twos
  simp only [Nat.add_sub_cancel]
  have hmod : x % 2 ^ (k + 1) = if 0 ≤ x then x else x + 2 ^ (k + 1) := by
    split
    · exact Int.emod_eq_of_lt ‹_› (by omega)
    · rw [← Int.add_emod_right, Int.emod_eq_of_lt (by omega) (by omega)]
  rw [hmod, hpow]
  split <;> split <;> omega

theorem twos_lt (bits : Nat) (x : Int) : twos bits x < 2 ^ bits := by
  have hpos : (0 : Int) < 2 ^ bits := by positivity
  have := Int.emod_lt_of_pos x hpos
  have := Int.emod_nonneg x hpos.ne'
  unfold twos
  zify
  omega

theorem Memory.holds.int {n : Nat} {x : Int} (h : m.holds a (leBytes n (twos (8 * n) x))) (hn : 0 < n)
    (hlo : -(2 ^ (8 * n - 1)) ≤ x) (hhi : x < 2 ^ (8 * n - 1)) : m.int n a = x := by
  have hlt := twos_lt (8 * n) x
  have hpow : 256 ^ n = 2 ^ (8 * n) := by rw [pow_mul]; rfl
  rw [Memory.int, h.nat_leBytes, hpow, Nat.mod_eq_of_lt hlt, ofTwos_twos (by omega) hlo hhi]

theorem flagBit_lt (b : Bool) : flagBit b < 256 := by cases b <;> decide

theorem Memory.holds.flag {b : Bool} (h : m.holds a (leBytes 1 (flagBit b))) :
    m.nat 1 a = if b = true then 1 else 0 := h.byte (flagBit_lt b)

theorem StepGen.owed_bounds (g : StepGen) : -(2 ^ 31) ≤ g.owed ∧ g.owed < 2 ^ 31 := by
  have hlo := BitVec.le_toInt (g.commanded - g.emitted)
  have hhi := BitVec.toInt_lt (x := g.commanded - g.emitted)
  exact ⟨hlo, hhi⟩

theorem Memory.holds.owed {g : StepGen} (h : m.holds a (leBytes 4 (twos 32 g.owed))) : m.int 4 a = g.owed :=
  h.int (by decide) g.owed_bounds.1 g.owed_bounds.2

theorem Four.toList_getElem? {α : Type} (f : Four α) (i : Fin 4) : f.toList[i.val]? = some (f.get i) := by
  fin_cases i <;> rfl

theorem Eight.toList_getElem? {α : Type} (f : Eight α) (i : Fin 8) : f.toList[i.val]? = some (f.get i) := by
  fin_cases i <;> rfl

/-! ## The blocks of the page -/

theorem Station.liveBytes_length (x : Station) (owed : Int) : (x.liveBytes owed).length = 16 := by
  simp [Station.liveBytes]

theorem Channel.liveBytes_length (x : Channel) (owed : Int) : (x.liveBytes owed).length = 16 := by
  simp [Channel.liveBytes]

/-- A station block shows its station (R201). -/
theorem Station.shown_of_holds {x : Station} {g : StepGen} (h : m.holds a (x.liveBytes g.owed)) :
    m.nat 1 a = x.state.code ∧ m.nat 1 (a + 1) = (if x.fault = true then 1 else 0) ∧
      m.nat 1 (a + 2) = x.throw.code ∧ m.nat 1 (a + 3) = (if x.lastError = none then 0 else 1) ∧
      m.word (a + 4) = x.trimTotal ∧
      (∀ e, x.lastError = some e → -(2 ^ 31) ≤ e → e < 2 ^ 31 → m.int 4 (a + 8) = e) ∧
      (x.lastError = none → m.word (a + 8) = 0) ∧ m.int 4 (a + 12) = g.owed := by
  obtain ⟨h, howed⟩ := h.append
  obtain ⟨h, herror⟩ := h.append
  obtain ⟨h, htrim⟩ := h.append
  obtain ⟨h, hvalid⟩ := h.append
  obtain ⟨h, hthrow⟩ := h.append
  obtain ⟨hstate, hfault⟩ := h.append
  simp only [List.length_append, leBytes_length, Nat.reduceAdd] at howed herror htrim hvalid hthrow hfault
  refine ⟨hstate.byte ?_, hfault.flag, hthrow.byte ?_, ?_, htrim.word, fun e he hlo hhi => ?_, fun he => ?_, howed.owed⟩
  · cases x.state <;> decide
  · cases x.throw <;> decide
  · rw [hvalid.flag]
    cases x.lastError <;> rfl
  · rw [he] at herror
    exact herror.int (by decide) hlo hhi
  · rw [he] at herror
    exact herror.word (w := 0)

/-- A channel block shows its channel (R201). -/
theorem Channel.shown_of_holds {x : Channel} {g : StepGen} (h : m.holds a (x.liveBytes g.owed)) :
    m.nat 1 a = x.state.code ∧ m.nat 3 (a + 1) = 0 ∧ m.nat 4 (a + 4) = x.remaining % 2 ^ 32 ∧
      m.nat 4 (a + 8) = x.runUsed % 2 ^ 32 ∧ m.int 4 (a + 12) = g.owed := by
  obtain ⟨h, howed⟩ := h.append
  obtain ⟨h, hused⟩ := h.append
  obtain ⟨h, hremaining⟩ := h.append
  obtain ⟨hstate, hzero⟩ := h.append
  simp only [List.length_append, leBytes_length, Nat.reduceAdd] at howed hused hremaining hzero
  refine ⟨hstate.byte ?_, by simpa using hzero.nat_leBytes, hremaining.nat_leBytes, hused.nat_leBytes, howed.owed⟩
  cases x.state <;> decide

end

/-! ## The page -/

/-- The live page shows the state: its bytes after the generation stand in memory (R201). -/
def State.liveShown (t : State) : Prop := t.mem.holds 0x04 t.liveBytes

section
variable {t : State}

theorem State.stationBlocks_length (t : State) :
    ∀ bs ∈ (t.stations.mapIdx fun st x => x.liveBytes (t.cylGens.get st).owed).toList, bs.length = 16 := by
  intro bs hbs
  obtain ⟨i, rfl⟩ := (Four.mem_toList _ _).1 hbs
  rw [Four.get_mapIdx, Station.liveBytes_length]

theorem State.channelBlocks_length (t : State) :
    ∀ bs ∈ (t.channels.mapIdx fun c x => x.liveBytes (t.foilGens.get c).owed).toList, bs.length = 16 := by
  intro bs hbs
  obtain ⟨i, rfl⟩ := (Eight.mem_toList _ _).1 hbs
  rw [Eight.get_mapIdx, Channel.liveBytes_length]

/-- Where the parts of the page stand (R201). -/
theorem State.liveShown.parts (h : t.liveShown) :
    t.mem.holds 0x04 (leBytes 1 t.jobs.run.code) ∧ t.mem.holds 0x05 (leBytes 1 t.jobs.holdCause.code) ∧
    t.mem.holds 0x06 (leBytes 1 (flagBit t.jobs.stopRequest)) ∧ t.mem.holds 0x07 (leBytes 1 (flagBit t.mark.search)) ∧
    t.mem.holds 0x08 (leBytes 4 t.web.toNat) ∧ t.mem.holds 0x0C (leBytes 4 t.wpu.highWater.toNat) ∧
    t.mem.holds 0x10 (leBytes 2 (twos 16 t.wpu.v8)) ∧ t.mem.holds 0x12 (leBytes 1 t.mark.missing) ∧
    t.mem.holds 0x13 (leBytes 1 t.jobs.presence) ∧ t.mem.holds 0x14 (leBytes 4 t.mark.lastOpened.toNat) ∧
    t.mem.holds 0x18 (leBytes 4 t.records.writtenThrough.toNat) ∧
    t.mem.holds 0x1C (leBytes 4 t.records.oldestIntact.toNat) ∧
    t.mem.holds 0x20 (leBytes 2 t.jobs.stopCauses.toNat) ∧ t.mem.holds 0x22 (leBytes 2 0) ∧
    t.mem.holds 0x24 (leBytes 4 t.jobs.nextTag) ∧ t.mem.holds 0x28 (leBytes 4 t.jobs.currentTag) ∧
    t.mem.holds 0x2C (leBytes 20 0) ∧
    (∀ st : Fin 4, t.mem.holds (0x40 + 16 * st) ((t.station st).liveBytes (t.gen (.cylinder st)).owed)) ∧
    ∀ c : Fin 8, t.mem.holds (0x80 + 16 * c) ((t.channel c).liveBytes (t.gen (.foil c)).owed) := by
  have hlen : ((t.stations.mapIdx fun st x => x.liveBytes (t.cylGens.get st).owed).toList.flatten).length = 64 :=
    length_flatten_of_length 16 _ t.stationBlocks_length
  unfold State.liveShown State.liveBytes at h
  obtain ⟨h, hchannels⟩ := h.append
  obtain ⟨h, hstations⟩ := h.append
  obtain ⟨h, h2C⟩ := h.append
  obtain ⟨h, h28⟩ := h.append
  obtain ⟨h, h24⟩ := h.append
  obtain ⟨h, h22⟩ := h.append
  obtain ⟨h, h20⟩ := h.append
  obtain ⟨h, h1C⟩ := h.append
  obtain ⟨h, h18⟩ := h.append
  obtain ⟨h, h14⟩ := h.append
  obtain ⟨h, h13⟩ := h.append
  obtain ⟨h, h12⟩ := h.append
  obtain ⟨h, h10⟩ := h.append
  obtain ⟨h, h0C⟩ := h.append
  obtain ⟨h, h08⟩ := h.append
  obtain ⟨h, h07⟩ := h.append
  obtain ⟨h, h06⟩ := h.append
  obtain ⟨h04, h05⟩ := h.append
  simp only [List.length_append, leBytes_length, hlen, Nat.reduceAdd] at *
  refine ⟨h04, h05, h06, h07, h08, h0C, h10, h12, h13, h14, h18, h1C, h20, h22, h24, h28, h2C, fun st => ?_, fun c => ?_⟩
  · refine hstations.flatten t.stationBlocks_length st _ ?_
    rw [Four.toList_getElem?, Four.get_mapIdx]
    rfl
  · refine hchannels.flatten t.channelBlocks_length c _ ?_
    rw [Eight.toList_getElem?, Eight.get_mapIdx]
    rfl

theorem State.liveUpdate_liveBytes (s : State) : s.liveUpdate.liveBytes = s.liveBytes := by
  unfold State.liveBytes
  simp

theorem State.read_liveUpdate (s : State) (x : Nat) :
    s.liveUpdate.mem.read x = if x < 4 then (leBytes 4 (s.generation + 1 + 1).toNat).getD x 0
      else (s.bumpGeneration.writeMem 4 s.liveBytes).mem.read x := by
  have hgen : (s.bumpGeneration.writeMem 4 s.liveBytes).generation = s.generation + 1 := by
    simp [State.bumpGeneration]
  unfold State.liveUpdate
  rw [State.bumpGeneration, State.read_writeWord, hgen]
  simp

/-- A live page update leaves the page as the state stands, under its last generation (R174). -/
theorem State.liveUpdate_shown (s : State) :
    s.liveUpdate.liveShown ∧ s.liveUpdate.mem.word 0 = s.generation + 2 := by
  refine ⟨fun x hx => ?_, Memory.word_of_read fun x hlo hhi => ?_⟩
  · rw [State.liveUpdate_liveBytes] at hx ⊢
    rw [State.read_liveUpdate, if_neg (by omega)]
    exact s.bumpGeneration.mem.holds_write 4 s.liveBytes x hx
  · rw [State.read_liveUpdate, if_pos (by omega), show s.generation + 1 + 1 = s.generation + 2 by bv_omega]
    rfl

theorem State.liveUpdate_generation (s : State) : s.liveUpdate.generation = s.generation + 2 := by
  have hgen : s.liveUpdate.generation = s.generation + 1 + 1 := by
    simp [State.liveUpdate, State.bumpGeneration]
  rw [hgen]
  bv_omega

/-- The speed formed at an expiry fits its field of the live page (R10). -/
theorem State.speedUpdate_v8 (s : State) : -32768 ≤ s.speedUpdate.wpu.v8 ∧ s.speedUpdate.wpu.v8 ≤ 32767 := by
  have hv : s.speedUpdate.wpu.v8 = clampInt (-32768) 32767 (dist s.wpu.ring.a0 s.wpu.position) := by
    unfold State.speedUpdate State.overspeedCheck
    split
    · rfl
    · split
      · split
        · rfl
        · simp only [State.raiseStop_frame]
          rfl
      · rfl
  rw [hv, clampInt]
  omega

/-- The state the timebase leaves before its live page update. -/
def State.expired (heaters : Four Bool) (s : State) : State :=
  forChannels State.channelExpiry (forStations (State.stationExpiry heaters) s.speedUpdate)

theorem exec_timebaseExpiry (heaters : Four Bool) (s : State) :
    exec (.timebaseExpiry heaters) s = .next (s.expired heaters).liveUpdate := rfl

theorem State.expired_v8 (heaters : Four Bool) (s : State) : (s.expired heaters).wpu.v8 = s.speedUpdate.wpu.v8 := by
  simp [State.expired, forChannels, forStations]

theorem stopCauseBits_snd {p : StopCause × Nat} (h : p ∈ stopCauseBits) : p.2 = p.1.bit := by
  revert p
  decide

theorem holdCauseCodes_snd {p : HoldCause × Nat} (h : p ∈ holdCauseCodes) : p.2 = p.1.code := by
  revert p
  decide

theorem stationStateCodes_snd {p : StationState × Nat} (h : p ∈ stationStateCodes) : p.2 = p.1.code := by
  revert p
  decide

theorem throwCodes_snd {p : Throw × Nat} (h : p ∈ throwCodes) : p.2 = p.1.code := by
  revert p
  decide

theorem channelStateCodes_snd {p : ChannelState × Nat} (h : p ∈ channelStateCodes) : p.2 = p.1.code := by
  revert p
  decide

/-- Settles O27: the live page update writes the state's bytes, and each field is read back from its place. -/
theorem livePageShowsTheState : Obligations.LivePageShowsTheState := by
  intro heaters s
  refine ⟨_, exec_timebaseExpiry heaters s, ?_⟩
  obtain ⟨hshown, hgen⟩ := (s.expired heaters).liveUpdate_shown
  rw [← State.liveUpdate_generation] at hgen
  have hv8 : -32768 ≤ (s.expired heaters).liveUpdate.wpu.v8 ∧ (s.expired heaters).liveUpdate.wpu.v8 ≤ 32767 := by
    rw [State.liveUpdate_frame _ |>.1, State.expired_v8]
    exact s.speedUpdate_v8
  generalize (s.expired heaters).liveUpdate = t at *
  obtain ⟨h04, h05, h06, h07, h08, h0C, h10, h12, h13, h14, h18, h1C, h20, h22, h24, h28, h2C, hstations, hchannels⟩ :=
    hshown.parts
  have hrun : t.mem.nat 1 0x04 = t.jobs.run.code := h04.byte (by cases t.jobs.run <;> decide)
  have hcauses : t.mem.nat 2 0x20 = t.jobs.stopCauses.toNat := by
    have := t.jobs.stopCauses.isLt
    rw [h20.nat_leBytes]
    omega
  refine ⟨hgen, ?_, ?_, ?_, ?_, ?_, fun p hp hc => ?_, h06.flag, h07.flag, h08.word, h0C.word,
    h10.int (by decide) (by omega) (by omega), by simpa using h12.nat_leBytes, ?_, h14.word, h18.word, h1C.word,
    hcauses, fun p hp => ?_, by simpa using h22.nat_leBytes, fun j hj => ?_, fun hj => ?_, fun c hc => ?_, fun hc => ?_,
    fun x hlo hhi => ?_, fun st => ?_, fun c => ?_⟩
  · rw [hrun]; cases t.jobs.run <;> simp [RunState.code]
  · rw [hrun]; cases t.jobs.run <;> simp [RunState.code]
  · rw [hrun]; cases t.jobs.run <;> simp [RunState.code]
  · rw [hrun]; cases t.jobs.run <;> simp [RunState.code]
  · rw [hrun]; cases t.jobs.run <;> simp [RunState.code]
  · rw [h05.byte (by cases t.jobs.holdCause <;> decide), hc, holdCauseCodes_snd hp]
  · rw [h13.byte (by rw [JobControl.presence]; cases t.jobs.next.isSome <;> cases t.jobs.current.isSome <;> decide),
      JobControl.presence]
    cases t.jobs.next <;> cases t.jobs.current <;> rfl
  · rw [hcauses, stopCauseBits_snd hp, JobControl.hasStop]
    rfl
  · rw [JobControl.nextTag, hj] at h24
    exact h24.word
  · rw [JobControl.nextTag, hj] at h24
    exact h24.word (w := 0)
  · rw [JobControl.currentTag, hc] at h28
    exact h28.word
  · rw [JobControl.currentTag, hc] at h28
    exact h28.word (w := 0)
  · have := h2C.zeros (x - 0x2C) (by omega)
    rwa [Nat.add_sub_cancel' hlo] at this
  · obtain ⟨hstate, hfault, hthrow, hvalid, htrim, herror, hnone, howed⟩ := Station.shown_of_holds (hstations st)
    have place (k : Nat) : 0x40 + k + 16 * (st : Nat) = 0x40 + 16 * st + k := by omega
    rw [place 1, place 2, place 3, place 4, place 8, place 12]
    exact ⟨fun p hp hs => by rw [hstate, hs, stationStateCodes_snd hp], hfault,
      fun p hp hs => by rw [hthrow, hs, throwCodes_snd hp], hvalid, htrim, herror, hnone, howed⟩
  · obtain ⟨hstate, hzero, hremaining, hused, howed⟩ := Channel.shown_of_holds (hchannels c)
    have place (k : Nat) : 0x80 + k + 16 * (c : Nat) = 0x80 + 16 * c + k := by omega
    rw [place 1, place 4, place 8, place 12]
    exact ⟨fun p hp hs => by rw [hstate, hs, channelStateCodes_snd hp], hzero, hremaining, hused, howed⟩

end

end Sys2Proof.Machine
end

section
/-! An expiry of the timebase: the speed, the stations and the channels. -/

namespace Sys2Proof.Machine

/-! ## Where the rows lie -/

/-- The rows with their stations' entries: what faces and close points are read from. -/
def State.places (s : State) : List (Word × Four (Option StationEntry)) := s.track.map fun r => (r.row, r.stations)

section
variable {s t : State}

theorem State.entry?_congr (h : t.places = s.places) (st : Fin 4) (n : Word) : t.entry? st n = s.entry? st n := by
  have hread (u : State) : u.entry? st n = (u.places.find? fun p => p.1 == n).bind fun p => p.2.get st := by
    unfold State.entry? State.row? State.places
    rw [List.find?_map]
    simp [Option.bind_map]
  rw [hread, hread, h]

/-- The entry of a station's next strike (R90). -/
theorem State.nextStrike_congr (h : t.places = s.places) (st : Fin 4) :
    ((t.nextStrike st).bind fun r => r.stations.get st) = (s.nextStrike st).bind fun r => r.stations.get st := by
  have hread (u : State) : ((u.nextStrike st).bind fun r => r.stations.get st) =
      (u.places.find? fun p => ((p.2.get st).map fun e => e.struck && !e.endTaken).getD false).bind
        fun p => p.2.get st := by
    have hlive : (fun r : RowCtx => r.liveStrike st) =
        (fun p : Word × Four (Option StationEntry) =>
          ((p.2.get st).map fun e => e.struck && !e.endTaken).getD false) ∘ fun r => (r.row, r.stations) := by
      funext r
      unfold RowCtx.liveStrike
      simp only [Function.comp_apply]
      cases r.stations.get st <;> rfl
    unfold State.nextStrike State.places
    rw [List.find?_map, hlive]
    simp [Option.bind_map]
  rw [hread, hread, h]

theorem State.closePointReached_congr (hp : t.places = s.places) (hw : t.wpu = s.wpu) (hc : t.cur = s.cur)
    (st : Fin 4) : t.closePointReached st = s.closePointReached st := by
  have hdist : t.closeDistance st = s.closeDistance st := by
    rw [State.closeDistance, State.planned, hw, State.block_congr hc, State.closeDistance, State.planned]
  have hweb : t.web = s.web := by rw [State.web, hw, State.web]
  unfold State.closePointReached
  rw [State.nextStrike_congr hp, hdist, hweb]

theorem State.chanFace_congr (hp : t.places = s.places) (hc : t.cur = s.cur) (c : Fin 8) (n : Word) :
    t.chanFace c n = s.chanFace c n := by
  have hst : t.chanStation c = s.chanStation c := by
    rw [State.chanStation, State.chanBlock_congr hc, State.chanStation]
  unfold State.chanFace
  rw [hst]
  congr 1
  funext st
  rw [State.entry?_congr hp]

end

/-! ## Actions at one station or one channel -/

/-- What holds of a channel when its turn comes and what its turn leaves, where the other turns keep both. -/
theorem forChannels_at {f : Fin 8 → State → State} (c : Fin 8) {P Q : State → Prop}
    (hP : ∀ k s, k ≠ c → P s → P (f k s)) (hc : ∀ s, P s → Q (f c s)) (hQ : ∀ k s, k ≠ c → Q s → Q (f k s))
    {s : State} (h : P s) : Q (forChannels f s) := by
  have turn (k : Fin 8) (u : State) (hu : if k.val ≤ c.val then P u else Q u) :
      if k.val + 1 ≤ c.val then P (f k u) else Q (f k u) := by
    rcases lt_trichotomy k.val c.val with hk | hk | hk
    · rw [if_pos (by omega)] at hu ⊢
      exact hP k u (Fin.ne_of_lt hk) hu
    · rw [if_pos (by omega)] at hu
      rw [if_neg (by omega), Fin.ext hk]
      exact hc u hu
    · rw [if_neg (by omega)] at hu ⊢
      exact hQ k u (Fin.ne_of_gt hk) hu
  have hend := turn 7 _ (turn 6 _ (turn 5 _ (turn 4 _ (turn 3 _ (turn 2 _ (turn 1 _ (turn 0 s (by simpa using h))))))))
  rwa [if_neg (by have := c.isLt; omega)] at hend

/-- The same of a station among the four. -/
theorem forStations_at {f : Fin 4 → State → State} (st : Fin 4) {P Q : State → Prop}
    (hP : ∀ k s, k ≠ st → P s → P (f k s)) (hst : ∀ s, P s → Q (f st s)) (hQ : ∀ k s, k ≠ st → Q s → Q (f k s))
    {s : State} (h : P s) : Q (forStations f s) := by
  have turn (k : Fin 4) (u : State) (hu : if k.val ≤ st.val then P u else Q u) :
      if k.val + 1 ≤ st.val then P (f k u) else Q (f k u) := by
    rcases lt_trichotomy k.val st.val with hk | hk | hk
    · rw [if_pos (by omega)] at hu ⊢
      exact hP k u (Fin.ne_of_lt hk) hu
    · rw [if_pos (by omega)] at hu
      rw [if_neg (by omega), Fin.ext hk]
      exact hst u hu
    · rw [if_neg (by omega)] at hu ⊢
      exact hQ k u (Fin.ne_of_gt hk) hu
  have hend := turn 3 _ (turn 2 _ (turn 1 _ (turn 0 s (by simpa using h))))
  rwa [if_neg (by have := st.isLt; omega)] at hend

/-! ## The stations at an expiry -/

/-- A station as an expiry leaves it, by the speed, the job and the rows of `s` (R75, R89, R90, R93, R95). -/
def State.expiredStation (s : State) (heaters : Four Bool) (st : Fin 4) (x : Station) : Station :=
  let resumed := if x.state = .lifted ∧ (s.job.resume : Int) ≤ s.wpu.v8 then .tracking else x.state
  let closes := resumed = .tracking ∧ (s.jobs.run = .running ∨ s.jobs.run = .draining) ∧
    x.throw = .off ∧ s.closePointReached st = true
  let counts := (s.block st).heated = true ∧ x.state = .tracking ∧
    (x.throw = .closing ∨ x.throw = .on) ∧ s.wpu.v8 < s.job.crawl
  { x with
    state := resumed
    heaterRun := if 4 ≤ x.heaterRun then x.heaterRun
      else if heaters.get st = x.heaterLevel then 0 else x.heaterRun + 1
    dwell := if counts then x.dwell + 1 else 0
    throw := if closes then .closing else x.throw
    timer := if closes then (s.block st).throwOn else x.timer - 1 }

section
variable (s : State) (heaters : Four Bool) (st : Fin 4)

theorem Station.sampleHeater_eq (x : Station) (level : Bool) :
    x.sampleHeater level =
      { x with heaterRun := if 4 ≤ x.heaterRun then x.heaterRun
                            else if level = x.heaterLevel then 0 else x.heaterRun + 1 } := by
  unfold Station.sampleHeater heaterSamples
  split
  · rfl
  · simp only [beq_iff_eq]

/-- The dwell count, as one station replaced (R93). -/
theorem State.countDwell_eq :
    s.countDwell st = s.setStation st
      { s.station st with
        dwell := if (s.block st).heated = true ∧ (s.station st).state = .tracking ∧
            ((s.station st).throw = .closing ∨ (s.station st).throw = .on) ∧ s.wpu.v8 < s.job.crawl
          then (s.station st).dwell + 1 else 0 } := by
  unfold State.countDwell
  simp only [Bool.and_eq_true, beq_iff_eq, decide_eq_true_eq, Throw.engaged_iff, and_assoc]
  split <;> rfl

theorem State.resumeLifted_station (k : Fin 4) :
    (s.resumeLifted st).station k = if k = st then
      { s.station st with
        state := if (s.station st).state = .lifted ∧ (s.job.resume : Int) ≤ s.wpu.v8 then .tracking
          else (s.station st).state
        dwell := if (s.station st).state = .lifted ∧ (s.job.resume : Int) ≤ s.wpu.v8 then 0
          else (s.station st).dwell }
    else s.station k := by
  unfold State.resumeLifted
  simp only [Bool.and_eq_true, beq_iff_eq, decide_eq_true_eq]
  split
  · exact State.station_setStation s st k _
  · rw [apply_self_of_eq fun k => s.station k]

theorem State.closeDue_iff :
    s.closeDue st = true ↔ (s.station st).state = .tracking ∧ (s.jobs.run = .running ∨ s.jobs.run = .draining) ∧
      (s.station st).throw = .off ∧ s.closePointReached st = true := by
  rw [State.closeDue, Bool.and_eq_true, Bool.and_eq_true, Bool.and_eq_true, State.moving_iff, beq_iff_eq, beq_iff_eq,
    and_assoc, and_assoc]

theorem State.closeTest_station (k : Fin 4) :
    (s.closeTest st).station k = if k = st then
      { s.station st with
        throw := if (s.station st).state = .tracking ∧ (s.jobs.run = .running ∨ s.jobs.run = .draining) ∧
          (s.station st).throw = .off ∧ s.closePointReached st = true then .closing else (s.station st).throw
        timer := if (s.station st).state = .tracking ∧ (s.jobs.run = .running ∨ s.jobs.run = .draining) ∧
          (s.station st).throw = .off ∧ s.closePointReached st = true then (s.block st).throwOn
          else (s.station st).timer }
    else s.station k := by
  simp only [← State.closeDue_iff]
  unfold State.closeTest
  split
  · exact State.station_setStation s st k _
  · rw [apply_self_of_eq fun k => s.station k]

/-- What an expiry does at one station (R75, R89, R90, R93, R95). -/
theorem State.stationExpiry_station (k : Fin 4) :
    (s.stationExpiry heaters st).station k =
      if k = st then s.expiredStation heaters st (s.station st) else s.station k := by
  let u := (s.setStation st ((s.station st).sampleHeater (heaters.get st))).setStation st
    { (s.setStation st ((s.station st).sampleHeater (heaters.get st))).station st with
      timer := ((s.setStation st ((s.station st).sampleHeater (heaters.get st))).station st).timer - 1 }
  have hexp : s.stationExpiry heaters st = ((u.countDwell st).resumeLifted st).closeTest st := rfl
  have hu (k : Fin 4) : u.station k = if k = st then
      { (s.station st).sampleHeater (heaters.get st) with timer := (s.station st).timer - 1 } else s.station k := by
    simp only [u, State.station_setStation, if_true, Station.sampleHeater_eq]
    split <;> rfl
  have hcur : u.cur = s.cur := by simp [u]
  have hwpu : u.wpu = s.wpu := by simp [u]
  have hjobs : u.jobs = s.jobs := by simp [u]
  have hplaces : u.places = s.places := by simp [u, State.places]
  clear_value u
  have hblock : u.block st = s.block st := State.block_congr hcur st
  have hjob : u.job = s.job := State.job_congr hcur
  have hclose : ((u.countDwell st).resumeLifted st).closePointReached st = s.closePointReached st :=
    State.closePointReached_congr (by simpa [State.places] using hplaces) (by simpa using hwpu) (by simpa using hcur) st
  have hblock' : ((u.countDwell st).resumeLifted st).block st = s.block st := State.block_congr (by simpa using hcur) st
  have hjob' : (u.countDwell st).job = s.job := State.job_congr (by simpa using hcur)
  have hdwell (k : Fin 4) : (u.countDwell st).station k = _ :=
    (congrArg (fun v => State.station v k) (u.countDwell_eq st)).trans (State.station_setStation _ _ _ _)
  rw [hexp, State.closeTest_station]
  simp only [hclose, hblock', State.resumeLifted_station, hdwell, hu, hjob', hjob, hblock, hwpu, hjobs, if_true, State.countDwell_frame,
    State.resumeLifted_frame, Station.sampleHeater_eq]
  split
  · unfold State.expiredStation
    simp only [Station.mk.injEq, true_and, and_true]
    split <;> simp_all
  · rfl

end

end Sys2Proof.Machine
end

section
/-! An expiry of the timebase: the channels, and the statement. -/

namespace Sys2Proof.Machine

/-! ## The late flags of a channel -/

/-- Every entry of the row at the channel carries its late flag. -/
def State.allLate (t : State) (c : Fin 8) (n : Word) : Prop :=
  ∀ r ∈ t.track, r.row = n → ∀ e, r.channels.get c = some e → e.late = true

theorem RowCtx.mapChannel_get (r : RowCtx) (c k : Fin 8) (f : ChannelEntry → ChannelEntry) :
    (r.mapChannel c f).channels.get k = if k = c then (r.channels.get c).map f else r.channels.get k := by
  simp [RowCtx.mapChannel]

section
variable {s : State}

theorem State.mem_markLate_track {c : Fin 8} {n : Word} {q : RowCtx} (h : q ∈ (s.markLate c n).track) :
    ∃ r ∈ s.track, q = if r.row = n then r.mapChannel c fun e => { e with late := true } else r := by
  have ht : (s.markLate c n).track =
      s.track.map fun r => if r.row = n then r.mapChannel c fun e => { e with late := true } else r := rfl
  rw [ht] at h
  obtain ⟨r, hr, rfl⟩ := List.mem_map.1 h
  exact ⟨r, hr, rfl⟩

/-- A late flag set anywhere clears none. -/
theorem State.allLate.markLate {c : Fin 8} {n : Word} (h : s.allLate c n) (k : Fin 8) (m : Word) :
    (s.markLate k m).allLate c n := by
  intro q hq hrow e he
  obtain ⟨r, hr, rfl⟩ := State.mem_markLate_track hq
  by_cases hm : r.row = m
  · rw [if_pos hm] at hrow he
    rw [RowCtx.mapChannel_get] at he
    split at he
    · obtain ⟨d, -, rfl⟩ := Option.map_eq_some_iff.1 he
      rfl
    · exact h r hr hrow e he
  · rw [if_neg hm] at hrow he
    exact h r hr hrow e he

theorem State.markLate_allLate (c : Fin 8) (n : Word) : (s.markLate c n).allLate c n := by
  intro q hq hrow e he
  obtain ⟨r, -, rfl⟩ := State.mem_markLate_track hq
  by_cases hn : r.row = n
  · rw [if_pos hn, RowCtx.mapChannel_get, if_pos rfl] at he
    obtain ⟨d, -, rfl⟩ := Option.map_eq_some_iff.1 he
    rfl
  · rw [if_neg hn] at hrow
    exact absurd hrow hn

theorem State.markLate_places (c : Fin 8) (n : Word) : (s.markLate c n).places = s.places := by
  have ht : (s.markLate c n).track =
      s.track.map fun r => if r.row = n then r.mapChannel c fun e => { e with late := true } else r := rfl
  rw [State.places, ht, List.map_map, State.places]
  refine List.map_congr_left fun r _ => ?_
  simp only [Function.comp_apply]
  split <;> rfl

end

/-! ## The ramp up that waits -/

theorem behind_of_dist_pos {a b : Pos} (h : 0 < dist b a) : behind b a = true := by
  unfold behind dist at *
  rw [decide_eq_true_eq]
  simp only [BitVec.toInt_eq_toNat_cond, BitVec.toNat_sub] at *
  split at h <;> split <;> omega

section
variable {s : State} {c : Fin 8} {h : Pos}

/-- A channel that stands takes the ramp up it watches, or stands as it was. -/
theorem State.tryRampUp_cases (c : Fin 8) (h : Pos) (s : State) :
    s.tryRampUp c h = s ∨ ∃ p, s.watched c = some p ∧
      (s.tryRampUp c h = s.setChannel c ((s.channel c).beginRampUp p) ∨
        s.tryRampUp c h = (s.setChannel c ((s.channel c).beginRampUp p)).markLate c p.stroke.row) := by
  unfold State.tryRampUp
  split
  · rename_i p _ hp
    split
    · split
      · dsimp only
        split
        · exact .inr ⟨p, hp, .inr rfl⟩
        · exact .inr ⟨p, hp, .inl rfl⟩
      · exact .inl rfl
    · exact .inl rfl
  · exact .inl rfl

theorem State.tryRampUp_places : (s.tryRampUp c h).places = s.places := by
  rcases s.tryRampUp_cases c h with he | ⟨p, -, he | he⟩
  · rw [he]
  · rw [he]; rfl
  · rw [he, State.markLate_places]; rfl

theorem State.tryRampUp_channel_ne {k : Fin 8} (hk : k ≠ c) : (s.tryRampUp c h).channel k = s.channel k := by
  have hset (x) : (s.setChannel c x).channel k = s.channel k := by rw [State.channel_setChannel, if_neg hk]
  rcases s.tryRampUp_cases c h with he | ⟨p, -, he | he⟩
  · rw [he]
  · rw [he, hset]
  · rw [he]
    exact hset _

theorem State.tryRampUp_allLate {k : Fin 8} {n : Word} (hl : s.allLate k n) : (s.tryRampUp c h).allLate k n := by
  rcases s.tryRampUp_cases c h with he | ⟨p, -, he | he⟩
  · rwa [he]
  · rw [he]
    exact hl
  · rw [he]
    exact State.allLate.markLate (s := s.setChannel c ((s.channel c).beginRampUp p)) hl c _

theorem State.tryRampUp_has {k : AttnCause} (hk : k ≠ .foilLate) :
    (s.tryRampUp c h).attn.has k = s.attn.has k := by
  rcases s.tryRampUp_cases c h with he | ⟨p, -, he | he⟩
  · rw [he]
  · rw [he]; rfl
  · rw [he]
    change (s.attn.raise .foilLate).has k = _
    rw [Bool.eq_iff_iff, Attention.raise_has]
    simp [hk]

theorem State.tryRampUp_has_of_has {k : AttnCause} (hk : s.attn.has k = true) :
    (s.tryRampUp c h).attn.has k = true := by
  rcases s.tryRampUp_cases c h with he | ⟨p, -, he | he⟩
  · rwa [he]
  · rw [he]
    exact hk
  · rw [he]
    exact (Attention.raise_has _ _ _).2 (.inr hk)

/-- What a channel watches, as the statements say it. -/
theorem State.watched_of_watches {k : Stroke} {len : Nat} (hw : (s.channel c).watches s.wpu.v8p k len) :
    s.watched c = some { stroke := k, len := len } := by
  unfold State.watched
  rcases hw with hp | ⟨hp, hk, rfl⟩
  · rw [hp]
  · rw [hp, hk]
    rfl

theorem Channel.beginRampUp_eq (x : Channel) (k : Stroke) (len : Nat) :
    x.beginRampUp { stroke := k, len := len } = x.ramping k len 0 := rfl

/-- The ramp up that waits, taken at the high-water position as it stands (R115, R116, R121). -/
theorem State.tryRampUp_taken {old : State} (hstand : (s.channel c).state = .standing) (hp : s.places = old.places)
    (hc : s.cur = old.cur) : rampTaken old (s.tryRampUp c s.wpu.highWater) c (s.channel c) := by
  refine ⟨fun hplan hstrokes => ?_, fun k len f hw hf => ?_⟩
  · have hnone : s.watched c = none := by
      unfold State.watched
      rw [hplan, hstrokes]
      rfl
    have hsame : s.tryRampUp c s.wpu.highWater = s := by
      unfold State.tryRampUp
      rw [hnone, hstand]
    rw [hsame]
  · rw [(State.tryRampUp_frame c s.wpu.highWater s).1] at hw ⊢
    have hface : s.chanFace c k.row = some f := by rw [State.chanFace_congr hp hc, hf]
    have hstart : s.startPoint c { stroke := k, len := len } = some (moved (moved f k.startOff) (-(len : Int))) := by
      rw [State.startPoint, State.syncStart, hface]
      rfl
    generalize moved (moved f k.startOff) (-(len : Int)) = x at hstart
    have htry : s.tryRampUp c s.wpu.highWater =
        if atOrBeyond s.wpu.highWater x then
          if behind x s.wpu.highWater then (s.setChannel c ((s.channel c).ramping k len 0)).markLate c k.row
          else s.setChannel c ((s.channel c).ramping k len 0)
        else s := by
      unfold State.tryRampUp
      simp only [hstand, State.watched_of_watches hw, hstart, Channel.beginRampUp_eq]
    dsimp only
    refine ⟨fun hpast => ?_, fun hpast => ?_, fun hpast => ?_⟩
    · rw [htry, if_neg (by simpa [atOrBeyond] using hpast)]
    · rw [htry, if_pos (by simpa [atOrBeyond] using hpast)]
      have hset : (s.setChannel c ((s.channel c).ramping k len 0)).channel c = (s.channel c).ramping k len 0 := by
        rw [State.channel_setChannel, if_pos rfl]
      split
      · exact congrArg Channel.motion hset
      · exact congrArg Channel.motion hset
    · rw [htry, if_pos (by simpa [atOrBeyond] using hpast.le), if_pos (behind_of_dist_pos hpast)]
      exact ⟨(Attention.raise_has _ _ _).2 (.inl rfl), State.markLate_allLate c k.row⟩

theorem State.tryRampUp_accounts : ((s.tryRampUp c h).channel c).accounts = (s.channel c).accounts := by
  have hset (p) : ((s.setChannel c ((s.channel c).beginRampUp p)).channel c).accounts = (s.channel c).accounts := by
    rw [State.channel_setChannel, if_pos rfl]
    rfl
  rcases s.tryRampUp_cases c h with he | ⟨p, -, he | he⟩
  · rw [he]
  · rw [he, hset]
  · rw [he]
    exact hset p

end

/-- A ramp up taken stays taken where the channel, the web position unit and the late flags stay. -/
theorem rampTaken.mono {s t u : State} {c : Fin 8} {x : Channel} (h : rampTaken s t c x) (hch : u.channel c = t.channel c)
    (hw : u.wpu = t.wpu) (hattn : t.attn.has .foilLate = true → u.attn.has .foilLate = true)
    (hlate : ∀ n, t.allLate c n → u.allLate c n) : rampTaken s u c x := by
  refine ⟨fun hp hs => by rw [hch, h.1 hp hs], fun k len f hk hf => ?_⟩
  rw [hw] at hk ⊢
  obtain ⟨hno, hyes, hl⟩ := h.2 k len f hk hf
  refine ⟨fun hp => by rw [hch, hno hp], fun hp => by rw [hch, hyes hp], fun hp => ?_⟩
  obtain ⟨ha, hr⟩ := hl hp
  exact ⟨hattn ha, hlate _ hr⟩

theorem rampTaken.of_faces {s s' t : State} {c : Fin 8} {x : Channel} (h : rampTaken s t c x)
    (hf : ∀ n, s.chanFace c n = s'.chanFace c n) : rampTaken s' t c x :=
  ⟨h.1, fun k len f hk hface => h.2 k len f hk ((hf k.row).trans hface)⟩

/-! ## The channels at an expiry -/

theorem State.channelExpiry_keeps {s : State} {c k : Fin 8} (hk : k ≠ c) :
    (s.channelExpiry k).channel c = s.channel c ∧ (s.channelExpiry k).places = s.places ∧
      (s.attn.has .foilLate = true → (s.channelExpiry k).attn.has .foilLate = true) ∧
      ∀ n, s.allLate c n → (s.channelExpiry k).allLate c n := by
  unfold State.channelExpiry
  split
  · exact ⟨State.tryRampUp_channel_ne (Ne.symm hk), State.tryRampUp_places, State.tryRampUp_has_of_has,
      fun n => State.tryRampUp_allLate⟩
  · exact ⟨rfl, rfl, id, fun n => id⟩

/-- Each channel at an expiry: one that stands takes the ramp up that waits, and any other stays (R112, R116). -/
theorem State.channelsExpiry (s : State) (c : Fin 8) :
    let t := forChannels State.channelExpiry s
    ((s.channel c).state ≠ .standing → t.channel c = s.channel c) ∧
      ((s.channel c).state = .standing → (t.channel c).accounts = (s.channel c).accounts ∧
        rampTaken s t c (s.channel c)) := by
  refine forChannels_at c (P := fun u => u.channel c = s.channel c ∧ u.wpu = s.wpu ∧ u.cur = s.cur ∧ u.places = s.places)
    (Q := fun t => ((s.channel c).state ≠ .standing → t.channel c = s.channel c) ∧
      ((s.channel c).state = .standing → (t.channel c).accounts = (s.channel c).accounts ∧
        rampTaken s t c (s.channel c)))
    (fun k u hk ⟨hch, hw, hc, hp⟩ => ?_) (fun u ⟨hch, hw, hc, hp⟩ => ?_) (fun k u hk ⟨hother, hstand⟩ => ?_)
    ⟨rfl, rfl, rfl, rfl⟩
  · obtain ⟨hch', hp', -⟩ := State.channelExpiry_keeps (s := u) hk
    exact ⟨hch'.trans hch, by simpa using hw, by simpa using hc, hp'.trans hp⟩
  · rw [State.channelExpiry, ← hch]
    refine ⟨fun hs => by rw [if_neg hs], fun hs => ?_⟩
    rw [if_pos hs]
    exact ⟨State.tryRampUp_accounts, State.tryRampUp_taken hs hp hc⟩
  · obtain ⟨hch', -, hattn, hlate⟩ := State.channelExpiry_keeps (s := u) hk
    rw [hch']
    refine ⟨hother, fun hs => ⟨(hstand hs).1, (hstand hs).2.mono hch' (by simp) hattn hlate⟩⟩

/-! ## The speed at an expiry -/

section
variable (s : State)

/-- The web position unit after a speed update, but for the overspeed flag (R10, R11). -/
theorem State.speedUpdate_wpu :
    s.speedUpdate.wpu =
      { s.wpu with
        v8 := clampInt (-32768) 32767 (dist s.wpu.ring.a0 s.web)
        ring := ⟨s.wpu.ring.a1, s.wpu.ring.a2, s.wpu.ring.a3, s.wpu.ring.a4, s.wpu.ring.a5, s.wpu.ring.a6,
          s.wpu.ring.a7, s.web⟩
        v8p := ceilDiv ((clampInt (-32768) 32767 (dist s.wpu.ring.a0 s.web)).toNat * (256 + s.wpu.headroom)) 256
        overspeed := s.speedUpdate.wpu.overspeed } := by
  have h := State.overspeedCheck_wpu (s.withWpu s.wpu.updateSpeed.updatePlanning)
  exact h

theorem State.speedUpdate_idle (h : s.jobs.run = .idle) :
    s.speedUpdate = s.withWpu s.wpu.updateSpeed.updatePlanning := if_pos h

theorem State.speedUpdate_below (h : s.jobs.run ≠ .idle) (hv : ¬ (s.job.v8Max : Int) < s.speedUpdate.wpu.v8) :
    s.speedUpdate.wpu.overspeed = false ∧ s.speedUpdate.jobs = s.jobs ∧ s.speedUpdate.attn = s.attn := by
  rw [State.speedUpdate_wpu] at hv
  have he : s.speedUpdate = (s.withWpu s.wpu.updateSpeed.updatePlanning).withWpu
      { s.wpu.updateSpeed.updatePlanning with overspeed := false } :=
    (if_neg h).trans (if_neg hv)
  rw [he]
  exact ⟨rfl, rfl, rfl⟩

theorem State.speedUpdate_again (h : s.jobs.run ≠ .idle) (hv : (s.job.v8Max : Int) < s.speedUpdate.wpu.v8)
    (ho : s.wpu.overspeed = true) :
    s.speedUpdate.wpu.overspeed = true ∧ s.speedUpdate.jobs = s.jobs ∧ s.speedUpdate.attn = s.attn := by
  rw [State.speedUpdate_wpu] at hv
  have he : s.speedUpdate = s.withWpu s.wpu.updateSpeed.updatePlanning :=
    (if_neg h).trans ((if_pos hv).trans (if_pos ho))
  rw [he]
  exact ⟨ho, rfl, rfl⟩

theorem State.speedUpdate_above (h : s.jobs.run ≠ .idle) (hv : (s.job.v8Max : Int) < s.speedUpdate.wpu.v8)
    (ho : s.wpu.overspeed = false) :
    s.speedUpdate.wpu.overspeed = true ∧ s.speedUpdate.jobs = s.jobs.handStop .overspeed ∧
      s.speedUpdate.attn = s.attn.raise .overspeed := by
  rw [State.speedUpdate_wpu] at hv
  have he : s.speedUpdate = ((s.withWpu s.wpu.updateSpeed.updatePlanning).withWpu
      { s.wpu.updateSpeed.updatePlanning with overspeed := true }).raiseStop .overspeed .overspeed :=
    (if_neg h).trans ((if_pos hv).trans (if_neg (by rw [Bool.not_eq_true]; exact ho)))
  rw [he]
  exact ⟨rfl, rfl, rfl⟩

/-- OVERSPEED by the excursion (R12). -/
theorem State.speedUpdate_overspeed :
    (s.jobs.run = .idle → s.speedUpdate.wpu.overspeed = s.wpu.overspeed ∧ s.speedUpdate.jobs = s.jobs) ∧
    (s.jobs.run ≠ .idle → (s.speedUpdate.wpu.overspeed = true ↔ (s.job.v8Max : Int) < s.speedUpdate.wpu.v8)) ∧
    (s.jobs.run ≠ .idle → s.speedUpdate.wpu.overspeed = true → s.wpu.overspeed = false →
      s.speedUpdate.attn.has .overspeed = true ∧ s.speedUpdate.jobs = s.jobs.handStop .overspeed) ∧
    (¬ (s.jobs.run ≠ .idle ∧ s.speedUpdate.wpu.overspeed = true ∧ s.wpu.overspeed = false) →
      s.speedUpdate.jobs = s.jobs ∧ s.speedUpdate.attn = s.attn) := by
  by_cases hi : s.jobs.run = .idle
  · rw [State.speedUpdate_idle s hi]
    exact ⟨fun _ => ⟨rfl, rfl⟩, fun h => absurd hi h, fun h => absurd hi h, fun _ => ⟨rfl, rfl⟩⟩
  by_cases hv : (s.job.v8Max : Int) < s.speedUpdate.wpu.v8
  · cases ho : s.wpu.overspeed with
    | true =>
      obtain ⟨hover, hjobs, hattn⟩ := s.speedUpdate_again hi hv ho
      exact ⟨fun h => absurd h hi, fun _ => by simp [hover, hv], fun _ _ h => (nomatch h), fun _ => ⟨hjobs, hattn⟩⟩
    | false =>
      obtain ⟨hover, hjobs, hattn⟩ := s.speedUpdate_above hi hv ho
      refine ⟨fun h => absurd h hi, fun _ => by simp [hover, hv], fun _ _ _ => ⟨?_, hjobs⟩,
        fun h => absurd ⟨hi, hover, rfl⟩ h⟩
      rw [hattn]
      exact (Attention.raise_has _ _ _).2 (.inl rfl)
  · obtain ⟨hover, hjobs, hattn⟩ := s.speedUpdate_below hi hv
    exact ⟨fun h => absurd h hi, fun _ => by simp [hover, hv], fun _ h => by simp [hover] at h,
      fun _ => ⟨hjobs, hattn⟩⟩

end

/-- A quotient rounded up, times its divisor (R11). -/
theorem ceilDiv_bounds (a : Nat) {b : Nat} (hb : 0 < b) : a ≤ b * ceilDiv a b ∧ b * ceilDiv a b < a + b := by
  unfold ceilDiv
  have hdiv := Nat.div_add_mod (a + b - 1) b
  have hmod := Nat.mod_lt (a + b - 1) hb
  omega

theorem State.liveBytes_length (s : State) : s.liveBytes.length = 252 := by
  have hst := length_flatten_of_length 16 _ s.stationBlocks_length
  have hch := length_flatten_of_length 16 _ s.channelBlocks_length
  unfold State.liveBytes
  simp only [List.length_append, leBytes_length, hst, hch]
  rfl

theorem State.liveUpdate_within (s : State) : changedWithin s.mem s.liveUpdate.mem 0 0x100 := by
  intro x hx
  rw [State.read_liveUpdate, if_neg (by omega)]
  refine (Memory.read_write_of_outside _ _ _ _ (by rw [State.liveBytes_length]; omega)).trans ?_
  rw [State.bumpGeneration, State.read_writeWord, if_neg (by omega)]
  rfl

/-! ## The stations and the statement -/

/-- The four stations at an expiry (R75, R89, R90, R93, R95). -/
theorem State.stationsExpiry (s : State) (heaters : Four Bool) (st : Fin 4) :
    (forStations (State.stationExpiry heaters) s).station st = s.expiredStation heaters st (s.station st) := by
  refine forStations_station (State.stationExpiry heaters) (fun st x => s.expiredStation heaters st x)
    (fun u => u.wpu = s.wpu ∧ u.cur = s.cur ∧ u.jobs = s.jobs ∧ u.places = s.places)
    (fun k u ⟨hw, hc, hj, hp⟩ => ⟨by simpa using hw, by simpa using hc, by simpa using hj, by simpa [State.places] using hp⟩)
    (fun k st u ⟨hw, hc, hj, hp⟩ => ?_) s ⟨rfl, rfl, rfl, rfl⟩ st
  rw [State.stationExpiry_station]
  unfold State.expiredStation
  rw [State.closePointReached_congr hp hw hc, State.job_congr hc, State.block_congr hc, hw, hj]

theorem State.channelExpiry_has {s : State} {c : Fin 8} {k : AttnCause} (hk : k ≠ .foilLate) :
    (s.channelExpiry c).attn.has k = s.attn.has k := by
  unfold State.channelExpiry
  split
  · exact State.tryRampUp_has hk
  · rfl

theorem State.channelExpiry_places {s : State} {c : Fin 8} : (s.channelExpiry c).places = s.places := by
  unfold State.channelExpiry
  split
  · exact State.tryRampUp_places
  · rfl

/-- What an expiry keeps after its speed update (R9). -/
theorem State.expired_keeps (heaters : Four Bool) (s : State) :
    (s.expired heaters).wpu = s.speedUpdate.wpu ∧ (s.expired heaters).jobs = s.speedUpdate.jobs ∧
      (s.expired heaters).cur = s.cur ∧ (s.expired heaters).places = s.places ∧
      (s.expired heaters).attn.has .overspeed = s.speedUpdate.attn.has .overspeed := by
  refine ⟨by simp [State.expired, forChannels, forStations], by simp [State.expired, forChannels, forStations],
    by simp [State.expired, forChannels, forStations], ?_, ?_⟩
  · refine (forChannels_keeps State.places State.channelExpiry (fun c u => State.channelExpiry_places) _).trans ?_
    simp [State.places, forStations]
  · refine (forChannels_keeps (fun u => u.attn.has .overspeed) State.channelExpiry
      (fun c u => State.channelExpiry_has (by decide)) _).trans ?_
    simp [forStations]

/-- The stations after an expiry, in the words of the state before it. -/
theorem State.expired_station (heaters : Four Bool) (s : State) (st : Fin 4) :
    (s.expired heaters).station st = s.speedUpdate.expiredStation heaters st (s.station st) := by
  rw [State.expired, State.station, forChannels_keeps (fun u => u.stations) State.channelExpiry (by simp)]
  have hst : s.speedUpdate.station st = s.station st := by simp [State.station]
  rw [← hst]
  exact State.stationsExpiry s.speedUpdate heaters st

/-- The channels after an expiry, in the words of the state before it. -/
theorem State.expired_channel (heaters : Four Bool) (s : State) (c : Fin 8) :
    ((s.channel c).state ≠ .standing → (s.expired heaters).channel c = s.channel c) ∧
      ((s.channel c).state = .standing → ((s.expired heaters).channel c).accounts = (s.channel c).accounts ∧
        rampTaken s (s.expired heaters) c (s.channel c)) := by
  have hch : (forStations (State.stationExpiry heaters) s.speedUpdate).channel c = s.channel c := by
    simp [State.channel, forStations]
  have hface (n : Word) : (forStations (State.stationExpiry heaters) s.speedUpdate).chanFace c n = s.chanFace c n :=
    State.chanFace_congr (by simp [State.places, forStations]) (by simp [forStations]) c n
  obtain ⟨hother, hstand⟩ := State.channelsExpiry (forStations (State.stationExpiry heaters) s.speedUpdate) c
  rw [hch] at hother hstand
  exact ⟨hother, fun hs => ⟨(hstand hs).1, (hstand hs).2.of_faces hface⟩⟩

/-- Settles O26: the speed update by the excursion, each station by what an expiry does at it, each channel by the
ramp up that waits. -/
theorem timebaseExpiryUpdatesTheSpeed : Obligations.TimebaseExpiryUpdatesTheSpeed := by
  intro heaters s
  refine ⟨_, exec_timebaseExpiry heaters s, ?_⟩
  obtain ⟨hwpu, hjobs, hcur, hplaces, hattn⟩ := s.expired_keeps heaters
  have hstation := s.expired_station heaters
  have hchannel := s.expired_channel heaters
  have hpage := (s.expired heaters).liveUpdate_within
  have hgen := (s.expired heaters).liveUpdate_generation
  have hw : (s.expired heaters).liveUpdate.wpu = s.speedUpdate.wpu := by simpa using hwpu
  have hj : (s.expired heaters).liveUpdate.jobs = s.speedUpdate.jobs := by simpa using hjobs
  have hat : (s.expired heaters).liveUpdate.attn = (s.expired heaters).attn := by simp
  have hclose (st : Fin 4) : (s.expired heaters).liveUpdate.closePointReached st = s.speedUpdate.closePointReached st :=
    State.closePointReached_congr (by simpa [State.places] using hplaces) hw (by simpa using hcur) st
  obtain ⟨hidle, hiff, hraised, hquiet⟩ := s.speedUpdate_overspeed
  have hv8 : s.speedUpdate.wpu.v8 = clampInt (-32768) 32767 (dist s.wpu.ring.a0 s.web) := by
    rw [State.speedUpdate_wpu]
  have hv8p : s.speedUpdate.wpu.v8p = ceilDiv (s.speedUpdate.wpu.v8.toNat * (256 + s.wpu.headroom)) 256 := by
    rw [State.speedUpdate_wpu]
  have hspeed : (max s.speedUpdate.wpu.v8 0).toNat = s.speedUpdate.wpu.v8.toNat := by omega
  obtain ⟨hlo, hhi⟩ := ceilDiv_bounds (s.speedUpdate.wpu.v8.toNat * (256 + s.wpu.headroom)) (b := 256) (by decide)
  rw [← hv8p] at hlo hhi
  rw [hw, hj, hspeed]
  refine ⟨s.speedUpdate_v8, fun h1 h2 => ?_, fun h => ?_, fun h => ?_, ?_, hlo, hhi, ?_, hidle, hiff, fun h1 h2 h3 => ?_,
    fun h => ⟨(hquiet h).1, fun hs => ?_⟩, fun st => ?_, fun c => ?_, ?_, ?_, ?_, ?_, ?_, ?_, ?_, ?_, ?_, ?_, ?_, ?_, ?_,
    ?_, ?_⟩
  · rw [hv8, clampInt]; omega
  · rw [hv8, clampInt]; omega
  · rw [hv8, clampInt]; omega
  · rw [State.speedUpdate_wpu]
  · rw [State.speedUpdate_wpu]
  · obtain ⟨ha, hjs⟩ := hraised h1 h2 h3
    refine ⟨?_, hjs⟩
    rw [hat, hattn, ha]
  · rw [hat, hattn, (hquiet h).2, hs]
  · have hst : (s.expired heaters).liveUpdate.station st = (s.expired heaters).station st := by simp [State.station]
    have hcur' : s.speedUpdate.cur = s.cur := by simp
    have hrun : s.speedUpdate.jobs.run = s.jobs.run := by simp
    rw [hst, hstation, State.expiredStation, State.job_congr hcur', State.block_congr hcur', hrun, hclose]
  · have hch : (s.expired heaters).liveUpdate.channel c = (s.expired heaters).channel c := by simp [State.channel]
    rw [hch]
    obtain ⟨hother, hstand⟩ := hchannel c
    refine ⟨hother, fun hs => ⟨(hstand hs).1, (hstand hs).2.mono hch (by simp) (fun h => by simpa using h)
      (fun n h => ?_)⟩⟩
    simpa [State.allLate] using h
  · rw [hgen]
    simp [State.expired, forChannels, forStations]
  · have hmem : (s.expired heaters).mem = s.mem := by simp [State.expired, forChannels, forStations]
    rwa [hmem] at hpage
  · simp [sameRun, sameSlots, State.expired, forChannels, forStations]
  · simp [State.expired, forChannels, forStations]
  · simp [State.expired, forChannels, forStations]
  · simp [State.expired, forChannels, forStations]
  · simpa [State.places] using hplaces
  · simp [State.expired, forChannels, forStations]
  · simp [State.expired, forChannels, forStations]
  · simp [State.expired, forChannels, forStations]
  · simp [State.expired, forChannels, forStations]
  · simp [State.expired, forChannels, forStations]
  · simp [State.expired, forChannels, forStations]
  · simp [State.expired, forChannels, forStations]
  · simp [State.expired, forChannels, forStations]

end Sys2Proof.Machine
end

section
/-! A foil tick: the generator, the accounts and the row charged. -/

namespace Sys2Proof.Machine

section
variable (s : State) (c : Fin 8)

/-- A foil tick charged to a row, where there is one to charge (R123). -/
def State.chargeTo (c : Fin 8) (row : Option Word) (s : State) : State :=
  match row with
  | some n => s.mapCharge c n fun e => { e with foilUsed := e.foilUsed + 1 }
  | none => s

/-- A foil tick delivered to the generator and taken from the accounts (R111, R123 to R126). -/
def State.deliverTick (s : State) (c : Fin 8) : State :=
  (s.setGen (.foil c) ((s.foilGens.get c).deliver 1)).setChannel c (s.channel c).charge

/-- The causes a foil tick of channel `x` sets (R125, R126). -/
def State.noteFoil (x : Channel) (s : State) : State :=
  let s := if x.crossesLow then s.raise .foilLow else s
  if x.runsOut then s.raiseStop .foilOut .foilOut else s

theorem State.foilTick_eq :
    s.foilTick c = ((s.deliverTick c).chargeTo c (s.channel c).chargedRow).noteFoil (s.channel c) := rfl

@[simp] theorem State.chargeTo_frame (row : Option Word) :
    (s.chargeTo c row).foilGens = s.foilGens ∧ (s.chargeTo c row).cylGens = s.cylGens ∧
      (s.chargeTo c row).channels = s.channels ∧ (s.chargeTo c row).attn = s.attn ∧
      (s.chargeTo c row).jobs = s.jobs := by
  cases row <;> simp [State.chargeTo]

@[simp] theorem State.noteFoil_frame (x : Channel) :
    (s.noteFoil x).foilGens = s.foilGens ∧ (s.noteFoil x).cylGens = s.cylGens ∧
      (s.noteFoil x).channels = s.channels ∧ (s.noteFoil x).track = s.track := by
  unfold State.noteFoil
  dsimp only
  split_ifs <;> simp

theorem State.noteFoil_low (x : Channel) (h : x.crossesLow = true) : (s.noteFoil x).attn.has .foilLow = true := by
  unfold State.noteFoil
  simp only [h, if_true]
  split
  · exact (Attention.raise_has _ _ _).2 (.inr ((Attention.raise_has _ _ _).2 (.inl rfl)))
  · exact (Attention.raise_has _ _ _).2 (.inl rfl)

theorem State.noteFoil_out (x : Channel) (h : x.runsOut = true) :
    (s.noteFoil x).attn.has .foilOut = true ∧ (s.noteFoil x).jobs = s.jobs.handStop .foilOut := by
  unfold State.noteFoil
  simp only [h, if_true]
  refine ⟨(Attention.raise_has _ _ _).2 (.inl rfl), ?_⟩
  split <;> rfl

theorem State.noteFoil_jobs (x : Channel) (h : x.runsOut = false) : (s.noteFoil x).jobs = s.jobs := by
  unfold State.noteFoil
  simp only [h, Bool.false_eq_true, if_false]
  split <;> rfl

theorem State.noteFoil_attn (x : Channel) (hl : x.crossesLow = false) (h : x.runsOut = false) :
    s.noteFoil x = s := by
  unfold State.noteFoil
  simp only [hl, h]
  rfl

theorem State.foilTick_channels : (s.foilTick c).channels = s.channels.set c (s.channel c).charge := by
  rw [State.foilTick_eq]
  simp [State.deliverTick, State.setChannel]

theorem State.foilTick_channel (k : Fin 8) :
    (s.foilTick c).channel k = if k = c then (s.channel c).charge else s.channel k := by
  rw [State.channel, State.foilTick_channels, Eight.get_set]
  rfl

theorem State.foilTick_gen (k : GenId) :
    (s.foilTick c).gen k = if k = .foil c then (s.gen (.foil c)).deliver 1 else s.gen k := by
  have hgen : (s.foilTick c).gen k = (s.setGen (.foil c) ((s.foilGens.get c).deliver 1)).gen k := by
    rw [State.foilTick_eq]
    cases k <;> simp [State.gen, State.deliverTick]
  rw [hgen, State.gen_setGen]
  rfl

theorem StepGen.deliver_one (g : StepGen) : g.deliver 1 = { g with acc := g.acc + BitVec.ofNat 48 g.ratio } := by
  rw [StepGen.deliver, one_mul, BitVec.ofInt_natCast]

theorem Channel.crossesLow_iff (x : Channel) :
    x.crossesLow = true ↔ 0 < x.params.threshold ∧ x.remaining - 1 ≤ x.params.threshold ∧ x.lowArmed = true := by
  simp [Channel.crossesLow, and_assoc]

theorem Channel.runsOut_iff (x : Channel) : x.runsOut = true ↔ x.remaining ≤ 1 ∧ x.out = false := by
  simp [Channel.runsOut, Nat.sub_eq_zero_iff_le]

/-- The current stroke whose row a foil tick is charged to, as R123 says it. -/
def Channel.chargesStroke (x : Channel) (k : Stroke) : Prop :=
  x.state = .sync ∧ x.mergingFrom = some k ∨
    x.current = some k ∧ (x.state = .rampUp ∨ x.state = .rampDown ∨ x.state = .sync ∧ x.mergingFrom = none)

theorem Channel.chargedRow_of_charges {x : Channel} {k : Stroke} (h : x.chargesStroke k) : x.chargedRow = some k.row := by
  unfold Channel.chargedRow
  rcases h with ⟨hs, hm⟩ | ⟨hc, hs | hs | ⟨hs, hm⟩⟩
  · rw [hs, hm]
  · rw [hs, hc]; rfl
  · rw [hs, hc]; rfl
  · rw [hs, hm, hc]; rfl

theorem Channel.chargedRow_none {x : Channel} (h : ∀ k, ¬ x.chargesStroke k) : x.chargedRow = none := by
  unfold Channel.chargedRow
  unfold Channel.chargesStroke at h
  cases hs : x.state with
  | idle => rfl
  | standing => rfl
  | rampUp =>
    cases hc : x.current with
    | none => rfl
    | some k => exact absurd (.inr ⟨hc, .inl hs⟩) (h k)
  | rampDown =>
    cases hc : x.current with
    | none => rfl
    | some k => exact absurd (.inr ⟨hc, .inr (.inl hs)⟩) (h k)
  | sync =>
    cases hm : x.mergingFrom with
    | some k => exact absurd (.inl ⟨hs, hm⟩) (h k)
    | none =>
      cases hc : x.current with
      | none => rfl
      | some k => exact absurd (.inr ⟨hc, .inr (.inr ⟨hs, hm⟩)⟩) (h k)

theorem State.foilTick_track :
    (s.foilTick c).track = ((s.deliverTick c).chargeTo c (s.channel c).chargedRow).track := by
  rw [State.foilTick_eq, (State.noteFoil_frame _ _).2.2.2]

/-- The rows with the channel's entries, as a charge leaves them (R123). -/
theorem State.chargeTo_charges (row : Option Word) :
    (s.chargeTo c row).track.map (fun r => (r.row, (r.channels.get c).map fun e => e)) =
      s.track.map fun r => (r.row, (r.channels.get c).map fun e =>
        if row = some r.row then { e with foilUsed := e.foilUsed + 1 } else e) := by
  cases row with
  | none => simp [State.chargeTo]
  | some n =>
    have ht : (s.chargeTo c (some n)).track = s.track.map fun r =>
        if r.row = n then r.mapChannel c fun e => { e with foilUsed := e.foilUsed + 1 } else r := rfl
    rw [ht, List.map_map]
    refine List.map_congr_left fun r _ => ?_
    simp only [Function.comp_apply, Option.some.injEq]
    by_cases hr : r.row = n
    · simp only [hr, if_true, RowCtx.mapChannel_get]
      simp [RowCtx.mapChannel, hr, Function.comp_def]
    · simp only [hr, if_false, if_neg (Ne.symm hr)]

theorem State.foilTick_keeps :
    (s.foilTick c).wpu = s.wpu ∧ (s.foilTick c).stations = s.stations ∧ sameMemory s (s.foilTick c) ∧
      sameOutside s (s.foilTick c) := by
  simp [sameMemory, sameOutside]

end

end Sys2Proof.Machine
end

section
/-! The foil ticks of a count: at most one for each tick of the high-water position, and nothing but them moves a
generator or the accounts. -/

namespace Sys2Proof.Machine

/-! ## What the actions of one channel leave alone -/

/-- `t` comes from `s` by actions of channel `c`: no other channel, no other generator and no station's entry
changed. -/
structure channelActs (c : Fin 8) (s t : State) : Prop where
  others : ∀ k, k ≠ c → t.channel k = s.channel k
  foils : ∀ k, k ≠ c → t.foilGens.get k = s.foilGens.get k
  places : t.places = s.places
  wpu : t.wpu = s.wpu
  cur : t.cur = s.cur

/-- The channel's own generator and its accounts stand too. -/
structure channelFree (c : Fin 8) (s t : State) : Prop extends channelActs c s t where
  foilGens : t.foilGens = s.foilGens
  accounts : (t.channel c).accounts = (s.channel c).accounts

section
variable {c : Fin 8} {s t u : State}

theorem channelActs.refl (s : State) : channelActs c s s := ⟨fun _ _ => rfl, fun _ _ => rfl, rfl, rfl, rfl⟩

theorem channelActs.trans (h : channelActs c s t) (h' : channelActs c t u) : channelActs c s u :=
  ⟨fun k hk => (h'.others k hk).trans (h.others k hk), fun k hk => (h'.foils k hk).trans (h.foils k hk),
    h'.places.trans h.places, h'.wpu.trans h.wpu, h'.cur.trans h.cur⟩

theorem channelFree.refl (s : State) : channelFree c s s := ⟨.refl s, rfl, rfl⟩

theorem channelFree.trans (h : channelFree c s t) (h' : channelFree c t u) : channelFree c s u :=
  ⟨h.tochannelActs.trans h'.tochannelActs, h'.foilGens.trans h.foilGens, h'.accounts.trans h.accounts⟩

theorem channelFree_setChannel {x : Channel} (hx : x.accounts = (s.channel c).accounts) :
    channelFree c s (s.setChannel c x) :=
  ⟨⟨fun k hk => by rw [State.channel_setChannel, if_neg hk], fun _ _ => rfl, rfl, rfl, rfl⟩, rfl,
    by rw [State.channel_setChannel, if_pos rfl, hx]⟩

theorem channelFree.after_setChannel {x : Channel} (h : channelFree c (s.setChannel c x) t)
    (hx : x.accounts = (s.channel c).accounts) : channelFree c s t :=
  (channelFree_setChannel hx).trans h

theorem State.mapCharge_places (n : Word) (f : ChannelEntry → ChannelEntry) : (s.mapCharge c n f).places = s.places := by
  have ht : (s.mapCharge c n f).track = s.track.map fun r => if r.row = n then r.mapChannel c f else r := rfl
  rw [State.places, ht, List.map_map, State.places]
  refine List.map_congr_left fun r _ => ?_
  simp only [Function.comp_apply]
  split <;> rfl

theorem channelFree_mapCharge (n : Word) (f : ChannelEntry → ChannelEntry) : channelFree c s (s.mapCharge c n f) :=
  ⟨⟨fun _ _ => rfl, fun _ _ => rfl, State.mapCharge_places n f, rfl, rfl⟩, rfl, rfl⟩

theorem channelFree_tryRampUp (h : Pos) : channelFree c s (s.tryRampUp c h) :=
  ⟨⟨fun _ hk => State.tryRampUp_channel_ne hk, fun _ _ => by simp, State.tryRampUp_places, by simp, by simp⟩, by simp,
    State.tryRampUp_accounts⟩

theorem channelFree_hop (x y : Stroke) (len : Nat) : channelFree c s (s.hop c x y len) :=
  (channelFree_mapCharge _ _).after_setChannel rfl

theorem channelFree_merge (h : Pos) (x y : Stroke) : channelFree c s (s.merge c h x y) :=
  (channelFree_mapCharge _ _).after_setChannel rfl

theorem channelFree_strokeEnd (h : Pos) (x : Stroke) : channelFree c s (s.strokeEnd c h x) := by
  unfold State.strokeEnd
  dsimp only
  split
  · exact channelFree_setChannel rfl
  · split
    · exact channelFree_hop _ _ _
    · exact channelFree_merge _ _ _

theorem channelFree_strokeEnds (h : Pos) (n : Nat) : channelFree c s (s.strokeEnds c h n) := by
  induction n generalizing s with
  | zero => exact .refl s
  | succ n ih =>
    unfold State.strokeEnds
    split
    · split
      · exact (channelFree_strokeEnd _ _).trans ih
      · exact .refl s
    · exact .refl s

theorem channelFree_mergeGapEnd (h : Pos) : channelFree c s (s.mergeGapEnd c h) := by
  unfold State.mergeGapEnd
  dsimp only
  split
  · split
    · exact channelFree_setChannel rfl
    · exact .refl s
  · exact .refl s

theorem channelFree_syncActions (h : Pos) : channelFree c s (s.syncActions c h) :=
  (channelFree_mergeGapEnd h).trans (channelFree_strokeEnds h _)

theorem channelFree_foilActions (h : Pos) : channelFree c s (s.foilActions c h) := by
  unfold State.foilActions
  dsimp only
  split
  · exact .refl s
  · exact channelFree_tryRampUp h
  · split
    · exact (channelFree_syncActions h).after_setChannel rfl
    · exact .refl s
  · exact channelFree_syncActions h
  · split
    · exact (channelFree_tryRampUp h).after_setChannel rfl
    · exact .refl s

/-! ## Ticks -/

/-- From `s` to `t` the channel had `n` foil ticks, and nothing else moved its generator or its accounts (R13, R123
to R125). -/
structure foilTicked (c : Fin 8) (n : Nat) (s t : State) : Prop where
  gen : t.gen (.foil c) =
    { s.gen (.foil c) with acc := (s.gen (.foil c)).acc + BitVec.ofNat 48 (n * (s.gen (.foil c)).ratio) }
  remaining : (t.channel c).remaining = (s.channel c).remaining - n
  unused : n = 0 → (t.channel c).runUsed = (s.channel c).runUsed
  used : 0 < n → (t.channel c).runUsed = min 4294967295 ((s.channel c).runUsed + n)

theorem foilTicked_zero (hg : t.foilGens = s.foilGens) (ha : (t.channel c).accounts = (s.channel c).accounts) :
    foilTicked c 0 s t := by
  unfold Channel.accounts at ha
  simp only [Prod.mk.injEq] at ha
  obtain ⟨-, -, hr, hu, -⟩ := ha
  exact ⟨by simp [State.gen, hg], by rw [hr, Nat.sub_zero], fun _ => hu, fun h => absurd h (lt_irrefl 0)⟩

theorem channelFree.ticked (h : channelFree c s t) : foilTicked c 0 s t := foilTicked_zero h.foilGens h.accounts

theorem foilTicked.trans {m n : Nat} (h : foilTicked c m s t) (h' : foilTicked c n t u) : foilTicked c (m + n) s u := by
  refine ⟨?_, by rw [h'.remaining, h.remaining, Nat.sub_sub], fun hz => ?_, fun hp => ?_⟩
  · rw [h'.gen, h.gen, Nat.add_mul, BitVec.ofNat_add, BitVec.add_assoc]
  · rw [h'.unused (by omega), h.unused (by omega)]
  · rcases Nat.eq_zero_or_pos n with rfl | hn
    · rw [h'.unused rfl, h.used hp, Nat.add_zero]
    · rcases Nat.eq_zero_or_pos m with rfl | hm
      · rw [h'.used hn, h.unused rfl, Nat.zero_add]
      · rw [h'.used hn, h.used hm]
        omega

theorem foilTicked_foilTick (s : State) (c : Fin 8) : foilTicked c 1 s (s.foilTick c) := by
  refine ⟨?_, ?_, fun h => absurd h one_ne_zero, fun _ => ?_⟩
  · rw [State.foilTick_gen, if_pos rfl, StepGen.deliver_one, Nat.one_mul]
  · rw [State.foilTick_channel, if_pos rfl]
    rfl
  · rw [State.foilTick_channel, if_pos rfl]
    rfl

theorem channelActs_foilTick (s : State) (c : Fin 8) : channelActs c s (s.foilTick c) := by
  refine ⟨fun k hk => by rw [State.foilTick_channel, if_neg hk], fun k hk => ?_, ?_, by simp, by simp⟩
  · have := State.foilTick_gen s c (.foil k)
    rw [if_neg (by simpa using hk)] at this
    exact this
  · rw [State.places, State.foilTick_track, ← State.places]
    cases (s.channel c).chargedRow with
    | none => rfl
    | some n => exact State.mapCharge_places (s := s.deliverTick c) n _

/-- The foil ticks of the next web tick: one where the fraction carries (R111). -/
def Channel.carries (x : Channel) : Nat := if 65536 ≤ x.fraction + x.increment then 1 else 0

theorem State.foilMotion_spec (s : State) (c : Fin 8) :
    channelActs c s (s.foilMotion c) ∧ foilTicked c (s.channel c).carries s (s.foilMotion c) := by
  have hacts (u : State) (x : Channel) : channelActs c u (u.setChannel c x) :=
    ⟨fun k hk => by rw [State.channel_setChannel, if_neg hk], fun _ _ => rfl, rfl, rfl, rfl⟩
  have hticked (u : State) (x : Channel) (hr : x.remaining = (u.channel c).remaining)
      (hu : x.runUsed = (u.channel c).runUsed) : foilTicked c 0 u (u.setChannel c x) := by
    refine ⟨by simp [State.gen], ?_, fun _ => ?_, fun h => absurd h (lt_irrefl 0)⟩
    · rw [State.channel_setChannel, if_pos rfl, hr, Nat.sub_zero]
    · rw [State.channel_setChannel, if_pos rfl, hu]
  unfold State.foilMotion Channel.carries
  dsimp only
  split
  · refine ⟨(channelActs_foilTick s c).trans (hacts _ _), (foilTicked_foilTick s c).trans (n := 0) (hticked _ _ ?_ ?_)⟩
    · rfl
    · rfl
  · exact ⟨hacts _ _, hticked _ _ rfl rfl⟩

/-! ## Web ticks -/

theorem Channel.carries_le (x : Channel) : x.carries ≤ 1 := by
  unfold Channel.carries
  split <;> omega

theorem channelActs_webTick (h : Pos) : channelActs c s (s.webTick c h) :=
  (s.foilMotion_spec c).1.trans (channelFree_foilActions h).tochannelActs

theorem foilTicked_webTick (h : Pos) : foilTicked c (s.channel c).carries s (s.webTick c h) :=
  (s.foilMotion_spec c).2.trans (channelFree_foilActions h).ticked

theorem channelActs_webTicks (n : Nat) (h : Pos) : channelActs c s (s.webTicks c n h) := by
  induction n generalizing s h with
  | zero => exact .refl s
  | succ n ih => exact (channelActs_webTick (h + 1)).trans (ih (h + 1))

/-- At most one foil tick for each web tick (R111). -/
theorem exists_foilTicked_webTicks (n : Nat) (h : Pos) : ∃ k ≤ n, foilTicked c k s (s.webTicks c n h) := by
  induction n generalizing s h with
  | zero => exact ⟨0, le_rfl, (channelFree.refl s).ticked⟩
  | succ n ih =>
    obtain ⟨k, hk, ht⟩ := ih (s := s.webTick c (h + 1)) (h + 1)
    exact ⟨_, by have := (s.channel c).carries_le; omega, (foilTicked_webTick (h + 1)).trans ht⟩

/-- A channel in STANDING with nothing pending, short of a foil tick (R115). -/
def Channel.waits (x : Channel) : Prop :=
  x.state = .standing ∧ x.strokes = [] ∧ x.plan = none ∧ x.fraction < 65536

theorem foilMotion_of_waits (hw : (s.channel c).waits) :
    s.foilMotion c = s.setChannel c (s.channel c) := by
  obtain ⟨hs, -, -, hf⟩ := hw
  unfold State.foilMotion Channel.increment
  simp only [hs, Nat.add_zero, if_neg (not_le.2 hf), Nat.mod_eq_of_lt hf]
  congr 1
  rw [← hs]

theorem webTick_of_waits (hw : (s.channel c).waits) (h : Pos) :
    (s.webTick c h).channel c = s.channel c ∧ (s.channel c).carries = 0 := by
  have hch : (s.foilMotion c).channel c = s.channel c := by
    rw [foilMotion_of_waits hw, State.channel_setChannel, if_pos rfl]
  obtain ⟨hs, hk, hp, hf⟩ := hw
  refine ⟨?_, ?_⟩
  · have hnone : (s.foilMotion c).watched c = none := by
      unfold State.watched
      rw [hch, hp, hk]
      rfl
    unfold State.webTick State.foilActions
    simp only [hch, hs]
    unfold State.tryRampUp
    simp only [hnone, hch, hs]
  · rw [Channel.carries, Channel.increment, hs, if_neg (by simpa using hf)]

/-- A channel that waits with nothing pending has no foil tick (R110, R115). -/
theorem webTicks_of_waits (n : Nat) (hw : (s.channel c).waits) (h : Pos) : foilTicked c 0 s (s.webTicks c n h) := by
  induction n generalizing s h with
  | zero => exact (channelFree.refl s).ticked
  | succ n ih =>
    obtain ⟨hch, hc⟩ := webTick_of_waits hw (h + 1)
    have hfirst := foilTicked_webTick (c := c) (s := s) (h + 1)
    rw [hc] at hfirst
    exact hfirst.trans (ih (by rwa [hch]) (h + 1))

/-- A channel in SYNC in stroke `k`, whose sync end is at `e` (R110, R118). -/
def State.syncsTo (s : State) (c : Fin 8) (k : Stroke) (e : Pos) : Prop :=
  (s.channel c).state = .sync ∧ (s.channel c).current = some k ∧ s.syncEnd c k = some e

theorem State.syncEnd_congr (hp : t.places = s.places) (hc : t.cur = s.cur) (k : Stroke) :
    t.syncEnd c k = s.syncEnd c k := by
  rw [State.syncEnd, State.chanFace_congr hp hc, State.syncEnd]

/-- A web tick short of the stroke's end is a foil tick, and leaves the channel in SYNC in its stroke (R111, R118). -/
theorem webTick_of_syncs {k : Stroke} {e h : Pos} (hs : s.syncsTo c k e) (he : dist e h < 0) :
    (s.webTick c h).syncsTo c k e ∧ (s.channel c).carries = 1 := by
  obtain ⟨hstate, hcur, hend⟩ := hs
  have hacts := channelActs_webTick (s := s) (c := c) h
  have hend' : (s.webTick c h).syncEnd c k = some e := by rw [State.syncEnd_congr hacts.places hacts.cur, hend]
  refine ⟨?_, by rw [Channel.carries, Channel.increment, hstate, if_pos (Nat.le_add_left 65536 _)]⟩
  have hmotion : ((s.foilMotion c).channel c).state = .sync ∧ ((s.foilMotion c).channel c).current = some k := by
    unfold State.foilMotion
    dsimp only
    split
    · rw [State.channel_setChannel, if_pos rfl]
      dsimp only
      rw [State.foilTick_channel, if_pos rfl]
      exact ⟨hstate, hcur⟩
    · rw [State.channel_setChannel, if_pos rfl]
      exact ⟨hstate, hcur⟩
  have hgap : (((s.foilMotion c).mergeGapEnd c h).channel c).state = .sync ∧
      (((s.foilMotion c).mergeGapEnd c h).channel c).current = some k := by
    unfold State.mergeGapEnd
    simp only [hmotion.2]
    split
    · rw [State.channel_setChannel, if_pos rfl]
      exact ⟨hmotion.1, rfl⟩
    · exact hmotion
  have hend'' : ((s.foilMotion c).mergeGapEnd c h).syncEnd c k = some e := by
    have ha := (s.foilMotion_spec c).1.trans (channelFree_mergeGapEnd (s := s.foilMotion c) h).tochannelActs
    rw [State.syncEnd_congr ha.places ha.cur, hend]
  have hstops : s.webTick c h = (s.foilMotion c).mergeGapEnd c h := by
    unfold State.webTick State.foilActions State.syncActions
    simp only [hmotion.1]
    unfold State.strokeEnds
    simp only [hgap.1, hgap.2, hend'', reachedAt, atOrBeyond, not_le.2 he, decide_false, Bool.false_eq_true, if_false]
  rw [hstops]
  exact ⟨hgap.1, hgap.2, hend''⟩

/-- The web ticks short of the stroke's end are a foil tick each (R111). -/
theorem webTicks_of_syncs {k : Stroke} {e : Pos} (n : Nat) {h : Pos} (hs : s.syncsTo c k e)
    (he : ∀ i, 1 ≤ i → i ≤ n → dist e (h + BitVec.ofNat 32 i) < 0) : foilTicked c n s (s.webTicks c n h) := by
  induction n generalizing s h with
  | zero => exact (channelFree.refl s).ticked
  | succ n ih =>
    obtain ⟨hs', hc⟩ := webTick_of_syncs hs (he 1 le_rfl (by omega))
    have hfirst := foilTicked_webTick (c := c) (s := s) (h + 1)
    rw [hc] at hfirst
    have hrest := ih (h := h + 1) hs' fun i hi hin => by
      have := he (i + 1) (by omega) (by omega)
      rwa [show h + 1 + BitVec.ofNat 32 i = h + BitVec.ofNat 32 (i + 1) by
        rw [BitVec.ofNat_add]; bv_omega]
    have := hfirst.trans hrest
    rwa [Nat.add_comm] at this

end

end Sys2Proof.Machine
end

section
/-! The accounts of the channels stand through all that the stations and the mark unit do. -/

namespace Sys2Proof.Machine

/-- The accounts of the eight channels. -/
def State.accounts (s : State) (c : Fin 8) := (s.channel c).accounts

section
variable {s t : State}

theorem State.accounts_of_channels (h : t.channels = s.channels) : t.accounts = s.accounts := by
  unfold State.accounts State.channel
  rw [h]

theorem channelFree.allAccounts {c : Fin 8} (h : channelFree c s t) : t.accounts = s.accounts := by
  funext k
  by_cases hk : k = c
  · rw [hk]
    exact h.accounts
  · rw [State.accounts, h.others k hk, State.accounts]

/-! ## Handover, withdrawal and recheck -/

theorem channelFree_markLate (c : Fin 8) (n : Word) : channelFree c s (s.markLate c n) :=
  ⟨⟨fun _ _ => rfl, fun _ _ => rfl, State.markLate_places c n, rfl, rfl⟩, rfl, rfl⟩

theorem channelFree_foilRecheck (c : Fin 8) : channelFree c s (s.foilRecheck c) := by
  unfold State.foilRecheck
  split
  · exact channelFree_tryRampUp _
  · exact channelFree_syncActions _
  · exact .refl s

/-- The strokes of a row appended to the channel's list as far as it has room (R106, R108). -/
def State.appendStrokes (n : Word) (c : Fin 8) (s : State) : State :=
  let x := s.channel c
  let t := s.setChannel c
    { x with strokes := x.strokes ++ (s.formStrokes c n).take (strokeCapacity - x.strokes.length) }
  if strokeCapacity - x.strokes.length < (s.formStrokes c n).length then t.markLate c n else t

theorem State.handover_eq (n : Word) (c : Fin 8) (s : State) :
    State.handover n c s =
      if (s.channel c).strokes.isEmpty && (s.channel c).plan.isNone then
        (s.appendStrokes n c).tryRampUp c (s.appendStrokes n c).wpu.highWater
      else s.appendStrokes n c := rfl

theorem channelFree_appendStrokes (n : Word) (c : Fin 8) : channelFree c s (s.appendStrokes n c) := by
  unfold State.appendStrokes
  dsimp only
  split
  · exact (channelFree_markLate c n).after_setChannel rfl
  · exact channelFree_setChannel rfl

theorem channelFree_handover (n : Word) (c : Fin 8) : channelFree c s (State.handover n c s) := by
  rw [State.handover_eq]
  split
  · exact (channelFree_appendStrokes n c).trans (channelFree_tryRampUp _)
  · exact channelFree_appendStrokes n c

theorem channelFree_withdraw (n : Word) (c : Fin 8) : channelFree c s (State.withdraw n c s) := by
  unfold State.withdraw
  dsimp only
  split
  · exact (channelFree_tryRampUp _).after_setChannel rfl
  · exact .refl s

@[simp] theorem State.accounts_handover (st : Fin 4) (n : Word) :
    (s.serving st (State.handover n)).accounts = s.accounts :=
  serving_keeps State.accounts st _ (fun c _ => (channelFree_handover n c).allAccounts) s

@[simp] theorem State.accounts_withdraw (st : Fin 4) (n : Word) :
    (s.serving st (State.withdraw n)).accounts = s.accounts :=
  serving_keeps State.accounts st _ (fun c _ => (channelFree_withdraw n c).allAccounts) s

@[simp] theorem State.accounts_foilRecheck (st : Fin 4) : (s.serving st State.foilRecheck).accounts = s.accounts :=
  serving_keeps State.accounts st _ (fun c _ => (channelFree_foilRecheck c).allAccounts) s

/-! ## The stations -/

@[simp] theorem State.accounts_closeTest (st : Fin 4) : (s.closeTest st).accounts = s.accounts :=
  State.accounts_of_channels (by simp)

@[simp] theorem State.accounts_openThrow (st : Fin 4) : (s.openThrow st).accounts = s.accounts := rfl

@[simp] theorem State.accounts_setState (st : Fin 4) (x : StationState) : (s.setState st x).accounts = s.accounts := rfl

@[simp] theorem State.accounts_withdrawRows (st : Fin 4) (l : List Word) : (s.withdrawRows st l).accounts = s.accounts := by
  induction l generalizing s with
  | nil => rfl
  | cons n l ih => exact ih.trans (State.accounts_withdraw st n)

@[simp] theorem State.accounts_leaveFor (st : Fin 4) (x : StationState) : (s.leaveFor st x).accounts = s.accounts := by
  unfold State.leaveFor State.departure
  dsimp only
  split
  · rw [State.accounts_withdrawRows]
    rfl
  · rfl

@[simp] theorem State.accounts_shiftRows (st : Fin 4) (k : Int) (moves : RowCtx → Bool) :
    (s.shiftRows st k moves).accounts = s.accounts := by
  unfold State.shiftRows
  rw [State.accounts_closeTest, State.accounts_foilRecheck]
  exact State.accounts_of_channels (by simp)

@[simp] theorem State.accounts_tickShifts (st : Fin 4) (dir : Int) (waiting : List Word) (n : Nat) :
    (s.tickShifts st dir waiting n).accounts = s.accounts := by
  induction n generalizing s with
  | zero => rfl
  | succ n ih => exact ih.trans (State.accounts_shiftRows st dir _)

@[simp] theorem State.accounts_drift (st : Fin 4) (k : Int) : (s.drift st k).accounts = s.accounts := by
  unfold State.drift
  rw [State.accounts_tickShifts]
  rfl

@[simp] theorem State.accounts_commit (st : Fin 4) (r : RowCtx) : (s.commit st r).accounts = s.accounts := by
  cases he : r.stations.get st with
  | none => rw [State.commit_none s he]
  | some e =>
    rw [State.commit_eq s he]
    dsimp only
    split
    · rw [State.accounts_closeTest, State.accounts_handover]
      rfl
    · split <;> rfl

@[simp] theorem State.accounts_overdueCommit (st : Fin 4) (n : Word) : (s.overdueCommit st n).accounts = s.accounts := by
  unfold State.overdueCommit
  split
  · split
    · rfl
    · exact State.accounts_commit st _
  · rfl

@[simp] theorem State.accounts_zoneStartEvent (st : Fin 4) (n : Word) : (s.zoneStartEvent st n).accounts = s.accounts := by
  rw [State.zoneStartEvent_eq]
  exact State.accounts_overdueCommit st n

@[simp] theorem State.accounts_applyTrim (st : Fin 4) (k : Int) : (s.applyTrim st k).accounts = s.accounts := by
  unfold State.applyTrim
  split
  · rfl
  · dsimp only
    rw [State.accounts_drift, State.shift, State.accounts_shiftRows]
    exact State.accounts_of_channels (by simp)

@[simp] theorem State.accounts_bandCheck (st : Fin 4) (r : RowCtx) (e : Option Int) :
    (s.bandCheck st r e).accounts = s.accounts := by
  unfold State.bandCheck
  split
  · rfl
  · split
    · split
      · split <;> rfl
      · split
        · exact State.accounts_leaveFor st _
        · rfl
      · rfl
    · rfl

@[simp] theorem State.accounts_zoneEndEvent (st : Fin 4) (n : Word) : (s.zoneEndEvent st n).accounts = s.accounts := by
  have hopen (u : State) : (u.openAtEnd st n).accounts = u.accounts := State.accounts_of_channels (by simp)
  have hwrite (u : State) (e k) : (u.writeRegistration st n e k).accounts = u.accounts :=
    State.accounts_of_channels (by simp)
  unfold State.zoneEndEvent
  split
  · rfl
  · split
    · rfl
    · simp only [hopen, State.accounts_bandCheck, State.accounts_applyTrim, hwrite]

@[simp] theorem State.accounts_zoneEvents (st : Fin 4) (n : Nat) : (s.zoneEvents st n).accounts = s.accounts := by
  induction n generalizing s with
  | zero => rfl
  | succ n ih =>
    cases hf : s.track.find? fun r => r.eventDueAt st with
    | none => rw [State.zoneEvents_none hf]
    | some r =>
      rw [State.zoneEvents_some hf, ih, State.zoneEvent]
      split
      · exact State.accounts_zoneEndEvent st _
      · exact State.accounts_zoneStartEvent st _

theorem State.accounts_stationWeb (p : Pos) (delta : Int) (st : Fin 4) :
    (s.stationWeb p delta st).accounts = s.accounts := by
  unfold State.stationWeb
  split
  · dsimp only
    rw [State.accounts_closeTest, State.runZoneEvents, State.accounts_zoneEvents, State.accounts_drift]
    exact State.accounts_of_channels (by simp)
  · rfl

theorem State.accounts_sacrifice (st : Fin 4) (n : Word) : (s.sacrifice st n).accounts = s.accounts := by
  have hlost : ((s.mapEntry st n fun e => { e with outcome := some .sacrificed }).serving st
      (State.withdraw n)).accounts = s.accounts := by
    rw [State.accounts_withdraw]
    exact State.accounts_of_channels (by simp)
  unfold State.sacrifice
  dsimp only
  split
  · split
    · exact hlost
    · rw [State.accounts_openThrow, hlost]
  · rw [State.accounts_openThrow, hlost]

/-- One row of those a SPLICE row fouls: put at risk where its zone has started, sacrificed otherwise (R85). -/
def State.giveUpRow (st : Fin 4) (splice n : Word) (s : State) : State :=
  match s.entry? st n with
  | some e => if e.startTaken then s.addRisk st splice else s.sacrifice st n
  | none => s

theorem State.giveUp_cons (st : Fin 4) (splice n : Word) (l : List Word) (s : State) :
    s.giveUp st splice (n :: l) = (s.giveUpRow st splice n).giveUp st splice l := rfl

theorem State.accounts_giveUp (st : Fin 4) (splice : Word) (l : List Word) :
    (s.giveUp st splice l).accounts = s.accounts := by
  induction l generalizing s with
  | nil => rfl
  | cons n l ih =>
    rw [State.giveUp_cons, ih]
    unfold State.giveUpRow
    split
    · split
      · exact State.accounts_of_channels (by simp)
      · exact State.accounts_sacrifice st n
    · rfl

theorem State.accounts_stationOpen (r : RowCtx) (st : Fin 4) : (s.stationOpen r st).accounts = s.accounts := by
  unfold State.stationOpen State.spliceTest
  split
  · split
    · exact State.accounts_giveUp st _ _
    · rfl
  · rfl

/-! ## Holds, row opens and the mark unit -/

theorem State.accounts_hold (cause : HoldCause) : (s.hold cause).accounts = s.accounts := by
  funext c
  rw [State.accounts, State.hold_channel]
  split
  · rfl
  · rename_i hi
    unfold Channel.hold Channel.cutRampUp
    cases (s.channel c).state
    · rfl
    · rfl
    · dsimp only
      split <;> rfl
    · rfl
    · rfl

theorem State.accounts_openRow (status : MarkStatus) (p : Pos) : (s.openRow status p).accounts = s.accounts := by
  unfold State.openRow
  split
  · unfold State.handHold
    split
    · exact State.accounts_hold _
    · rfl
  · dsimp only
    refine (forStations_keeps State.accounts _ (fun st _ => State.accounts_stationOpen _ st) _).trans ?_
    exact State.accounts_of_channels (by simp [forLanes])

theorem State.accounts_markWeb (p : Pos) : (s.markWeb p).accounts = s.accounts := by
  have hlanes (u : State) : (forLanes (State.closeLane p) u).accounts = u.accounts :=
    State.accounts_of_channels (by simp [forLanes])
  unfold State.markWeb
  rw [hlanes]
  unfold State.closeLeading
  split
  · split
    · rw [State.accounts_openRow, hlanes]
    · exact hlanes s
  · exact hlanes s

theorem State.accounts_reverseCheck : s.reverseCheck.accounts = s.accounts := by
  unfold State.reverseCheck
  split
  · exact State.accounts_hold _
  · rfl

/-- At a web position change the accounts are what the foil ticks over the high-water advance make them (R110). -/
theorem State.webChange_accounts (s : State) (p : Pos) :
    let u := s.withWpu s.wpu.advanceHighWater
    let v := forChannels (State.foilAdvance s.wpu.highWater (dist s.wpu.highWater u.wpu.highWater).toNat) u
    (s.webChange p).accounts = v.accounts ∧ (s.webChange p).foilGens = v.foilGens ∧ (s.webChange p).wpu = u.wpu := by
  refine ⟨?_, ?_, s.webChange_wpu p⟩
  · unfold State.webChange
    dsimp only
    rw [State.accounts_reverseCheck, State.accounts_markWeb]
    exact forStations_keeps State.accounts _ (fun st _ => State.accounts_stationWeb p _ st) _
  · unfold State.webChange
    simp [forStations]

end

end Sys2Proof.Machine
end

section
/-! The foil ticks of a count, and the statement about the foil tick. -/

namespace Sys2Proof.Machine

/-! ## Distances -/

/-- A distance grows by what the position goes on, where it does not wrap. -/
theorem dist_add (e h : Pos) (i : Nat) (hlo : -(2 ^ 31) ≤ dist e h + i) (hhi : dist e h + i < 2 ^ 31) :
    dist e (h + BitVec.ofNat 32 i) = dist e h + i := by
  have hsub : h + BitVec.ofNat 32 i - e = (h - e) + BitVec.ofNat 32 i := by bv_omega
  unfold dist at *
  rw [hsub, BitVec.toInt_add, BitVec.toInt_ofNat', Int.add_bmod_bmod]
  exact Int.bmod_eq_of_le (by omega) (by omega)

theorem eq_add_of_dist {h h' : Pos} (hd : 0 ≤ dist h h') : h' = h + BitVec.ofNat 32 (dist h h').toNat := by
  unfold dist at *
  rw [BitVec.toInt_eq_toNat_cond] at *
  split at hd
  · rename_i hs
    rw [if_pos hs, Int.toNat_natCast, BitVec.ofNat_toNat]
    bv_omega
  · omega

/-- A position short of `e` at both ends of an advance is short of it all the way. -/
theorem dist_neg_of_advance {e h h' : Pos} (h1 : dist e h < 0) (h2 : dist e h' < 0) (i : Nat)
    (hi : 1 ≤ i) (hin : i ≤ (dist h h').toNat) : dist e (h + BitVec.ofNat 32 i) < 0 := by
  have hlo : -(2 ^ 31) ≤ dist e h := BitVec.le_toInt (h - e)
  have hn : dist h h' < 2 ^ 31 := BitVec.toInt_lt (x := h' - h)
  have hend := dist_add e h (dist h h').toNat (by omega) (by omega)
  rw [← eq_add_of_dist (by omega)] at hend
  rw [dist_add e h i (by omega) (by omega)]
  omega

/-! ## The channels over an advance -/

/-- From `s` to `t` channel `c` had its foil ticks for an advance by `n` beyond `h` (R110, R111). -/
def foilAdvanced (c : Fin 8) (h : Pos) (n : Nat) (s t : State) : Prop :=
  ∃ ticks ≤ n, foilTicked c ticks s t ∧ ((s.channel c).state = .idle ∨ (s.channel c).waits → ticks = 0) ∧
    ∀ k e, s.syncsTo c k e → (∀ i, 1 ≤ i → i ≤ n → dist e (h + BitVec.ofNat 32 i) < 0) → ticks = n

section
variable {c : Fin 8} {s t u : State}

theorem foilAdvanced_foilAdvance (c : Fin 8) (h : Pos) (n : Nat) (s : State) :
    foilAdvanced c h n s (s.foilAdvance h n c) := by
  unfold State.foilAdvance
  split
  · rename_i hi
    exact ⟨0, Nat.zero_le n, (channelFree.refl s).ticked, fun _ => rfl, fun k e hs => by simp [hs.1] at hi⟩
  · rename_i hi
    by_cases hw : (s.channel c).waits
    · exact ⟨0, Nat.zero_le n, webTicks_of_waits n hw h, fun _ => rfl,
        fun k e hs => by have := hw.1; simp [hs.1] at this⟩
    by_cases hs : ∃ k e, s.syncsTo c k e ∧ ∀ i, 1 ≤ i → i ≤ n → dist e (h + BitVec.ofNat 32 i) < 0
    · obtain ⟨k, e, hsync, he⟩ := hs
      exact ⟨n, le_rfl, webTicks_of_syncs n hsync he, fun hz => absurd hz (by simp [hi, hw]), fun _ _ _ _ => rfl⟩
    · obtain ⟨ticks, hle, ht⟩ := exists_foilTicked_webTicks (c := c) (s := s) n h
      exact ⟨ticks, hle, ht, fun hz => absurd hz (by simp [hi, hw]), fun k e hk he => absurd ⟨k, e, hk, he⟩ hs⟩

theorem channelActs_foilAdvance (c : Fin 8) (h : Pos) (n : Nat) (s : State) :
    channelActs c s (s.foilAdvance h n c) := by
  unfold State.foilAdvance
  split
  · exact .refl s
  · exact channelActs_webTicks n h

theorem foilTicked.congr {n : Nat} (h : foilTicked c n s t) (hs : s.channel c = u.channel c)
    (hg : s.foilGens.get c = u.foilGens.get c) : foilTicked c n u t := by
  have hgen : s.gen (.foil c) = u.gen (.foil c) := hg
  exact ⟨by rw [h.gen, hgen], by rw [h.remaining, hs], fun hz => by rw [h.unused hz, hs], fun hp => by rw [h.used hp, hs]⟩

theorem foilTicked.of_same {n : Nat} (h : foilTicked c n s t) (ht : u.accounts c = t.accounts c)
    (hg : u.foilGens.get c = t.foilGens.get c) : foilTicked c n s u := by
  have hgen : u.gen (.foil c) = t.gen (.foil c) := hg
  unfold State.accounts Channel.accounts at ht
  simp only [Prod.mk.injEq] at ht
  obtain ⟨-, -, hr, hu, -⟩ := ht
  exact ⟨by rw [hgen, h.gen], by rw [hr, h.remaining], fun hz => by rw [hu, h.unused hz], fun hp => by rw [hu, h.used hp]⟩

/-- Only the channel, its generator and the faces count of where an advance starts. -/
theorem foilAdvanced.of_start {h : Pos} {n : Nat} (ha : foilAdvanced c h n u t) (hc : u.channel c = s.channel c)
    (hg : u.foilGens.get c = s.foilGens.get c) (hp : u.places = s.places) (hcur : u.cur = s.cur) :
    foilAdvanced c h n s t := by
  obtain ⟨ticks, hle, ht, hz, hs⟩ := ha
  refine ⟨ticks, hle, ht.congr hc hg, by rwa [hc] at hz, fun k e hk => hs k e ?_⟩
  obtain ⟨h1, h2, h3⟩ := hk
  exact ⟨by rw [hc, h1], by rw [hc, h2], by rw [State.syncEnd_congr hp hcur, h3]⟩

/-- Each channel has its own foil ticks over an advance, whatever the others do. -/
theorem foilAdvanced_forChannels (c : Fin 8) (h : Pos) (n : Nat) (s : State) :
    foilAdvanced c h n s (forChannels (State.foilAdvance h n) s) := by
  refine forChannels_at c
    (P := fun u => u.channel c = s.channel c ∧ u.foilGens.get c = s.foilGens.get c ∧ u.places = s.places ∧ u.cur = s.cur)
    (Q := foilAdvanced c h n s) (fun k u hk ⟨hc, hg, hp, hcur⟩ => ?_) (fun u ⟨hc, hg, hp, hcur⟩ => ?_)
    (fun k u hk hq => ?_) ⟨rfl, rfl, rfl, rfl⟩
  · have ha := channelActs_foilAdvance k h n u
    exact ⟨(ha.others c hk.symm).trans hc, (ha.foils c hk.symm).trans hg, ha.places.trans hp, ha.cur.trans hcur⟩
  · exact (foilAdvanced_foilAdvance c h n u).of_start hc hg hp hcur
  · have ha := channelActs_foilAdvance k h n u
    obtain ⟨ticks, hle, ht, hrest⟩ := hq
    refine ⟨ticks, hle, ht.of_same ?_ (ha.foils c hk.symm), hrest⟩
    rw [State.accounts, ha.others c hk.symm, State.accounts]

/-! ## The count -/

/-- What an encoder event does to the state: nothing, the pair alone, or a count. -/
theorem exec_encoderCount_cases {a b : Bool} (he : exec (.encoderCount a b) s = .next t) :
    t = s ∨ t = s.setPair a b ∨ ∃ d, t = (s.setPair a b).count d := by
  simp only [exec, execEncoderCount] at he
  split at he
  · exact .inr (.inl (Host.Outcome.next.inj he).symm)
  · split at he
    · exact .inr (.inr ⟨_, (Host.Outcome.next.inj he).symm⟩)
    · exact .inr (.inr ⟨_, (Host.Outcome.next.inj he).symm⟩)
    · exact .inl (Host.Outcome.next.inj he).symm

theorem dist_self (a : Pos) : dist a a = 0 := by
  unfold dist
  rw [BitVec.sub_self]
  rfl

theorem foilAdvanced_self (hc : t.channels = s.channels) (hg : t.foilGens = s.foilGens) (h : Pos) :
    foilAdvanced c h 0 s t :=
  ⟨0, le_rfl, foilTicked_zero hg (by rw [State.channel, hc, State.channel]), fun _ => rfl, fun _ _ _ _ => rfl⟩

/-- A web position change gives each channel its foil ticks over the advance of the high-water position. -/
theorem foilAdvanced_webChange (c : Fin 8) (s : State) (p : Pos) :
    foilAdvanced c s.wpu.highWater (dist s.wpu.highWater (s.webChange p).wpu.highWater).toNat s (s.webChange p) := by
  obtain ⟨hacc, hgens, hwpu⟩ := s.webChange_accounts p
  rw [hwpu]
  obtain ⟨ticks, hle, ht, hrest⟩ := foilAdvanced_forChannels c s.wpu.highWater
    (dist s.wpu.highWater (s.withWpu s.wpu.advanceHighWater).wpu.highWater).toNat (s.withWpu s.wpu.advanceHighWater)
  exact ⟨ticks, hle, (ht.congr (u := s) rfl rfl).of_same (congrFun hacc c) (by rw [hgens]), hrest⟩

theorem foilAdvanced_count (c : Fin 8) (s : State) (d : Direction) :
    foilAdvanced c s.wpu.highWater (dist s.wpu.highWater (s.count d).wpu.highWater).toNat s (s.count d) := by
  have hw : (s.wpu.count d).highWater = s.wpu.highWater := by rw [Wpu.count_eq]
  unfold State.count
  dsimp only
  split
  · change foilAdvanced c _ (dist _ (s.wpu.count d).highWater).toNat s _
    rw [hw, dist_self]
    exact foilAdvanced_self (s := s) (t := s.withWpu (s.wpu.count d)) rfl rfl _
  · have h := foilAdvanced_webChange c (s.withWpu (s.wpu.count d)) s.web
    change foilAdvanced c (s.wpu.count d).highWater (dist (s.wpu.count d).highWater _).toNat _ _ at h
    rw [hw] at h
    exact h.of_start rfl rfl rfl rfl

theorem foilAdvanced_encoderCount {a b : Bool} (c : Fin 8) (he : exec (.encoderCount a b) s = .next t) :
    foilAdvanced c s.wpu.highWater (dist s.wpu.highWater t.wpu.highWater).toNat s t := by
  rcases exec_encoderCount_cases he with rfl | rfl | ⟨d, rfl⟩
  · rw [dist_self]
    exact foilAdvanced_self (s := t) (t := t) rfl rfl _
  · have hw : (s.setPair a b).wpu.highWater = s.wpu.highWater := rfl
    rw [hw, dist_self]
    exact foilAdvanced_self (s := s) (t := s.setPair a b) rfl rfl _
  · exact (foilAdvanced_count c (s.setPair a b) d).of_start rfl rfl rfl rfl

end

/-- Settles O45: the foil tick stage by stage, and a count by the web ticks of each channel. -/
theorem foilTickIsAccountedFor : Obligations.FoilTickIsAccountedFor := by
  refine ⟨fun s c => ?_, fun s t a b c he => ?_⟩
  · have hch : (s.foilTick c).channel c = (s.channel c).charge := by rw [State.foilTick_channel, if_pos rfl]
    obtain ⟨hwpu, hst, hmem, hout⟩ := s.foilTick_keeps c
    have hlow := (s.channel c).crossesLow_iff
    have hout' := (s.channel c).runsOut_iff
    have hcharges := (s.deliverTick c).chargeTo_charges c (s.channel c).chargedRow
    have htrack : (s.deliverTick c).track = s.track := rfl
    rw [← State.foilTick_track, htrack] at hcharges
    dsimp only
    rw [hch, ← hlow, ← hout']
    refine ⟨?_, rfl, rfl, ?_, ?_, fun hl => ?_, fun ho => ?_, fun ho => ?_, fun hl ho => ?_, rfl, rfl, rfl, rfl,
      fun k hk => ?_, fun k hk => ?_, ⟨fun k hk => ?_, fun hk => ?_⟩, hwpu, hst, hmem, hout⟩
    · rw [State.foilTick_gen, if_pos rfl, StepGen.deliver_one]
    · simp [Channel.charge]
    · simp [Channel.charge]
    · rw [State.foilTick_eq]
      exact State.noteFoil_low _ _ hl
    · rw [State.foilTick_eq]
      obtain ⟨hattn, hjobs⟩ := State.noteFoil_out ((s.deliverTick c).chargeTo c (s.channel c).chargedRow) _ ho
      refine ⟨hattn, ?_, ?_⟩
      · rw [hjobs, JobControl.handStop_hasStop]
        exact .inl rfl
      · rw [hjobs]
        simp [JobControl.handStop, JobControl.selects]
    · rw [State.foilTick_eq, State.noteFoil_jobs _ _ (by simpa using ho)]
      simp [State.deliverTick]
    · rw [State.foilTick_eq, State.noteFoil_attn _ _ (by simpa using hl) (by simpa using ho)]
      simp [State.deliverTick]
    · rw [State.foilTick_channel, if_neg hk]
    · rw [State.foilTick_gen, if_neg hk]
    · rw [hcharges, Channel.chargedRow_of_charges hk]
      simp only [Option.some.injEq, eq_comm]
    · rw [hcharges, Channel.chargedRow_none hk]
      simp
  · obtain ⟨ticks, hle, ht, hzero, hsync⟩ := foilAdvanced_encoderCount c he
    refine ⟨ticks, hle, ht.gen, ht.remaining, ht.unused, ht.used, hzero, fun k f hs hk hf _ h1 h2 => ?_⟩
    have hend : s.syncEnd c k = some (moved f k.endOff) := by rw [State.syncEnd, hf]; rfl
    exact hsync k _ ⟨hs, hk, hend⟩ fun i hi hin => dist_neg_of_advance h1 h2 i hi hin

end Sys2Proof.Machine
end

section
/-! The windows of the mark unit at a web position change, and a row open. -/

namespace Sys2Proof.Machine

/-! ## Lanes -/

/-- The web position change from `p` to the web's position closes the pending window `k` (R30). -/
def State.windowCloses (s : State) (p : Pos) (k : LaneWindow) : Bool :=
  s.moving && reaches p (s.laneEnd k) s.web (s.laneEnd k)

/-- Every row numbered `n` on the track has the result `e` at lane `l`. -/
def State.lanesRead (s : State) (l : Fin 4) (n : Word) (e : LaneEntry) : Prop :=
  ∀ r ∈ s.track, r.row = n → r.lanes.get l = e

/-- A window pending at lane `l` is of row `n`. -/
def State.windowOf (s : State) (l : Fin 4) (n : Word) : Prop := ∀ k, s.mark.windows.get l = some k → k.row = n

section
variable {s : State} (p : Pos) (l m : Fin 4)

theorem State.windowCloses_congr {t : State} (hj : t.jobs.run = s.jobs.run) (hw : t.web = s.web) (hc : t.cur = s.cur)
    (k : LaneWindow) : t.windowCloses p k = s.windowCloses p k := by
  rw [State.windowCloses, State.moving, State.laneEnd, hj, hw, State.job_congr hc, State.windowCloses, State.moving,
    State.laneEnd]

@[simp] theorem State.closeLane_windowCloses (s : State) (k : LaneWindow) :
    (s.closeLane p m).windowCloses p k = s.windowCloses p k :=
  State.windowCloses_congr p (by simp) (by simp) (by simp) k

theorem State.closeLane_eq (s : State) :
    s.closeLane p l = match s.mark.windows.get l with
      | some k => if s.windowCloses p k then s.laneMissing l k else s
      | none => s := rfl

theorem State.closeLane_windows (s : State) :
    (s.closeLane p l).mark.windows.get m =
      if m = l then (s.mark.windows.get l).filter fun k => !s.windowCloses p k else s.mark.windows.get m := by
  rw [State.closeLane_eq]
  cases hk : s.mark.windows.get l with
  | none =>
    by_cases h : m = l
    · simp [h, hk]
    · simp [h]
  | some k =>
    by_cases hc : s.windowCloses p k = true
    · simp [hc, State.laneMissing, State.setWindow, Option.filter_some]
    · by_cases h : m = l
      · simp [h, hk, hc, Option.filter_some]
      · simp [h, hc]

/-- Closing a lane's window leaves the rest of the mark unit. -/
theorem State.closeLane_mark (s : State) :
    (s.closeLane p l).mark = { s.mark with windows := (s.closeLane p l).mark.windows } := by
  rw [State.closeLane_eq]
  split
  · split
    · simp [State.laneMissing, State.setWindow]
    · rfl
  · rfl

theorem forLanes_closeLane_mark (s : State) :
    (forLanes (State.closeLane p) s).mark = { s.mark with windows := (forLanes (State.closeLane p) s).mark.windows } :=
  forLanes_induct (P := fun u => u.mark = { s.mark with windows := u.mark.windows })
    (fun l u hu => by rw [State.closeLane_mark, hu]) rfl

@[simp] theorem forLanes_closeLane_frame (s : State) :
    (forLanes (State.closeLane p) s).jobs = s.jobs ∧ (forLanes (State.closeLane p) s).attn = s.attn ∧
      (forLanes (State.closeLane p) s).mem = s.mem ∧ (forLanes (State.closeLane p) s).records = s.records ∧
      (forLanes (State.closeLane p) s).rows = s.rows ∧ (forLanes (State.closeLane p) s).web = s.web ∧
      (forLanes (State.closeLane p) s).wpu = s.wpu ∧ (forLanes (State.closeLane p) s).cur = s.cur := by
  simp [forLanes]

theorem forLanes_closeLane_windows (s : State) :
    (forLanes (State.closeLane p) s).mark.windows.get l =
      (s.mark.windows.get l).filter fun k => !s.windowCloses p k := by
  unfold forLanes
  simp only [State.closeLane_windows, State.closeLane_windowCloses]
  fin_cases l <;> simp

/-! ## Lane results -/

theorem State.lanesRead_setLane (s : State) (n : Word) (e : LaneEntry) : (s.setLane l n e).lanesRead l n e := by
  intro r hr hn
  obtain ⟨q, -, rfl⟩ := List.mem_map.1 hr
  by_cases h : q.row = n
  · simp [h]
  · rw [if_neg h] at hn
    exact absurd hn h

theorem State.lanesRead.setLane {n : Word} {e : LaneEntry} {l : Fin 4} (h : s.lanesRead l n e) {m : Fin 4} {n' : Word}
    (hne : m ≠ l ∨ n' ≠ n) (e' : LaneEntry) : (s.setLane m n' e').lanesRead l n e := by
  intro r hr hn
  obtain ⟨q, hq, rfl⟩ := List.mem_map.1 hr
  by_cases hrow : q.row = n'
  · simp only [hrow, if_true] at hn ⊢
    rcases hne with hm | hm
    · simp only [Four.get_set, if_neg hm.symm]
      exact h q hq (hrow.trans hn)
    · exact absurd hn hm
  · simp only [if_neg hrow] at hn ⊢
    exact h q hq hn

theorem State.lanesRead.of_track {t : State} {n : Word} {e : LaneEntry} {l : Fin 4} (h : s.lanesRead l n e)
    (ht : t.track = s.track) : t.lanesRead l n e := by
  rwa [State.lanesRead, ht]

/-- Closing another lane's window, or one of another row, leaves the results of a row at a lane. -/
theorem State.lanesRead.closeLane {n : Word} {e : LaneEntry} {l : Fin 4} (h : s.lanesRead l n e)
    (hne : m ≠ l ∨ ∀ k, s.mark.windows.get m = some k → k.row ≠ n) : (s.closeLane p m).lanesRead l n e := by
  rw [State.closeLane_eq]
  split
  · rename_i k hk
    split
    · exact (h.setLane (hne.imp id fun hk' => hk' k hk) _).of_track rfl
    · exact h
  · exact h

/-- The rows of a window that closes have the result MISSING (R30). -/
theorem State.lanesRead_closeLane {k : LaneWindow} (hk : s.mark.windows.get l = some k) (hc : s.windowCloses p k = true) :
    (s.closeLane p l).lanesRead l k.row .missing := by
  rw [State.closeLane_eq, hk]
  simp only [hc, if_true]
  exact (State.lanesRead_setLane l s k.row .missing).of_track rfl

theorem forLanes_at {f : Fin 4 → State → State} (l : Fin 4) {P Q : State → Prop}
    (hP : ∀ k s, k ≠ l → P s → P (f k s)) (hl : ∀ s, P s → Q (f l s)) (hQ : ∀ k s, k ≠ l → Q s → Q (f k s))
    {s : State} (h : P s) : Q (forLanes f s) :=
  forStations_at (f := f) l hP hl hQ h

/-- The rows of a window that closes at a count have the result MISSING, and the window is gone (R30). -/
theorem forLanes_closeLane_closed {k : LaneWindow} (hk : s.mark.windows.get l = some k) (hc : s.windowCloses p k = true) :
    (forLanes (State.closeLane p) s).mark.windows.get l = none ∧
      (forLanes (State.closeLane p) s).lanesRead l k.row .missing := by
  refine ⟨by rw [forLanes_closeLane_windows, hk]; simp [hc], ?_⟩
  refine forLanes_at (f := State.closeLane p) l (P := fun u => u.mark.windows.get l = some k ∧ u.windowCloses p k = true)
    (Q := fun u => u.lanesRead l k.row .missing)
    (fun m u hm ⟨hu, hcu⟩ => ⟨?_, ?_⟩) (fun u ⟨hu, hcu⟩ => State.lanesRead_closeLane p l hu hcu)
    (fun m u hm hu => hu.closeLane p m (.inl hm)) ⟨hk, hc⟩
  · rw [State.closeLane_windows, if_neg hm.symm, hu]
  · rwa [State.closeLane_windowCloses]

theorem State.windowOf.closeLanes {n : Word} {l : Fin 4} (h : s.windowOf l n) :
    (forLanes (State.closeLane p) s).windowOf l n := fun k hk => by
  rw [forLanes_closeLane_windows] at hk
  exact h k (Option.filter_eq_some_iff.1 hk).1

theorem State.lanesRead.closeLanes {n n' : Word} {e : LaneEntry} {l : Fin 4} (h : s.lanesRead l n e)
    (hw : s.windowOf l n') (hne : n' ≠ n) : (forLanes (State.closeLane p) s).lanesRead l n e := by
  refine (forLanes_induct (P := fun u => u.lanesRead l n e ∧ u.windowOf l n') (fun m u ⟨hu, hwu⟩ => ⟨?_, ?_⟩) ⟨h, hw⟩).1
  · refine hu.closeLane p m ?_
    by_cases hm : m = l
    · exact .inr fun k hk => by rw [hwu k (hm ▸ hk)]; exact hne
    · exact .inl hm
  · intro k hk
    rw [State.closeLane_windows] at hk
    split at hk
    · rename_i hm
      exact hwu k (hm ▸ (Option.filter_eq_some_iff.1 hk).1)
    · exact hwu k hk

end

/-! ## A row open and the lanes of the other rows -/

/-- The rows with their lanes' results. -/
def State.laned (s : State) : List (Word × Four LaneEntry) := s.track.map fun r => (r.row, r.lanes)

section
variable {s t : State}

theorem State.lanesRead.congr {l : Fin 4} {n : Word} {e : LaneEntry} (h : s.lanesRead l n e) (ht : t.laned = s.laned) :
    t.lanesRead l n e := by
  intro r hr hn
  have hmem : (r.row, r.lanes) ∈ s.laned := ht ▸ List.mem_map_of_mem hr
  obtain ⟨q, hq, hqr⟩ := List.mem_map.1 hmem
  obtain ⟨hrow, hlanes⟩ := Prod.mk.inj hqr
  rw [← hlanes]
  exact h q hq (hrow.trans hn)

theorem State.laned_of_track (h : t.track = s.track) : t.laned = s.laned := by rw [State.laned, h, State.laned]

theorem State.laned_mapRow (n : Word) {f : RowCtx → RowCtx} (hr : ∀ r, (f r).row = r.row) (hl : ∀ r, (f r).lanes = r.lanes) :
    (s.mapRow n f).laned = s.laned := by
  have ht : (s.mapRow n f).track = s.track.map fun r => if r.row = n then f r else r := rfl
  rw [State.laned, ht, List.map_map, State.laned]
  refine List.map_congr_left fun r _ => ?_
  simp only [Function.comp_apply]
  split
  · rw [hr, hl]
  · rfl

@[simp] theorem State.laned_mapEntry (st : Fin 4) (n : Word) (f : StationEntry → StationEntry) :
    (s.mapEntry st n f).laned = s.laned :=
  State.laned_mapRow n (fun _ => rfl) fun _ => rfl

@[simp] theorem State.laned_markLate (c : Fin 8) (n : Word) : (s.markLate c n).laned = s.laned :=
  State.laned_mapRow n (fun _ => rfl) fun _ => rfl

@[simp] theorem State.laned_setChannel (c : Fin 8) (x : Channel) : (s.setChannel c x).laned = s.laned := rfl

@[simp] theorem State.laned_setStation (st : Fin 4) (x : Station) : (s.setStation st x).laned = s.laned := rfl

@[simp] theorem State.laned_openThrow (st : Fin 4) : (s.openThrow st).laned = s.laned := rfl

@[simp] theorem State.laned_raiseStop (a : AttnCause) (c : StopCause) : (s.raiseStop a c).laned = s.laned :=
  State.laned_of_track (by simp)

@[simp] theorem State.laned_tryRampUp (c : Fin 8) (h : Pos) : (s.tryRampUp c h).laned = s.laned := by
  unfold State.tryRampUp
  split
  · split
    · dsimp only
      split_ifs <;> simp
    · rfl
  · rfl

@[simp] theorem State.laned_withdraw (n : Word) (c : Fin 8) : (State.withdraw n c s).laned = s.laned := by
  unfold State.withdraw
  dsimp only
  split_ifs <;> simp

@[simp] theorem State.laned_serving_withdraw (st : Fin 4) (n : Word) :
    (s.serving st (State.withdraw n)).laned = s.laned := by
  refine forChannels_induct (P := fun u => u.laned = s.laned) (fun c u hu => ?_) rfl
  split
  · rw [State.laned_withdraw, hu]
  · exact hu

@[simp] theorem State.laned_sacrifice (st : Fin 4) (n : Word) : (s.sacrifice st n).laned = s.laned := by
  unfold State.sacrifice
  dsimp only
  split
  · split <;> simp
  · simp

@[simp] theorem State.laned_addRisk (st : Fin 4) (n : Word) : (s.addRisk st n).laned = s.laned := by
  unfold State.addRisk
  split <;> simp

@[simp] theorem State.laned_giveUp (st : Fin 4) (splice : Word) (l : List Word) :
    (s.giveUp st splice l).laned = s.laned := by
  induction l generalizing s with
  | nil => rfl
  | cons n l ih =>
    rw [State.giveUp_cons, ih]
    unfold State.giveUpRow
    split
    · split <;> simp
    · rfl

theorem State.laned_stationOpen (r : RowCtx) (st : Fin 4) : (s.stationOpen r st).laned = s.laned := by
  have hplace : (s.placeRow st r).laned = s.laned := State.laned_mapRow r.row (fun _ => rfl) fun _ => rfl
  unfold State.stationOpen State.spliceTest
  split
  · split
    · rw [State.laned_giveUp, hplace]
    · exact hplace
  · rfl

end

end Sys2Proof.Machine
end

section
/-! A row open with room on the track, and the statement about the windows that close. -/

namespace Sys2Proof.Machine

section
variable (s : State) (status : MarkStatus) (lead : Pos)

/-! ## A row open -/

/-- A row open before the stations take the row (R28). -/
def State.rowBegun (status : MarkStatus) (lead : Pos) (s : State) : State :=
  let r := s.newRow status lead
  let s := forLanes (State.openLane r.row lead) (s.appendRow r)
  ((s.withMark { s.mark with expected := some (moved lead s.jobPitch) }).noteStatus status).noteFirst status

theorem State.openRow_of_room (h : s.track.length < 32) :
    s.openRow status lead = forStations (State.stationOpen (s.newRow status lead)) (s.rowBegun status lead) := by
  unfold State.openRow
  rw [if_neg (by unfold trackCapacity; omega)]
  rfl

theorem State.openRow_of_full (h : 32 ≤ s.track.length) : s.openRow status lead = s.handHold .trackFull := by
  unfold State.openRow
  rw [if_pos (by unfold trackCapacity; omega)]

theorem State.appendRow_mark (r : RowCtx) :
    (s.appendRow r).mark = { s.mark with lastOpened := r.row, nextRow := rowSucc r.row } := by
  unfold State.appendRow
  dsimp only
  split <;> simp

theorem State.appendRow_track (r : RowCtx) : (s.appendRow r).track = s.track ++ [r] := by
  unfold State.appendRow
  dsimp only
  split <;> simp

theorem State.appendRow_mem (r : RowCtx) : (s.appendRow r).mem = (s.writeWord 0x14 r.row).mem := by
  unfold State.appendRow
  dsimp only
  split
  · unfold State.writeWord State.writeMem
    simp
  · rfl

/-- A lane's part in a row open leaves all of the mark unit but its windows and held edges. -/
theorem State.openLane_mark (n : Word) (l : Fin 4) :
    (s.openLane n lead l).mark =
      { s.mark with windows := (s.openLane n lead l).mark.windows, held := (s.openLane n lead l).mark.held } := by
  unfold State.openLane State.laneFound State.laneMissing
  cases s.mark.held.get l <;> dsimp only <;> split_ifs <;> simp [State.setWindow, State.setHeld]

theorem openLanes_mark (n : Word) :
    (forLanes (State.openLane n lead) s).mark =
      { s.mark with windows := (forLanes (State.openLane n lead) s).mark.windows
                    held := (forLanes (State.openLane n lead) s).mark.held } :=
  forLanes_induct (P := fun u => u.mark = { s.mark with windows := u.mark.windows, held := u.mark.held })
    (fun l u hu => by rw [State.openLane_mark, hu]) rfl

theorem State.noteStatus_mark :
    (s.noteStatus status).mark = { s.mark with missing := (s.noteStatus status).mark.missing
                                               search := (s.noteStatus status).mark.search } := by
  cases status with
  | first => rfl
  | found => rfl
  | recaptured => simp [State.noteStatus]
  | missing =>
    unfold State.noteStatus
    dsimp only
    split <;> simp

/-- The missing count, the search flag and REG_LOST of a row that opens MISSING (R23, R24). -/
theorem State.noteStatus_missing :
    (s.noteStatus .missing).mark.missing = min 255 (s.mark.missing + 1) ∧
      ((s.noteStatus .missing).mark.search = true ↔
        s.mark.search = true ∨ min 255 (s.mark.missing + 1) = s.job.missingLimit) ∧
      ((s.noteStatus .missing).mark.search = true → s.mark.search = false →
        (s.noteStatus .missing).attn.has .regLost = true ∧ (s.noteStatus .missing).jobs.hasStop .regLost = true) := by
  unfold State.noteStatus satSucc
  dsimp only
  have hjob : (s.withMark { s.mark with missing := min 255 (s.mark.missing + 1) }).job = s.job := State.job_congr (by simp)
  rw [hjob]
  by_cases h : (!s.mark.search && min 255 (s.mark.missing + 1) == s.job.missingLimit) = true
  · obtain ⟨hs, hk⟩ := Bool.and_eq_true_iff.1 h
    have hs' : s.mark.search = false := by simpa using hs
    have hk' : min 255 (s.mark.missing + 1) = s.job.missingLimit := by simpa using hk
    rw [if_pos (by simpa using h)]
    refine ⟨by simp, by simp [hk'], fun _ _ => ⟨(Attention.raise_has _ _ _).2 (.inl rfl), ?_⟩⟩
    exact (JobControl.handStop_hasStop _ _ _).2 (.inl rfl)
  · rw [if_neg (by simpa using h)]
    have hor : s.mark.search = true ∨ min 255 (s.mark.missing + 1) = s.job.missingLimit ↔ s.mark.search = true := by
      simp only [Bool.and_eq_true, Bool.not_eq_true', beq_iff_eq, not_and] at h
      refine ⟨fun ho => ho.elim id fun hk => ?_, .inl⟩
      by_contra hs
      exact h (by simpa using hs) hk
    exact ⟨by simp, by simpa using hor.symm, fun ht hf => absurd (ht.symm.trans hf) (by simp)⟩

theorem State.rowBegun_frame :
    (s.rowBegun status lead).rows = s.rows ++ [(s.newRow status lead).fixed] ∧
      (s.rowBegun status lead).mem = (s.writeWord 0x14 s.mark.nextRow).mem ∧
      (s.rowBegun status lead).cur = s.cur ∧ (s.rowBegun status lead).wpu = s.wpu := by
  have hrows : (s.appendRow (s.newRow status lead)).rows = s.rows ++ [(s.newRow status lead).fixed] := by
    rw [State.rows, State.appendRow_track, List.map_append]
    rfl
  have hmem := State.appendRow_mem s (s.newRow status lead)
  unfold State.rowBegun
  simp only [forLanes, State.noteFirst_rows, State.noteStatus_rows, State.with_rows, State.openLane_rows, hrows,
    State.noteFirst_frame, State.noteStatus_frame, State.withMark_mem, State.openLane_frame, hmem, State.withMark_wpu,
    State.appendRow_frame, State.with_cur, true_and, and_true]
  rfl

/-- The mark unit as a row open with room leaves it (R27, R28). -/
theorem State.openRow_mark (h : s.track.length < 32) :
    (s.openRow status lead).mark.lastOpened = s.mark.nextRow ∧
      (s.openRow status lead).mark.nextRow = rowSucc s.mark.nextRow ∧
      (s.openRow status lead).mark.expected = some (moved lead s.jobPitch) := by
  have hpitch : (forLanes (State.openLane (s.newRow status lead).row lead)
      (s.appendRow (s.newRow status lead))).jobPitch = s.jobPitch := by
    have hcur : (forLanes (State.openLane (s.newRow status lead).row lead)
      (s.appendRow (s.newRow status lead))).cur = s.cur := by simp [forLanes]
    rw [State.jobPitch, hcur, State.jobPitch]
  have hmark : (s.openRow status lead).mark = (s.rowBegun status lead).mark := by
    rw [State.openRow_of_room s status lead h]
    simp [forStations]
  rw [hmark]
  unfold State.rowBegun
  rw [(State.noteFirst_frame _ _).2.2.2.1, State.noteStatus_mark]
  dsimp only [State.withMark_mark]
  rw [openLanes_mark, State.appendRow_mark, hpitch]
  exact ⟨rfl, rfl, rfl⟩

end

/-! ## Stop causes of a row open -/

section
variable {s : State}

theorem State.addRisk_hasStop (st : Fin 4) (n : Word) {c : StopCause} (h : s.jobs.hasStop c = true) :
    (s.addRisk st n).jobs.hasStop c = true := by
  unfold State.addRisk
  split
  · exact h
  · exact (JobControl.handStop_hasStop _ _ _).2 (.inr h)

theorem State.stationOpen_hasStop (r : RowCtx) (st : Fin 4) {c : StopCause} (h : s.jobs.hasStop c = true) :
    (s.stationOpen r st).jobs.hasStop c = true := by
  have hgive (l : List Word) : ∀ u : State, u.jobs.hasStop c = true → (u.giveUp st r.row l).jobs.hasStop c = true := by
    induction l with
    | nil => exact fun u hu => hu
    | cons n l ih =>
      intro u hu
      rw [State.giveUp_cons]
      refine ih _ ?_
      unfold State.giveUpRow
      split
      · split
        · exact State.addRisk_hasStop st r.row hu
        · simpa using hu
      · exact hu
  have hplace : (s.placeRow st r).jobs.hasStop c = true := by simpa using h
  unfold State.stationOpen State.spliceTest
  split
  · split
    · exact hgive _ _ hplace
    · exact hplace
  · exact h

theorem forStations_stationOpen_raised (r : RowCtx) (s : State) : s.attn.Raised (forStations (State.stationOpen r) s).attn :=
  forStations_induct (P := fun u => s.attn.Raised u.attn) (fun st u hu => u.stationOpen_raised r st hu) (.refl _)

end

section
variable (s : State) (lead : Pos)

/-- A row that opens MISSING with room on the track (R23, R24, R28). -/
theorem State.openRow_missing (h : s.track.length < 32) :
    (s.openRow .missing lead).rows = s.rows ++ [(s.newRow .missing lead).fixed] ∧
      (s.openRow .missing lead).jobs.run = s.jobs.run ∧
      (s.openRow .missing lead).mem = (s.writeWord 0x14 s.mark.nextRow).mem ∧
      (s.openRow .missing lead).mark.missing = min 255 (s.mark.missing + 1) ∧
      ((s.openRow .missing lead).mark.search = true ↔
        s.mark.search = true ∨ min 255 (s.mark.missing + 1) = s.job.missingLimit) ∧
      ((s.openRow .missing lead).mark.search = true → s.mark.search = false →
        (s.openRow .missing lead).attn.has .regLost = true ∧ (s.openRow .missing lead).jobs.hasStop .regLost = true) := by
  obtain ⟨hrows, hmem, hcur, -⟩ := s.rowBegun_frame .missing lead
  let v := (forLanes (State.openLane (s.newRow .missing lead).row lead) (s.appendRow (s.newRow .missing lead)))
  let w := v.withMark { v.mark with expected := some (moved lead v.jobPitch) }
  have hbegun : s.rowBegun .missing lead = w.noteStatus .missing := rfl
  have hw : w.mark.missing = s.mark.missing ∧ w.mark.search = s.mark.search := by
    have hv : w.mark = { v.mark with expected := some (moved lead v.jobPitch) } := rfl
    rw [hv, openLanes_mark, State.appendRow_mark]
    exact ⟨rfl, rfl⟩
  have hwrun : w.jobs.run = s.jobs.run := by simp [w, v, forLanes]
  have hwjob : w.job = s.job := State.job_congr (by simp [w, v, forLanes])
  clear_value w
  obtain ⟨hmiss, hsearch, hlost⟩ := w.noteStatus_missing
  rw [hw.1, hw.2, hwjob] at hsearch
  rw [hw.1] at hmiss
  rw [hw.2] at hlost
  rw [← hbegun] at hmiss hsearch hlost
  have hrun : (s.rowBegun .missing lead).jobs.run = s.jobs.run := by rw [hbegun, (State.noteStatus_frame _ _).2.2.2.2.2.2.2.1, hwrun]
  rw [State.openRow_of_room s .missing lead h]
  generalize s.rowBegun .missing lead = b at hrows hmem hmiss hsearch hlost hrun
  have hmark : (forStations (State.stationOpen (s.newRow .missing lead)) b).mark = b.mark := by simp [forStations]
  rw [hmark]
  refine ⟨by simpa [forStations] using hrows, by simpa [forStations] using hrun, by simpa [forStations] using hmem, hmiss,
    hsearch, fun ht hf => ?_⟩
  obtain ⟨hattn, hstop⟩ := hlost ht hf
  exact ⟨(forStations_stationOpen_raised _ b).has _ hattn,
    forStations_induct (P := fun u => u.jobs.hasStop .regLost = true) (fun st u hu => State.stationOpen_hasStop _ st hu) hstop⟩

end

end Sys2Proof.Machine
end

section
/-! A count on the lanes, and the statement about the windows that close. -/

namespace Sys2Proof.Machine

section
variable {s : State} {l : Fin 4} {n : Word} {e : LaneEntry}

/-! ## A row open and the other rows' lanes -/

theorem State.windowOf.openLane (h : s.windowOf l n) (lead : Pos) (m : Fin 4) : (s.openLane n lead m).windowOf l n := by
  intro k hk
  have hcases : (s.openLane n lead m).mark.windows.get l = s.mark.windows.get l ∨
      (s.openLane n lead m).mark.windows.get l = none ∨
      (s.openLane n lead m).mark.windows.get l = some { row := n, centre := s.laneCentre m lead } := by
    unfold State.openLane State.laneFound State.laneMissing
    cases s.mark.held.get m <;> dsimp only <;> split_ifs <;> by_cases hm : l = m <;>
      simp [State.setWindow, State.setHeld, hm]
  rcases hcases with hc | hc | hc
  · exact h k (hc.symm.trans hk)
  · simp [hc] at hk
  · rw [hc] at hk
    rw [← Option.some.inj hk]

theorem State.lanesRead.openLane (h : s.lanesRead l n e) {n' : Word} (hn : n' ≠ n) (lead : Pos) (m : Fin 4) :
    (s.openLane n' lead m).lanesRead l n e := by
  have hkeep {u v : State} (hu : u.track = s.track) (e' : LaneEntry) (hv : v.track = (u.setLane m n' e').track) :
      v.lanesRead l n e := State.lanesRead.of_track ((h.of_track hu).setLane (.inr hn) e') hv
  have hsame {v : State} (hv : v.track = s.track) : v.lanesRead l n e := h.of_track hv
  unfold State.openLane State.laneFound State.laneMissing
  cases s.mark.held.get m with
  | none =>
    dsimp only
    split_ifs
    · exact hkeep (u := (s.setWindow m _).setHeld m none) rfl _ rfl
    · exact hsame rfl
    · exact h
  | some q =>
    dsimp only
    split_ifs
    · exact hkeep (u := (s.setWindow m _).setHeld m none) rfl _ rfl
    · exact hkeep (u := (s.setWindow m _).setHeld m none) rfl _ rfl
    · exact hsame rfl
    · exact h

theorem State.lanesRead_nil (h : s.track = []) : s.lanesRead l n e := by
  intro r hr
  simp [h] at hr

theorem State.windowOf_none (h : s.mark.windows.get l = none) : s.windowOf l n := by
  intro k hk
  simp [h] at hk

theorem State.handHold_lanes (cause : HoldCause) (h : s.lanesRead l n e) : (s.handHold cause).lanesRead l n e := by
  cases hh : s.jobs.run.holdable with
  | true => rw [s.handHold_of_holdable cause hh]; exact State.lanesRead_nil (s.hold_track cause)
  | false => rwa [s.handHold_of_not_holdable cause hh]

theorem State.hold_run (cause : HoldCause) : (s.hold cause).jobs.run = .held := by
  rw [State.hold_jobs]
  rfl

theorem State.hold_windowOf (cause : HoldCause) : (s.hold cause).windowOf l n :=
  State.windowOf_none (by rw [State.hold_mark]; simp [MarkUnit.clear])

/-- A row open leaves the results of the other rows at a lane. -/
theorem State.lanesRead.openRow (h : s.lanesRead l n e) (hn : s.mark.nextRow ≠ n) (status : MarkStatus) (lead : Pos) :
    (s.openRow status lead).lanesRead l n e := by
  rcases Nat.lt_or_ge s.track.length 32 with hroom | hfull
  · have happend : (s.appendRow (s.newRow status lead)).lanesRead l n e := by
      intro r hr hrow
      rw [State.appendRow_track, List.mem_append, List.mem_singleton] at hr
      rcases hr with hr | rfl
      · exact h r hr hrow
      · exact absurd hrow hn
    have hlanes := forLanes_induct (P := fun u => u.lanesRead l n e)
      (fun m u (hu : u.lanesRead l n e) => hu.openLane (n' := (s.newRow status lead).row) hn lead m) happend
    have hbegun : (s.rowBegun status lead).lanesRead l n e := hlanes.of_track (by unfold State.rowBegun; simp)
    rw [State.openRow_of_room s status lead hroom]
    exact forStations_induct (P := fun u => u.lanesRead l n e)
      (fun st u hu => hu.congr (u.laned_stationOpen _ st)) hbegun
  · rw [State.openRow_of_full s status lead hfull]
    exact State.handHold_lanes _ h

/-- A lane with no window has none but the new row's after a row open. -/
theorem State.windowOf.openRow (h : s.windowOf l s.mark.nextRow) (status : MarkStatus) (lead : Pos) :
    (s.openRow status lead).windowOf l s.mark.nextRow := by
  rcases Nat.lt_or_ge s.track.length 32 with hroom | hfull
  · have happend : (s.appendRow (s.newRow status lead)).windowOf l s.mark.nextRow := by
      intro k hk
      rw [State.appendRow_mark] at hk
      exact h k hk
    have hlanes : (forLanes (State.openLane (s.newRow status lead).row lead) (s.appendRow (s.newRow status lead))).windowOf l
        s.mark.nextRow := forLanes_induct (P := fun u => u.windowOf l s.mark.nextRow) (fun m u hu => hu.openLane lead m) happend
    have hbegun : (s.rowBegun status lead).windowOf l s.mark.nextRow := by
      intro k hk
      unfold State.rowBegun at hk
      rw [(State.noteFirst_frame _ _).2.2.2.1, State.noteStatus_mark] at hk
      exact hlanes k hk
    rw [State.openRow_of_room s status lead hroom]
    exact forStations_induct (P := fun u => u.windowOf l s.mark.nextRow)
      (fun st u hu k hk => hu k (by simpa using hk)) hbegun
  · rw [State.openRow_of_full s status lead hfull]
    cases hh : s.jobs.run.holdable with
    | true => rw [s.handHold_of_holdable _ hh]; exact State.hold_windowOf _
    | false => rwa [s.handHold_of_not_holdable _ hh]

end

/-! ## A web position change -/

/-- A web position change before the mark unit's part: the high-water position, the foil and the stations (R5). -/
def State.webMoved (p : Pos) (s : State) : State :=
  forStations (State.stationWeb p (dist p s.web))
    (forChannels (State.foilAdvance s.wpu.highWater (dist s.wpu.highWater s.wpu.advanceHighWater.highWater).toNat)
      (s.withWpu s.wpu.advanceHighWater))

theorem State.webChange_eq (p : Pos) (s : State) : s.webChange p = ((s.webMoved p).markWeb p).reverseCheck := rfl

@[simp] theorem State.webMoved_frame (p : Pos) (s : State) :
    (s.webMoved p).wpu = s.wpu.advanceHighWater ∧ (s.webMoved p).mark = s.mark ∧
      (s.webMoved p).lastRetired = s.lastRetired ∧ (s.webMoved p).jobs.run = s.jobs.run ∧
      (s.webMoved p).jobs.holdCause = s.jobs.holdCause ∧ (s.webMoved p).mem = s.mem ∧
      (s.webMoved p).records = s.records ∧ (s.webMoved p).cur = s.cur ∧ (s.webMoved p).rows = s.rows := by
  simp [State.webMoved, forStations, forChannels]

theorem Wpu.advanceHighWater_position (w : Wpu) : w.advanceHighWater.position = w.position := by
  rw [Wpu.advanceHighWater_eq]
  rfl

@[simp] theorem State.webMoved_web (p : Pos) (s : State) : (s.webMoved p).web = s.web := by
  rw [State.web, (s.webMoved_frame p).1, Wpu.advanceHighWater_position]
  rfl

theorem State.webMoved_windowCloses (p q : Pos) (s : State) (k : LaneWindow) :
    (s.webMoved p).windowCloses q k = s.windowCloses q k :=
  State.windowCloses_congr q (by simp) (by simp) (by simp) k

theorem State.track_length_congr {s t : State} (h : t.rows = s.rows) : t.track.length = s.track.length := by
  have := congrArg List.length h
  simpa [State.rows] using this

/-- The window the web closes at a change from `p` (R23, R25). -/
def State.leadingCloses (s : State) (p e : Pos) : Prop :=
  s.jobs.run = .running ∧ s.mark.expected = some e ∧ reaches p (s.windowEnd e) s.web (s.windowEnd e) = true

theorem State.closeLeading_of_closes {s : State} {p e : Pos} (h : s.leadingCloses p e) :
    s.closeLeading p = s.openRow .missing e := by
  obtain ⟨hr, he, hreach⟩ := h
  unfold State.closeLeading
  simp only [hr, he, hreach, if_true]

theorem State.closeLeading_of_stands {s : State} {p : Pos} (h : ∀ e, ¬ s.leadingCloses p e) : s.closeLeading p = s := by
  unfold State.closeLeading
  split
  · rename_i e hr he
    rw [if_neg fun hreach => h e ⟨hr, he, hreach⟩]
  · rfl

theorem State.windowEnd_congr {s t : State} (hs : t.mark.search = s.mark.search) (hc : t.cur = s.cur) (e : Pos) :
    t.windowEnd e = s.windowEnd e := by
  have hpitch : t.jobPitch = s.jobPitch := by rw [State.jobPitch, hc, State.jobPitch]
  rw [State.windowEnd, hs, hpitch, State.job_congr hc, State.windowEnd]

/-- The state when the leading window is tested: the stations' part taken, and the lanes' (R20). -/
theorem State.leadingCloses_congr {s t : State} (hr : t.jobs.run = s.jobs.run) (he : t.mark.expected = s.mark.expected)
    (hs : t.mark.search = s.mark.search) (hc : t.cur = s.cur) (hw : t.web = s.web) (p e : Pos) :
    t.leadingCloses p e ↔ s.leadingCloses p e := by
  rw [State.leadingCloses, hr, he, hw, State.windowEnd_congr hs hc, State.leadingCloses]

theorem reaches_iff (w x w' x' : Pos) : reaches w x w' x' = true ↔ dist x w < 0 ∧ 0 ≤ dist x' w' := by
  simp [reaches, behind, atOrBeyond]

theorem rowSucc_ne (n : Word) : rowSucc n ≠ n := by
  unfold rowSucc
  split <;> bv_omega

/-! ## The step -/

theorem exec_encoderCount_forward {s : State} {p : Bool × Bool} {a b : Bool} (hp : s.wpu.pair = some p)
    (ht : transition p (a, b) = .forward) :
    exec (.encoderCount a b) s = .next ((s.setPair a b).count .forward) := by
  have harm : exec (.encoderCount a b) s = execEncoderCount a b s := rfl
  rw [harm, execEncoderCount, hp]
  simp only [ht]

theorem State.count_of_stays {s : State} {d : Direction} (h : (s.withWpu (s.wpu.count d)).web = s.web) :
    s.count d = s.withWpu (s.wpu.count d) := if_pos h

theorem State.count_of_moves {s : State} {d : Direction} (h : (s.withWpu (s.wpu.count d)).web ≠ s.web) :
    s.count d = (s.withWpu (s.wpu.count d)).webChange s.web := if_neg h

theorem State.reverseCheck_cases (s : State) :
    s.reverseCheck = s ∨ s.reverseCheck = s.hold .reverse ∧ (s.job.reverseTol : Int) < dist s.web s.wpu.highWater := by
  unfold State.reverseCheck
  split
  · rename_i h
    exact .inr ⟨rfl, by simpa using (Bool.and_eq_true_iff.1 h).2⟩
  · exact .inl rfl

end Sys2Proof.Machine
end

section
/-! The statement about the windows that close. -/

namespace Sys2Proof.Machine

section
variable {s : State} {p : Pos}

/-- The state that the leading window's test finds at a change from `p`: the stations and the lanes have had their
part (R20). -/
def State.lanesClosed (p : Pos) (s : State) : State := forLanes (State.closeLane p) (s.webMoved p)

theorem State.webChange_eq_closes (p : Pos) (s : State) :
    s.webChange p = (forLanes (State.closeLane p) ((s.lanesClosed p).closeLeading p)).reverseCheck := rfl

@[simp] theorem State.lanesClosed_frame (p : Pos) (s : State) :
    (s.lanesClosed p).wpu = s.wpu.advanceHighWater ∧ (s.lanesClosed p).jobs.run = s.jobs.run ∧
      (s.lanesClosed p).mem = s.mem ∧ (s.lanesClosed p).records = s.records ∧ (s.lanesClosed p).cur = s.cur ∧
      (s.lanesClosed p).rows = s.rows ∧ (s.lanesClosed p).web = s.web := by
  simp [State.lanesClosed]

theorem State.lanesClosed_mark (p : Pos) (s : State) :
    (s.lanesClosed p).mark = { s.mark with windows := (s.lanesClosed p).mark.windows } := by
  have hmark : (s.webMoved p).mark = s.mark := by simp
  unfold State.lanesClosed
  rw [← hmark]
  exact forLanes_closeLane_mark p (s.webMoved p)

theorem State.lanesClosed_leading (e : Pos) : (s.lanesClosed p).leadingCloses p e ↔ s.leadingCloses p e := by
  refine State.leadingCloses_congr (by simp) ?_ ?_ (by simp) (by simp) p e
  all_goals rw [State.lanesClosed_mark]

/-- A web that is not behind the high-water position by more than the reverse tolerance is not checked back (R8). -/
theorem State.reverseCheck_of_within {u : State} (h : dist u.web u.wpu.highWater ≤ u.job.reverseTol) : u.reverseCheck = u :=
  u.reverseCheck_cases.resolve_right fun hc => absurd hc.2 (not_lt.2 h)

/-! ## The leading and the search window -/

/-- A web position change that closes the leading or the search window opens the next row MISSING (R23, R25). -/
theorem State.webChange_missing {e : Pos} (hcl : s.leadingCloses p e)
    (hback : dist s.web s.wpu.advanceHighWater.highWater ≤ s.job.reverseTol) :
    s.webChange p = forLanes (State.closeLane p) ((s.lanesClosed p).openRow .missing e) := by
  rw [State.webChange_eq_closes, State.closeLeading_of_closes (State.lanesClosed_leading e |>.2 hcl)]
  refine State.reverseCheck_of_within ?_
  rw [State.job_congr (t := forLanes (State.closeLane p) ((s.lanesClosed p).openRow .missing e)) (s := s) (by simp)]
  simpa using hback

/-! ## The lanes -/

/-- A window that the web closes is gone after the change, and its row is MISSING at the lane (R30). -/
theorem State.webChange_windowClosed {l : Fin 4} {k : LaneWindow} (hk : s.mark.windows.get l = some k)
    (hc : s.windowCloses p k = true) (hn : k.row ≠ s.mark.nextRow) :
    (s.webChange p).mark.windows.get l ≠ some k ∧ (s.webChange p).lanesRead l k.row .missing := by
  obtain ⟨hnone, hread⟩ := forLanes_closeLane_closed (s := s.webMoved p) p l (k := k) (by simpa using hk)
    (by rw [State.webMoved_windowCloses, hc])
  have hcl : forLanes (State.closeLane p) (s.webMoved p) = s.lanesClosed p := rfl
  rw [hcl] at hnone hread
  have hnext : (s.lanesClosed p).mark.nextRow = s.mark.nextRow := by rw [State.lanesClosed_mark]
  have hwin : (s.lanesClosed p).windowOf l s.mark.nextRow := State.windowOf_none hnone
  have hlead : ((s.lanesClosed p).closeLeading p).windowOf l s.mark.nextRow ∧
      ((s.lanesClosed p).closeLeading p).lanesRead l k.row .missing := by
    by_cases h : ∃ e, (s.lanesClosed p).leadingCloses p e
    · obtain ⟨e, he⟩ := h
      rw [State.closeLeading_of_closes he]
      rw [← hnext] at hwin ⊢
      exact ⟨hwin.openRow .missing e, hread.openRow (by rw [hnext]; exact hn.symm) .missing e⟩
    · rw [State.closeLeading_of_stands (not_exists.1 h)]
      exact ⟨hwin, hread⟩
  have hend := And.intro (hlead.1.closeLanes p) (hlead.2.closeLanes p hlead.1 hn.symm)
  rw [State.webChange_eq_closes]
  generalize forLanes (State.closeLane p) ((s.lanesClosed p).closeLeading p) = u at hend
  rcases u.reverseCheck_cases with hr | ⟨hr, -⟩
  · rw [hr]
    exact ⟨fun h => hn (hend.1 k h), hend.2⟩
  · rw [hr]
    exact ⟨by rw [State.hold_mark]; simp [MarkUnit.clear], State.lanesRead_nil (u.hold_track _)⟩

/-- The part of a web position change after the leading window's test (R5, R20). -/
theorem State.afterLeading_cases (p : Pos) (u : State) :
    let t := (forLanes (State.closeLane p) u).reverseCheck
    t.jobs.run = .held ∨ t.mark.nextRow = u.mark.nextRow ∧ t.jobs.run = u.jobs.run := by
  have hmark := forLanes_closeLane_mark p u
  have hjobs := (forLanes_closeLane_frame p u).1
  dsimp only
  generalize forLanes (State.closeLane p) u = v at *
  rcases v.reverseCheck_cases with hr | ⟨hr, -⟩
  · rw [hr, hmark, hjobs]
    exact .inr ⟨rfl, rfl⟩
  · rw [hr, State.hold_run]
    exact .inl rfl

theorem State.closeLeading_of_kept {c : State}
    (hn : (forLanes (State.closeLane p) (c.closeLeading p)).reverseCheck.mark.nextRow = c.mark.nextRow)
    (hh : (forLanes (State.closeLane p) (c.closeLeading p)).reverseCheck.jobs.run ≠ .held) : c.closeLeading p = c := by
  refine State.closeLeading_of_stands fun e he => ?_
  rw [State.closeLeading_of_closes he] at hn hh
  obtain ⟨hnext, hrun⟩ := (State.afterLeading_cases p (c.openRow .missing e)).resolve_left hh
  rcases Nat.lt_or_ge c.track.length 32 with hroom | hfull
  · rw [hnext, (c.openRow_mark .missing e hroom).2.1] at hn
    exact rowSucc_ne _ hn
  · refine hh (hrun.trans ?_)
    rw [State.openRow_of_full _ _ _ hfull, State.handHold_of_holdable _ (by rw [he.1]; rfl), State.hold_run]

/-- A window that the web does not close stays, where no row opens and no hold follows (R30). -/
theorem State.webChange_windowStands {l : Fin 4} {k : LaneWindow} (hk : s.mark.windows.get l = some k)
    (hc : s.windowCloses p k = false) (hn : (s.webChange p).mark.nextRow = s.mark.nextRow)
    (hh : (s.webChange p).jobs.run ≠ .held) : (s.webChange p).mark.windows.get l = some k := by
  rw [State.webChange_eq_closes] at hn hh ⊢
  have hfirst : (s.lanesClosed p).mark.windows.get l = some k := by
    rw [State.lanesClosed, forLanes_closeLane_windows, (s.webMoved_frame p).2.1, hk]
    simp [State.webMoved_windowCloses, hc, Option.filter_some]
  have hlead : (s.lanesClosed p).closeLeading p = s.lanesClosed p := by
    have hnext : (s.lanesClosed p).mark.nextRow = s.mark.nextRow := by rw [State.lanesClosed_mark]
    exact State.closeLeading_of_kept (hn.trans hnext.symm) hh
  rw [hlead] at hh ⊢
  have hwin : (forLanes (State.closeLane p) (s.lanesClosed p)).mark.windows.get l = some k := by
    rw [forLanes_closeLane_windows, hfirst]
    have hcong : (s.lanesClosed p).windowCloses p k = s.windowCloses p k :=
      State.windowCloses_congr p (by simp) (by simp) (by simp) k
    simp [hcong, hc, Option.filter_some]
  generalize forLanes (State.closeLane p) (s.lanesClosed p) = u at *
  rcases u.reverseCheck_cases with hr | ⟨hr, -⟩
  · rw [hr, hwin]
  · exact absurd (by rw [hr, State.hold_run]) hh

end

/-! ## The count -/

theorem State.newRow_fixed (s : State) (status : MarkStatus) (lead : Pos) :
    (s.newRow status lead).fixed = (s.mark.nextRow, s.job.tag, lead, status, (s.readVerdict s.mark.nextRow).1,
      (s.readVerdict s.mark.nextRow).2) := rfl

theorem State.getLast_of_rows {t : State} {l : List _} {x : _} (h : t.rows = l ++ [x]) :
    ∃ r, t.track.getLast? = some r ∧ r.fixed = x := by
  have hlast := congrArg List.getLast? h
  rw [List.getLast?_concat, State.rows, List.getLast?_map] at hlast
  exact Option.map_eq_some_iff.1 hlast

theorem State.writeWord_within (s : State) (a : Nat) (w : Word) : changedWithin s.mem (s.writeWord a w).mem a (a + 4) := by
  intro x hx
  rw [State.read_writeWord, if_neg (by omega)]

/-- The state that a count's web position change acts on: the pair and the accumulator moved (R1, R3). -/
def State.counted (s : State) (a b : Bool) (d : Direction) : State :=
  (s.setPair a b).withWpu ((s.setPair a b).wpu.count d)

@[simp] theorem State.counted_frame (s : State) (a b : Bool) (d : Direction) :
    (s.counted a b d).mark = s.mark ∧ (s.counted a b d).track = s.track ∧ (s.counted a b d).jobs = s.jobs ∧
      (s.counted a b d).cur = s.cur ∧ (s.counted a b d).mem = s.mem ∧ (s.counted a b d).attn = s.attn ∧
      (s.counted a b d).stations = s.stations ∧ (s.counted a b d).channels = s.channels ∧
      (s.counted a b d).cylGens = s.cylGens ∧ (s.counted a b d).foilGens = s.foilGens ∧
      (s.counted a b d).records = s.records ∧ (s.counted a b d).lastRetired = s.lastRetired ∧
      (s.counted a b d).rows = s.rows ∧ (s.counted a b d).wpu = { s.wpu with pair := some (a, b) }.count d := by
  refine ⟨rfl, rfl, rfl, rfl, rfl, rfl, rfl, rfl, rfl, rfl, rfl, rfl, rfl, rfl⟩

theorem State.count_setPair_of_stays {s : State} {a b : Bool} {d : Direction} (h : (s.counted a b d).web = s.web) :
    (s.setPair a b).count d = s.counted a b d := State.count_of_stays h

theorem State.count_setPair_of_moves {s : State} {a b : Bool} {d : Direction} (h : (s.counted a b d).web ≠ s.web) :
    (s.setPair a b).count d = (s.counted a b d).webChange s.web := State.count_of_moves h

theorem State.counted_forward_web (s : State) (a b : Bool) :
    (s.counted a b .forward).web = (s.wpu.acc + BitVec.ofNat 48 s.wpu.scaleQ).extractLsb' 16 32 := rfl

theorem State.counted_highWater (s : State) (a b : Bool) (d : Direction) :
    (s.counted a b d).wpu.highWater = s.wpu.highWater := by
  have h : (s.counted a b d).wpu = { s.wpu with pair := some (a, b) }.count d := rfl
  rw [h, Wpu.count_eq]

/-- Settles O33: the count's mark unit stage by stage, through the row open and the lanes. -/
theorem windowCloseOpensAMissingRow : Obligations.WindowCloseOpensAMissingRow := by
  unfold Obligations.WindowCloseOpensAMissingRow
  intro s p a b w hp ht hw
  have hexec := exec_encoderCount_forward hp ht
  have hweb : (s.counted a b .forward).web = w := (s.counted_forward_web a b).trans hw.symm
  refine ⟨fun e hrun he hroom hbehind hreach hforward => ?_, fun l k hrun hk => ?_⟩
  · have hmoves : (s.counted a b .forward).web ≠ s.web := by
      intro h
      rw [hweb] at h
      exact absurd (h ▸ hreach) (not_le.2 hbehind)
    have hcl : (s.counted a b .forward).leadingCloses s.web e := by
      refine ⟨hrun, he, ?_⟩
      rw [State.windowEnd_congr (s := s) (t := s.counted a b .forward) rfl rfl, hweb, reaches_iff]
      exact ⟨hbehind, hreach⟩
    have hback : dist (s.counted a b .forward).web (s.counted a b .forward).wpu.advanceHighWater.highWater ≤
        (s.counted a b .forward).job.reverseTol := by
      have hposition : (s.counted a b .forward).wpu.position = w := hweb
      rw [hweb, Wpu.advanceHighWater_eq, hposition, State.counted_highWater]
      dsimp only
      split
      · rw [dist_self]
        exact Int.natCast_nonneg _
      · rename_i hle
        have hzero : dist s.wpu.highWater w = 0 := le_antisymm (not_lt.1 hle) hforward
        have heq := eq_add_of_dist hzero.ge
        rw [hzero] at heq
        have hsame : w = s.wpu.highWater := by simpa using heq
        rw [hsame, dist_self]
        exact Int.natCast_nonneg _
    refine ⟨_, hexec, ?_⟩
    rw [State.count_setPair_of_moves hmoves, State.webChange_missing hcl hback]
    have hmark := (s.counted a b .forward).lanesClosed_mark s.web
    obtain ⟨-, hcrun, hcmem, -, hccur, hcrows, hcweb⟩ := (s.counted a b .forward).lanesClosed_frame s.web
    generalize (s.counted a b .forward).lanesClosed s.web = c at *
    have hcroom : c.track.length < 32 := by rw [State.track_length_congr hcrows]; exact hroom
    have hcsearch : c.mark.search = s.mark.search := by rw [hmark]; rfl
    have hcnext : c.mark.nextRow = s.mark.nextRow := by rw [hmark]; rfl
    have hcmissing : c.mark.missing = s.mark.missing := by rw [hmark]; rfl
    obtain ⟨hrows, horun, hmem, hmissing, hsearch, hlost⟩ := c.openRow_missing e hcroom
    obtain ⟨hopened, hnext, hexpected⟩ := c.openRow_mark .missing e hcroom
    have hjob : c.job = s.job := State.job_congr hccur
    have hpitch : c.jobPitch = s.jobPitch := by rw [State.jobPitch, hccur]; rfl
    rw [hcmissing, hcsearch, hjob] at hsearch
    rw [hcmissing] at hmissing
    rw [hcsearch] at hlost
    rw [hcnext] at hopened hnext hmem
    rw [hpitch] at hexpected
    have hread : c.readVerdict s.mark.nextRow = s.readVerdict s.mark.nextRow := by
      rw [State.readVerdict, hcmem, hjob]
      rfl
    rw [State.newRow_fixed, hcnext, hread, hjob] at hrows
    have hlanes := forLanes_closeLane_mark s.web (c.openRow .missing e)
    obtain ⟨htjobs, htattn, htmem, -, htrows, htweb, -⟩ := forLanes_closeLane_frame s.web (c.openRow .missing e)
    have howeb : (c.openRow .missing e).web = c.web := by simp
    generalize c.openRow .missing e = o at *
    generalize forLanes (State.closeLane s.web) o = t at *
    obtain ⟨r, hr, hfixed⟩ := State.getLast_of_rows (htrows.trans hrows)
    simp only [RowCtx.fixed, Prod.mk.injEq] at hfixed
    obtain ⟨hfrow, -, hflead, hfstatus, hfverdict, hfsource⟩ := hfixed
    rw [htweb, howeb, hcweb, hweb, htjobs, horun, hcrun, htmem, hmem, hlanes, htattn]
    refine ⟨rfl, hrun, ⟨r, hr, hfrow, hflead, hfstatus, Prod.ext hfverdict hfsource⟩, hopened, hnext, hexpected, hmissing,
      hsearch, hlost, State.word_writeWord c _ _, ?_⟩
    rw [← show c.mem = s.mem from hcmem]
    exact State.writeWord_within c 0x14 s.mark.nextRow
  · by_cases hmoves : (s.counted a b .forward).web = s.web
    · refine ⟨_, hexec, fun hb hr => absurd ?_ (not_le.2 hb), fun _ _ _ => ?_⟩
      · rwa [← hmoves, hweb]
      · rw [State.count_setPair_of_stays hmoves]
        exact hk
    · refine ⟨_, hexec, ?_⟩
      rw [State.count_setPair_of_moves hmoves]
      have hcloses : (s.counted a b .forward).windowCloses s.web k = true ↔
          dist (moved k.centre s.job.window) s.web < 0 ∧ 0 ≤ dist (moved k.centre s.job.window) w := by
        have hmoving : (s.counted a b .forward).moving = true := (State.moving_iff _).2 hrun
        rw [State.windowCloses, hmoving, Bool.true_and, hweb, reaches_iff]
        rfl
      refine ⟨fun hb hr => ?_, fun hstands hn hh => ?_⟩
      · refine ⟨fun hne => ?_, fun r hr' hrow hne => ?_⟩
        · exact (State.webChange_windowClosed (s := s.counted a b .forward) hk (hcloses.2 ⟨hb, hr⟩) hne).1
        · exact (State.webChange_windowClosed (s := s.counted a b .forward) hk (hcloses.2 ⟨hb, hr⟩) hne).2 r hr' hrow
      · refine State.webChange_windowStands (s := s.counted a b .forward) hk ?_ hn hh
        rw [Bool.eq_false_iff, Ne, hcloses]
        rintro ⟨hb, hr⟩
        rcases hstands with h | h
        · exact absurd h (not_le.2 hb)
        · exact absurd hr (not_le.2 h)

end Sys2Proof.Machine
end

section
/-! What the actions at one station leave of the others. -/

namespace Sys2Proof.Machine

/-- What belongs to station `k`: its own fields, its cylinder's generator and its entry in each row. -/
def State.atStation (s : State) (k : Fin 4) : Station × StepGen × List (Word × Option StationEntry) :=
  (s.station k, s.cylGens.get k, s.track.map fun r => (r.row, r.stations.get k))

section
variable {s t : State} {st k : Fin 4}

theorem State.atStation_of_same (h : t.stations = s.stations) (hg : t.cylGens = s.cylGens) (hp : t.places = s.places)
    (k : Fin 4) : t.atStation k = s.atStation k := by
  have hentries (u : State) : (u.track.map fun r => (r.row, r.stations.get k)) = u.places.map fun p => (p.1, p.2.get k) := by
    rw [State.places, List.map_map]
    rfl
  rw [State.atStation, State.station, h, hg, hentries, hp, ← hentries]
  rfl

/-! ## The track and the station's fields -/

theorem RowCtx.mapStation_get_ne (hk : k ≠ st) (r : RowCtx) (f : StationEntry → StationEntry) :
    (r.mapStation st f).stations.get k = r.stations.get k := by
  rw [RowCtx.mapStation_get, if_neg hk]

/-- An action on the rows that keeps their numbers and their entries at `k`. -/
theorem State.atStation_mapTrack {f : RowCtx → RowCtx} (hrow : ∀ r, (f r).row = r.row)
    (hst : ∀ r, (f r).stations.get k = r.stations.get k) : (s.withTrack (s.track.map f)).atStation k = s.atStation k := by
  have htrack : (s.track.map f).map (fun r => (r.row, r.stations.get k)) = s.track.map fun r => (r.row, r.stations.get k) := by
    rw [List.map_map]
    exact List.map_congr_left fun r _ => by rw [Function.comp_apply, hrow, hst]
  rw [State.atStation, State.withTrack_track, htrack]
  rfl

@[simp] theorem State.atStation_mapEntry (hk : k ≠ st) (n : Word) (f : StationEntry → StationEntry) :
    (s.mapEntry st n f).atStation k = s.atStation k := by
  refine State.atStation_mapTrack (fun r => ?_) fun r => ?_
  · split <;> rfl
  · split
    · exact RowCtx.mapStation_get_ne hk r f
    · rfl

@[simp] theorem State.atStation_mapEntries (hk : k ≠ st) (f : StationEntry → StationEntry) :
    (s.mapEntries st f).atStation k = s.atStation k :=
  State.atStation_mapTrack (fun _ => rfl) fun r => RowCtx.mapStation_get_ne hk r f

@[simp] theorem State.atStation_setStation (hk : k ≠ st) (x : Station) : (s.setStation st x).atStation k = s.atStation k := by
  rw [State.atStation, State.station_setStation, if_neg hk]
  rfl

@[simp] theorem State.atStation_deliverCylinder (hk : k ≠ st) (amount : Int) :
    (s.deliverCylinder st amount).atStation k = s.atStation k := by
  have hgen : (s.deliverCylinder st amount).cylGens.get k = s.cylGens.get k := by
    simp [State.deliverCylinder, State.setGen, hk]
  rw [State.atStation, hgen]
  rfl

@[simp] theorem State.atStation_raise (c : AttnCause) : (s.raise c).atStation k = s.atStation k := rfl

@[simp] theorem State.atStation_raiseStop (a : AttnCause) (c : StopCause) : (s.raiseStop a c).atStation k = s.atStation k :=
  rfl

@[simp] theorem State.atStation_openThrow (hk : k ≠ st) : (s.openThrow st).atStation k = s.atStation k :=
  State.atStation_setStation hk _

@[simp] theorem State.atStation_setState (hk : k ≠ st) (x : StationState) : (s.setState st x).atStation k = s.atStation k :=
  State.atStation_setStation hk _

@[simp] theorem State.atStation_closeTest (hk : k ≠ st) : (s.closeTest st).atStation k = s.atStation k := by
  unfold State.closeTest
  split
  · exact State.atStation_setStation hk _
  · rfl

/-! ## The channels -/

theorem channelActs_serving_places {f : Fin 8 → State → State} (hf : ∀ c u, channelActs c u (f c u)) :
    (s.serving st f).places = s.places := by
  refine forChannels_induct (P := fun u => u.places = s.places) (fun c u hu => ?_) rfl
  split
  · exact (hf c u).places.trans hu
  · exact hu

theorem State.serving_handover_places (n : Word) : (s.serving st (State.handover n)).places = s.places :=
  channelActs_serving_places fun c _ => (channelFree_handover n c).tochannelActs

theorem State.serving_withdraw_places (n : Word) : (s.serving st (State.withdraw n)).places = s.places :=
  channelActs_serving_places fun c _ => (channelFree_withdraw n c).tochannelActs

theorem State.serving_foilRecheck_places : (s.serving st State.foilRecheck).places = s.places :=
  channelActs_serving_places fun c _ => (channelFree_foilRecheck c).tochannelActs

@[simp] theorem State.atStation_serving_handover (n : Word) :
    (s.serving st (State.handover n)).atStation k = s.atStation k :=
  State.atStation_of_same (by simp) (by simp) (State.serving_handover_places n) k

@[simp] theorem State.atStation_serving_withdraw (n : Word) :
    (s.serving st (State.withdraw n)).atStation k = s.atStation k :=
  State.atStation_of_same (by simp) (by simp) (State.serving_withdraw_places n) k

@[simp] theorem State.atStation_serving_foilRecheck :
    (s.serving st State.foilRecheck).atStation k = s.atStation k :=
  State.atStation_of_same (by simp) (by simp) State.serving_foilRecheck_places k

@[simp] theorem State.atStation_withdrawRows (l : List Word) : (s.withdrawRows st l).atStation k = s.atStation k := by
  induction l generalizing s with
  | nil => rfl
  | cons n l ih => exact ih.trans (State.atStation_serving_withdraw n)

theorem State.atStation_foilAdvance (h : Pos) (n : Nat) (c : Fin 8) : (s.foilAdvance h n c).atStation k = s.atStation k :=
  State.atStation_of_same (by simp) (by simp) (channelActs_foilAdvance c h n s).places k

/-! ## Shifts, commits and zone events -/

@[simp] theorem State.atStation_leaveFor (hk : k ≠ st) (x : StationState) : (s.leaveFor st x).atStation k = s.atStation k := by
  unfold State.leaveFor State.departure
  dsimp only
  split
  · rw [State.atStation_withdrawRows, State.atStation_mapEntries hk, State.atStation_setState hk, State.atStation_openThrow hk]
  · rw [State.atStation_setState hk, State.atStation_openThrow hk]

theorem forall₂_of_map_eq {α β : Type} {f : α → β} {l l' : List α} (h : l'.map f = l.map f) :
    List.Forall₂ (fun a b => f b = f a) l l' := by
  rw [← List.forall₂_eq_eq_eq, List.forall₂_map_left_iff, List.forall₂_map_right_iff] at h
  exact h.flip

/-- Testing for commits changes what is owed alone. -/
theorem State.latchCommits_track (st : Fin 4) (s : State) :
    List.Forall₂ (fun r q => RowCtx.unlatched q st = RowCtx.unlatched r st) s.track (s.latchCommits st).track :=
  forall₂_of_map_eq (State.latchCommits_unlatched st s)

@[simp] theorem State.atStation_latchCommits (hk : k ≠ st) : (s.latchCommits st).atStation k = s.atStation k := by
  have htrack : (s.latchCommits st).track.map (fun r => (r.row, r.stations.get k)) =
      s.track.map fun r => (r.row, r.stations.get k) := by
    have hun := congrArg (List.map fun r : RowCtx => (r.row, r.stations.get k)) (State.latchCommits_unlatched st s)
    simpa [List.map_map, Function.comp_def, RowCtx.unlatched, RowCtx.mapStation, hk] using hun
  rw [State.atStation, htrack, State.station]
  simp [State.atStation, State.station]

@[simp] theorem State.atStation_shiftRows (hk : k ≠ st) (d : Int) (moves : RowCtx → Bool) :
    (s.shiftRows st d moves).atStation k = s.atStation k := by
  unfold State.shiftRows
  dsimp only
  rw [State.atStation_closeTest hk, State.atStation_serving_foilRecheck, State.atStation_latchCommits hk,
    State.atStation_mapTrack, State.atStation_setStation hk]
  · intro r
    split <;> rfl
  · intro r
    split
    · exact RowCtx.mapStation_get_ne hk r _
    · rfl

@[simp] theorem State.atStation_tickShifts (hk : k ≠ st) (d : Int) (waiting : List Word) (n : Nat) :
    (s.tickShifts st d waiting n).atStation k = s.atStation k := by
  induction n generalizing s with
  | zero => rfl
  | succ n ih => exact ih.trans (State.atStation_shiftRows hk d _)

@[simp] theorem State.atStation_drift (hk : k ≠ st) (amount : Int) : (s.drift st amount).atStation k = s.atStation k := by
  unfold State.drift
  dsimp only
  rw [State.atStation_tickShifts hk, State.atStation_setStation hk]

@[simp] theorem State.atStation_commit (hk : k ≠ st) (r : RowCtx) : (s.commit st r).atStation k = s.atStation k := by
  unfold State.commit
  split
  · rfl
  · dsimp only
    split_ifs <;> simp [hk]

@[simp] theorem State.atStation_zoneStartEvent (hk : k ≠ st) (n : Word) :
    (s.zoneStartEvent st n).atStation k = s.atStation k := by
  unfold State.zoneStartEvent
  dsimp only
  split
  · split <;> simp [hk]
  · simp [hk]

@[simp] theorem State.atStation_writeRegistration (hk : k ≠ st) (n : Word) (error : Option Int) (trim : Int) :
    (s.writeRegistration st n error trim).atStation k = s.atStation k := by
  unfold State.writeRegistration
  dsimp only
  split <;> simp [hk]

@[simp] theorem State.atStation_applyTrim (hk : k ≠ st) (trim : Int) : (s.applyTrim st trim).atStation k = s.atStation k := by
  unfold State.applyTrim
  split
  · rfl
  · simp [hk, State.shift]

@[simp] theorem State.atStation_bandCheck (hk : k ≠ st) (r : RowCtx) (error : Option Int) :
    (s.bandCheck st r error).atStation k = s.atStation k := by
  unfold State.bandCheck
  split
  · rfl
  · split
    · split
      · split <;> simp [hk]
      · split <;> simp [hk]
      · rfl
    · rfl

@[simp] theorem State.atStation_openAtEnd (hk : k ≠ st) (n : Word) : (s.openAtEnd st n).atStation k = s.atStation k := by
  unfold State.openAtEnd
  split
  · split
    · exact State.atStation_openThrow hk
    · rfl
  · rfl

@[simp] theorem State.atStation_zoneEndEvent (hk : k ≠ st) (n : Word) : (s.zoneEndEvent st n).atStation k = s.atStation k := by
  unfold State.zoneEndEvent
  split
  · rfl
  · split
    · rfl
    · simp [hk]

@[simp] theorem State.atStation_zoneEvent (hk : k ≠ st) (r : RowCtx) : (s.zoneEvent st r).atStation k = s.atStation k := by
  unfold State.zoneEvent
  split <;> simp [hk]

@[simp] theorem State.atStation_zoneEvents (hk : k ≠ st) (n : Nat) : (s.zoneEvents st n).atStation k = s.atStation k := by
  induction n generalizing s with
  | zero => rfl
  | succ n ih =>
    cases hf : s.track.find? fun r => r.eventDueAt st with
    | none => rw [State.zoneEvents_none hf]
    | some r => rw [State.zoneEvents_some hf, ih, State.atStation_zoneEvent hk]

/-- A web position change at one station leaves the others (R15, R56). -/
theorem State.atStation_stationWeb (hk : k ≠ st) (p : Pos) (delta : Int) :
    (s.stationWeb p delta st).atStation k = s.atStation k := by
  unfold State.stationWeb State.runZoneEvents
  split
  · simp [hk]
  · rfl

/-! ## A row open -/

@[simp] theorem State.atStation_sacrifice (hk : k ≠ st) (n : Word) : (s.sacrifice st n).atStation k = s.atStation k := by
  unfold State.sacrifice
  dsimp only
  split
  · split <;> simp [hk]
  · simp [hk]

@[simp] theorem State.atStation_addRisk (hk : k ≠ st) (n : Word) : (s.addRisk st n).atStation k = s.atStation k := by
  unfold State.addRisk
  split <;> simp [hk]

@[simp] theorem State.atStation_giveUp (hk : k ≠ st) (splice : Word) (l : List Word) :
    (s.giveUp st splice l).atStation k = s.atStation k := by
  induction l generalizing s with
  | nil => rfl
  | cons n l ih =>
    rw [State.giveUp_cons, ih]
    unfold State.giveUpRow
    split
    · split <;> simp [hk]
    · rfl

theorem State.atStation_stationOpen (hk : k ≠ st) (r : RowCtx) : (s.stationOpen r st).atStation k = s.atStation k := by
  have hplace : (s.placeRow st r).atStation k = s.atStation k := by
    unfold State.placeRow
    dsimp only
    rw [State.atStation_setStation hk]
    refine State.atStation_mapTrack (fun q => ?_) fun q => ?_
    · split <;> rfl
    · split
      · simp [hk]
      · rfl
  unfold State.stationOpen State.spliceTest
  split
  · split
    · rw [State.atStation_giveUp hk, hplace]
    · exact hplace
  · rfl

end

end Sys2Proof.Machine
end

section
/-! What the actions at one station do to its entries in the rows. -/

namespace Sys2Proof.Machine

/-- From `s` to `t` every row kept its place, its number, its leading mark and its status, and its entry at station
`st` went as `R` says of a row of its number. -/
def entriesGo (st : Fin 4) (R : Word → StationEntry → StationEntry → Prop) (s t : State) : Prop :=
  List.Forall₂ (fun r q => q.fixed = r.fixed ∧ Option.Rel (R r.row) (r.stations.get st) (q.stations.get st)) s.track t.track

section
variable {s t u : State} {st : Fin 4} {R R' R'' : Word → StationEntry → StationEntry → Prop}

theorem option_rel_refl {R : StationEntry → StationEntry → Prop} (h : ∀ e, R e e) : ∀ o, Option.Rel R o o
  | none => .none
  | some e => .some (h e)

theorem option_rel_trans {R R' R'' : StationEntry → StationEntry → Prop} (h : ∀ e f g, R e f → R' f g → R'' e g)
    {a b c : Option StationEntry} (hab : Option.Rel R a b) (hbc : Option.Rel R' b c) : Option.Rel R'' a c := by
  cases hab with
  | none => cases hbc; exact .none
  | some h₁ => cases hbc with | some h₂ => exact .some (h _ _ _ h₁ h₂)

theorem option_rel_map {R : StationEntry → StationEntry → Prop} {f : StationEntry → StationEntry} (h : ∀ e, R e (f e)) :
    ∀ o : Option StationEntry, Option.Rel R o (o.map f)
  | none => .none
  | some e => .some (h e)

theorem option_rel_mono {R R' : StationEntry → StationEntry → Prop} (h : ∀ e f, R e f → R' e f)
    {a b : Option StationEntry} (hab : Option.Rel R a b) : Option.Rel R' a b := by
  cases hab with
  | none => exact .none
  | some h₁ => exact .some (h _ _ h₁)

theorem RowCtx.row_of_fixed {r q : RowCtx} (h : q.fixed = r.fixed) : q.row = r.row := congrArg Prod.fst h

theorem entriesGo.of_rows (ht : t.track = s.track) (hR : ∀ n e, R n e e) : entriesGo st R s t := by
  rw [entriesGo, ht, List.forall₂_same]
  exact fun r _ => ⟨rfl, option_rel_refl (hR _) _⟩

theorem entriesGo.of_map {g : RowCtx → RowCtx} (ht : t.track = s.track.map g) (hg : ∀ r, (g r).fixed = r.fixed)
    (hR : ∀ r, Option.Rel (R r.row) (r.stations.get st) ((g r).stations.get st)) : entriesGo st R s t := by
  rw [entriesGo, ht, List.forall₂_map_right_iff, List.forall₂_same]
  exact fun r _ => ⟨hg r, hR r⟩

theorem entriesGo.mono (h : entriesGo st R s t) (hR : ∀ n e f, R n e f → R' n e f) : entriesGo st R' s t :=
  List.Forall₂.imp (fun _ _ ⟨hf, ho⟩ => ⟨hf, option_rel_mono (hR _) ho⟩) h

theorem entriesGo.trans (h : entriesGo st R s t) (h' : entriesGo st R' t u)
    (hR : ∀ n e f g, R n e f → R' n f g → R'' n e g) : entriesGo st R'' s u := by
  have hcomp : ∀ {a b c : List RowCtx},
      List.Forall₂ (fun r q => q.fixed = r.fixed ∧ Option.Rel (R r.row) (r.stations.get st) (q.stations.get st)) a b →
      List.Forall₂ (fun r q => q.fixed = r.fixed ∧ Option.Rel (R' r.row) (r.stations.get st) (q.stations.get st)) b c →
      List.Forall₂ (fun r q => q.fixed = r.fixed ∧ Option.Rel (R'' r.row) (r.stations.get st) (q.stations.get st)) a c := by
    intro a b c hab
    induction hab generalizing c with
    | nil => intro hbc; cases hbc; exact .nil
    | cons hrq _ ih =>
      intro hbc
      cases hbc with
      | cons hqp hrest =>
        refine .cons ⟨hqp.1.trans hrq.1, option_rel_trans (hR _) hrq.2 ?_⟩ (ih hrest)
        rw [← RowCtx.row_of_fixed hrq.1]
        exact hqp.2
  exact hcomp h h'

/-- The entries of one row number go as `R` says, read by the row number. -/
theorem entriesGo.entry? (h : entriesGo st R s t) (n : Word) : Option.Rel (R n) (s.entry? st n) (t.entry? st n) := by
  have hfind : ∀ {a b : List RowCtx},
      List.Forall₂ (fun r q => q.fixed = r.fixed ∧ Option.Rel (R r.row) (r.stations.get st) (q.stations.get st)) a b →
      Option.Rel (R n) ((a.find? fun r => r.row == n).bind fun r => r.stations.get st)
        ((b.find? fun r => r.row == n).bind fun r => r.stations.get st) := by
    intro a b hab
    induction hab with
    | nil => exact .none
    | @cons r q _ _ hrq _ ih =>
      have hrow := RowCtx.row_of_fixed hrq.1
      rw [List.find?_cons, List.find?_cons, hrow]
      by_cases hn : r.row = n
      · simp only [hn, beq_self_eq_true, Option.bind_some]
        exact hn ▸ hrq.2
      · simp only [beq_eq_false_iff_ne.2 hn]
        exact ih
  exact hfind h

theorem entriesGo.entry?_some (h : entriesGo st R s t) {n : Word} {e : StationEntry} (he : s.entry? st n = some e) :
    ∃ f, t.entry? st n = some f ∧ R n e f := by
  have hrel := h.entry? n
  rw [he] at hrel
  cases ht : t.entry? st n with
  | none => rw [ht] at hrel; cases hrel
  | some f => rw [ht] at hrel; cases hrel with | some hR => exact ⟨f, rfl, hR⟩

/-- What is read from each row's entry before and after. -/
theorem entriesGo.map_eq {α : Type} {F : StationEntry → α} {G : Word → StationEntry → α} (h : entriesGo st R s t)
    (hR : ∀ n e f, R n e f → F f = G n e) :
    t.track.map (fun q => (q.row, (q.stations.get st).map F)) =
      s.track.map fun r => (r.row, (r.stations.get st).map (G r.row)) := by
  have hlists : ∀ {a b : List RowCtx},
      List.Forall₂ (fun r q => q.fixed = r.fixed ∧ Option.Rel (R r.row) (r.stations.get st) (q.stations.get st)) a b →
      b.map (fun q => (q.row, (q.stations.get st).map F)) = a.map fun r => (r.row, (r.stations.get st).map (G r.row)) := by
    intro a b hab
    induction hab with
    | nil => rfl
    | @cons r q _ _ hrq _ ih =>
      rw [List.map_cons, List.map_cons, ih, RowCtx.row_of_fixed hrq.1]
      obtain ⟨-, ho⟩ := hrq
      generalize r.stations.get st = x at ho
      generalize q.stations.get st = y at ho
      cases ho with
      | none => rfl
      | some he => rw [Option.map_some, Option.map_some, hR _ _ _ he]
  exact hlists h

theorem entriesGo.mem (h : entriesGo st R s t) {r : RowCtx} (hr : r ∈ s.track) :
    ∃ q ∈ t.track, q.fixed = r.fixed ∧ Option.Rel (R r.row) (r.stations.get st) (q.stations.get st) := by
  obtain ⟨i, hi, rfl⟩ := List.mem_iff_getElem.1 hr
  have hlen := h.length_eq
  exact ⟨t.track[i]'(hlen ▸ hi), List.getElem_mem _, List.Forall₂.get h hi (hlen ▸ hi)⟩

/-! ## The actions on the rows -/

theorem entriesGo_mapEntry (n : Word) {f : StationEntry → StationEntry} (hf : ∀ e, R n e (f e)) (hR : ∀ m e, m ≠ n → R m e e) :
    entriesGo st R s (s.mapEntry st n f) := by
  refine entriesGo.of_map (g := fun r => if r.row = n then r.mapStation st f else r) rfl (fun r => ?_) fun r => ?_
  · split <;> rfl
  · by_cases hn : r.row = n
    · rw [if_pos hn, RowCtx.mapStation_get, if_pos rfl]
      exact option_rel_map (hn ▸ hf) _
    · rw [if_neg hn]
      exact option_rel_refl (fun e => hR _ e hn) _

theorem entriesGo_mapEntries {f : StationEntry → StationEntry} (hf : ∀ n e, R n e (f e)) :
    entriesGo st R s (s.mapEntries st f) := by
  refine entriesGo.of_map (g := fun r => r.mapStation st f) rfl (fun r => rfl) fun r => ?_
  rw [RowCtx.mapStation_get, if_pos rfl]
  exact option_rel_map (hf _) _

/-- Rows whose places are kept have their entries as they were. -/
theorem entriesGo.of_places (hp : t.places = s.places) (hrows : t.rows = s.rows) (hR : ∀ n e, R n e e) :
    entriesGo st R s t := by
  have hfixed : List.Forall₂ (fun r q : RowCtx => q.fixed = r.fixed) s.track t.track := forall₂_of_map_eq hrows
  have hstations : List.Forall₂ (fun r q : RowCtx => q.stations = r.stations) s.track t.track :=
    (forall₂_of_map_eq hp).imp fun _ _ h => congrArg Prod.snd h
  refine List.forall₂_iff_get.2 ⟨hfixed.length_eq, fun i h₁ h₂ => ⟨hfixed.get h₁ h₂, ?_⟩⟩
  rw [hstations.get h₁ h₂]
  exact option_rel_refl (hR _) _

/-- The entry is the same but for a commit owed. -/
def StationEntry.sameButOwed (e f : StationEntry) : Prop := f = { e with commitOwed := f.commitOwed }

theorem entriesGo_latchCommits : entriesGo st (fun _ e f => e.sameButOwed f) s (s.latchCommits st) := by
  have hfixed : List.Forall₂ (fun r q : RowCtx => q.fixed = r.fixed) s.track (s.latchCommits st).track :=
    forall₂_of_map_eq (s.latchCommits_rows st)
  have hun := s.latchCommits_track st
  refine List.forall₂_iff_get.2 ⟨hfixed.length_eq, fun i h₁ h₂ => ⟨hfixed.get h₁ h₂, ?_⟩⟩
  have h := congrArg (fun r : RowCtx => r.stations.get st) (hun.get h₁ h₂)
  simp only [RowCtx.unlatched, RowCtx.mapStation_get, if_true] at h
  generalize ((s.track.get ⟨i, h₁⟩).stations.get st) = a at h
  generalize (((s.latchCommits st).track.get ⟨i, h₂⟩).stations.get st) = b at h
  cases a with
  | none =>
    cases b with
    | none => exact .none
    | some f => simp at h
  | some e =>
    cases b with
    | none => simp at h
    | some f =>
      refine .some ?_
      simp only [Option.map_some, Option.some.injEq] at h
      have := congrArg (fun x : StationEntry => { x with commitOwed := f.commitOwed }) h
      exact this

/-- The boundaries and the rows chosen moved, before the tests a shift makes (R62). -/
def State.shifted (st : Fin 4) (d : Int) (moves : RowCtx → Bool) (s : State) : State :=
  (s.setStation st { s.station st with base := moved (s.station st).base d }).withTrack
    (s.track.map fun r => if moves r then r.mapStation st fun e => e.advance s.web s.web (moved e.face d) else r)

theorem State.shiftRows_eq (st : Fin 4) (d : Int) (moves : RowCtx → Bool) (s : State) :
    s.shiftRows st d moves =
      (((s.shifted st d moves).latchCommits st).serving st State.foilRecheck).closeTest st := rfl

@[simp] theorem State.closeTest_places (st : Fin 4) (s : State) : (s.closeTest st).places = s.places := by
  unfold State.places
  simp

/-- What a shift does to the entries: those of the rows chosen advance, and a commit may be owed (R62, R81). -/
theorem entriesGo_shiftRows {d : Int} {moves : RowCtx → Bool}
    (hR : ∀ r e f, r.stations.get st = some e →
      (if moves r then e.advance s.web s.web (moved e.face d) else e).sameButOwed f → R r.row e f) :
    entriesGo st R s (s.shiftRows st d moves) := by
  have hmove : entriesGo st (fun n e f => ∀ g, f.sameButOwed g → R n e g) s (s.shifted st d moves) := by
    refine entriesGo.of_map (g := fun r => if moves r then r.mapStation st fun e => e.advance s.web s.web (moved e.face d) else r)
      rfl (fun r => ?_) fun r => ?_
    · split <;> rfl
    · cases hr : r.stations.get st with
      | none =>
        split
        · rw [RowCtx.mapStation_get, if_pos rfl, hr]; exact .none
        · rw [hr]; exact .none
      | some e =>
        have hgo := fun f => hR r e f hr
        split
        · rename_i hm
          rw [RowCtx.mapStation_get, if_pos rfl, hr]
          exact .some fun g hg => hgo g (by rwa [if_pos hm])
        · rename_i hm
          rw [hr]
          exact .some fun g hg => hgo g (by rwa [if_neg hm])
  rw [State.shiftRows_eq]
  generalize s.shifted st d moves = v at hmove
  have hlatch := hmove.trans entriesGo_latchCommits fun _ _ _ g h hg => h g hg
  have hrest : entriesGo st (fun _ e f => f = e) (v.latchCommits st)
      (((v.latchCommits st).serving st State.foilRecheck).closeTest st) :=
    entriesGo.of_places (by rw [State.closeTest_places, State.serving_foilRecheck_places]) (by simp) fun _ _ => rfl
  exact hlatch.trans hrest fun _ _ _ _ h hg => hg ▸ h

end

end Sys2Proof.Machine
end

section
/-! Shifts and drift at a station: what they do to the station and to its entries. -/

namespace Sys2Proof.Machine

theorem moved_moved (x : Pos) (a b : Int) : moved (moved x a) b = moved x (a + b) := by
  unfold moved
  rw [BitVec.ofInt_add, BitVec.add_assoc]

theorem moved_zero (x : Pos) : moved x 0 = x := by simp [moved]

/-! ## Entries -/

/-- An entry through shifts: the zone, the decisions and the events taken stand, what is due stays due, and a row whose
zone end has been taken stays where it is (R62). -/
structure StationEntry.driven (e f : StationEntry) : Prop where
  rest : f = { e with face := f.face, startDue := f.startDue, endDue := f.endDue, commitOwed := f.commitOwed }
  startDue : e.startDue = true → f.startDue = true
  endDue : e.endDue = true → f.endDue = true
  ended : e.endTaken = true → f.face = e.face

theorem StationEntry.driven.refl (e : StationEntry) : e.driven e := ⟨rfl, id, id, fun _ => rfl⟩

theorem StationEntry.driven.endTaken {e f : StationEntry} (h : e.driven f) : f.endTaken = e.endTaken := by rw [h.rest]

theorem StationEntry.driven.trans {e f g : StationEntry} (h : e.driven f) (h' : f.driven g) : e.driven g := by
  refine ⟨?_, fun hd => h'.startDue (h.startDue hd), fun hd => h'.endDue (h.endDue hd), fun ht => ?_⟩
  · rw [h'.rest, h.rest]
  · rw [h'.ended (h.endTaken.trans ht), h.ended ht]

theorem StationEntry.driven_of_owed {e f : StationEntry} (h : e.sameButOwed f) : e.driven f := by
  rw [h]
  exact ⟨rfl, id, id, fun _ => rfl⟩

theorem StationEntry.driven_advance {e f : StationEntry} {w w' x : Pos} (he : e.endTaken = false)
    (h : (e.advance w w' x).sameButOwed f) : e.driven f := by
  rw [h]
  refine ⟨rfl, fun hd => ?_, fun hd => ?_, fun ht => absurd (ht.symm.trans he) (by simp)⟩
  · simp [StationEntry.advance, hd]
  · simp [StationEntry.advance, hd]

section
variable {s : State} {st : Fin 4}

theorem entriesGo.mono_mem {R R' : Word → StationEntry → StationEntry → Prop} {t : State} (h : entriesGo st R s t)
    (hR : ∀ r ∈ s.track, ∀ e f, r.stations.get st = some e → R r.row e f → R' r.row e f) : entriesGo st R' s t := by
  refine List.forall₂_iff_get.2 ⟨h.length_eq, fun i h₁ h₂ => ?_⟩
  obtain ⟨hf, ho⟩ := h.get h₁ h₂
  refine ⟨hf, ?_⟩
  have hmem := hR _ (List.get_mem s.track ⟨i, h₁⟩)
  generalize (s.track.get ⟨i, h₁⟩).stations.get st = a at ho hmem
  generalize (t.track.get ⟨i, h₂⟩).stations.get st = b at ho
  cases ho with
  | none => exact .none
  | some he => exact .some (hmem _ _ rfl he)

theorem entriesGo.of_start {R : Word → StationEntry → StationEntry → Prop} {t u : State} (h : entriesGo st R u t)
    (hu : u.track = s.track) : entriesGo st R s t := by rwa [entriesGo, ← hu]

theorem RowCtx.endToCome_iff {r : RowCtx} {e : StationEntry} (h : r.stations.get st = some e) :
    r.endToCome st = true ↔ e.endTaken = false := by
  simp [RowCtx.endToCome, h]

/-- A shift of every row whose zone end is to come: each moves by as much (R62). -/
theorem entriesGo_shift (k : Int) :
    entriesGo st (fun _ e f => e.driven f ∧ (e.endTaken = false → f.face = moved e.face k)) s (s.shift st k) := by
  refine entriesGo_shiftRows fun r e f he h => ?_
  by_cases ht : e.endTaken = false
  · rw [if_pos ((RowCtx.endToCome_iff he).2 ht)] at h
    exact ⟨StationEntry.driven_advance ht h, fun _ => by rw [h]; rfl⟩
  · rw [if_neg (fun hc => ht ((RowCtx.endToCome_iff he).1 hc))] at h
    exact ⟨StationEntry.driven_of_owed h, fun h' => absurd h' ht⟩

/-- One-tick shifts: a row whose zone end waited before them moves with each (R56). -/
theorem entriesGo_tickShifts (dir : Int) (waiting : List Word) (n : Nat) :
    entriesGo st (fun m e f => e.driven f ∧ (e.endTaken = false → m ∈ waiting → f.face = moved e.face (n * dir))) s
      (s.tickShifts st dir waiting n) := by
  induction n generalizing s with
  | zero =>
    refine entriesGo.of_rows rfl fun m e => ⟨.refl e, fun _ _ => ?_⟩
    rw [Nat.cast_zero, zero_mul, moved_zero]
  | succ n ih =>
    have hfirst : entriesGo st (fun m e f => e.driven f ∧ (e.endTaken = false → m ∈ waiting → f.face = moved e.face dir)) s
        (s.shiftRows st dir fun r => r.endToCome st && (!r.endWaits st || waiting.contains r.row)) := by
      refine entriesGo_shiftRows fun r e f he h => ?_
      by_cases hm : (r.endToCome st && (!r.endWaits st || waiting.contains r.row)) = true
      · have ht := (RowCtx.endToCome_iff he).1 (Bool.and_eq_true_iff.1 hm).1
        rw [if_pos hm] at h
        exact ⟨StationEntry.driven_advance ht h, fun _ _ => by rw [h]; rfl⟩
      · rw [if_neg hm] at h
        refine ⟨StationEntry.driven_of_owed h, fun ht hw => absurd ?_ hm⟩
        rw [(RowCtx.endToCome_iff he).2 ht, List.contains_iff_mem.2 hw, Bool.or_true, Bool.and_true]
    refine hfirst.trans ih fun m e f g ⟨hd, hf⟩ ⟨hd', hf'⟩ => ⟨hd.trans hd', fun ht hw => ?_⟩
    rw [hf' (hd.endTaken.trans ht) hw, hf ht hw, moved_moved]
    congr 1
    push_cast
    ring

/-- The ticks the drift remainder carries for a source amount (R56). -/
def State.driftTicks (s : State) (st : Fin 4) (amount : Int) : Int :=
  ((s.station st).drift + amount * (s.station st).rho).tdiv (s.driftModulus st)

theorem State.drift_eq (st : Fin 4) (amount : Int) (s : State) :
    s.drift st amount =
      (s.setStation st
        { s.station st with
          drift := (s.station st).drift + amount * (s.station st).rho - s.driftTicks st amount * s.driftModulus st }).tickShifts
        st (s.driftTicks st amount).sign ((s.track.filter fun r => r.endWaits st).map RowCtx.row)
        (s.driftTicks st amount).natAbs := rfl

theorem natAbs_mul_sign (k : Int) : (k.natAbs : Int) * k.sign = k := by
  rw [mul_comm, Int.sign_mul_natAbs]

/-- The drift a source amount brings: a row whose zone end had been reached before it moves with each tick (R56). -/
theorem entriesGo_drift (amount : Int) :
    entriesGo st (fun _ e f => e.driven f ∧
      (e.endTaken = false → e.endDue = true → f.face = moved e.face (s.driftTicks st amount))) s (s.drift st amount) := by
  rw [State.drift_eq]
  generalize hu : s.setStation st _ = u
  have htrack : u.track = s.track := by rw [← hu]; simp
  have hticks := (entriesGo_tickShifts (s := u) (st := st) (s.driftTicks st amount).sign
    ((s.track.filter fun r => r.endWaits st).map RowCtx.row) (s.driftTicks st amount).natAbs).of_start htrack
  refine hticks.mono_mem fun r hr e f he ⟨hd, hf⟩ => ⟨hd, fun ht hdue => ?_⟩
  rw [hf ht, natAbs_mul_sign]
  refine List.mem_map_of_mem (List.mem_filter.2 ⟨hr, ?_⟩)
  simp [RowCtx.endWaits, he, hdue, ht]

/-! ## The station -/

/-- A station through shifts by `k` in all: the base moves, and a throw that is OFF may close (R62, R90). -/
def Station.rebased (k : Int) (x y : Station) : Prop :=
  y = { x with base := moved x.base k, throw := y.throw, timer := y.timer } ∧
    (x.throw ≠ .off → y.throw = x.throw ∧ y.timer = x.timer)

theorem Station.rebased.trans {a b : Int} {x y z : Station} (h : x.rebased a y) (h' : y.rebased b z) : x.rebased (a + b) z := by
  refine ⟨?_, fun ht => ?_⟩
  · rw [h'.1, h.1]
    simp [moved_moved]
  · obtain ⟨h1, h2⟩ := h.2 ht
    obtain ⟨h3, h4⟩ := h'.2 (by rwa [h1])
    exact ⟨h3.trans h1, h4.trans h2⟩

theorem Station.rebased_zero (x : Station) : x.rebased 0 x := ⟨by rw [moved_zero], fun _ => ⟨rfl, rfl⟩⟩

/-- The throw of a station moves to CLOSING at the end of a shift where the web has come to the close point (R62, R90). -/
theorem State.shiftRows_station (d : Int) (moves : RowCtx → Bool) :
    (s.shiftRows st d moves).station st =
      let x := s.station st
      let closes := x.state = .tracking ∧ (s.jobs.run = .running ∨ s.jobs.run = .draining) ∧ x.throw = .off ∧
        (s.shiftRows st d moves).closePointReached st = true
      { x with base := moved x.base d
               throw := if closes then .closing else x.throw
               timer := if closes then (s.block st).throwOn else x.timer } := by
  have hx : (((s.shifted st d moves).latchCommits st).serving st State.foilRecheck).station st =
      { s.station st with base := moved (s.station st).base d } := by
    have h : (((s.shifted st d moves).latchCommits st).serving st State.foilRecheck).stations = (s.shifted st d moves).stations := by
      simp
    rw [State.station, h, ← State.station]
    simp [State.shifted, State.station, State.setStation]
  have hcur : (((s.shifted st d moves).latchCommits st).serving st State.foilRecheck).cur = s.cur := by
    simp [State.shifted]
  have hjobs : (((s.shifted st d moves).latchCommits st).serving st State.foilRecheck).jobs = s.jobs := by
    simp [State.shifted]
  rw [State.shiftRows_eq]
  generalize ((s.shifted st d moves).latchCommits st).serving st State.foilRecheck = u at *
  have hclose : (u.closeTest st).closePointReached st = u.closePointReached st :=
    State.closePointReached_congr (by simp) (by simp) (by simp) st
  rw [State.closeTest_station, if_pos rfl, hx, hclose, hjobs, State.block_congr hcur]

theorem State.shiftRows_rebased (d : Int) (moves : RowCtx → Bool) :
    (s.station st).rebased d ((s.shiftRows st d moves).station st) := by
  rw [State.shiftRows_station]
  dsimp only
  refine ⟨rfl, fun ht => ?_⟩
  rw [if_neg fun hc => ht hc.2.2.1, if_neg fun hc => ht hc.2.2.1]
  exact ⟨rfl, rfl⟩

theorem State.tickShifts_rebased (dir : Int) (waiting : List Word) (n : Nat) :
    (s.station st).rebased (n * dir) ((s.tickShifts st dir waiting n).station st) := by
  induction n generalizing s with
  | zero =>
    rw [Nat.cast_zero, zero_mul]
    exact Station.rebased_zero _
  | succ n ih =>
    have h := (s.shiftRows_rebased (st := st) dir fun r => r.endToCome st && (!r.endWaits st || waiting.contains r.row)).trans ih
    rwa [show dir + (n : Int) * dir = ((n + 1 : Nat) : Int) * dir by push_cast; ring] at h

/-- The station through the drift of a source amount (R56). -/
theorem State.drift_station (amount : Int) :
    ({ s.station st with
        drift := (s.station st).drift + amount * (s.station st).rho - s.driftTicks st amount * s.driftModulus st } : Station).rebased
      (s.driftTicks st amount) ((s.drift st amount).station st) := by
  rw [State.drift_eq]
  have h := State.tickShifts_rebased (st := st) (s := s.setStation st
    { s.station st with
      drift := (s.station st).drift + amount * (s.station st).rho - s.driftTicks st amount * s.driftModulus st })
    (s.driftTicks st amount).sign ((s.track.filter fun r => r.endWaits st).map RowCtx.row) (s.driftTicks st amount).natAbs
  rwa [natAbs_mul_sign, State.station_setStation, if_pos rfl] at h

/-- A source amount that carries no tick joins the drift remainder alone (R56). -/
theorem State.drift_of_small {amount : Int}
    (h : ((s.station st).drift + amount * (s.station st).rho).natAbs < 65536 * (s.block st).steps) :
    s.drift st amount =
      s.setStation st { s.station st with drift := (s.station st).drift + amount * (s.station st).rho } := by
  have hticks : s.driftTicks st amount = 0 := by
    rw [State.driftTicks, State.driftModulus]
    rw [← Int.natAbs_eq_zero, Int.natAbs_tdiv]
    exact Nat.div_eq_of_lt (by omega)
  rw [State.drift_eq, hticks]
  simp [State.tickShifts]

end

end Sys2Proof.Machine
end

section
/-! The handover of a row to the channels, and the commit of a row. -/

namespace Sys2Proof.Machine

/-! ## One row of the track -/

/-- The row `r` stands on the track between `front` and `back`, and no other row has its number. -/
def State.rowAt (s : State) (front back : List RowCtx) (r : RowCtx) : Prop :=
  s.track = front ++ r :: back ∧ ∀ q ∈ front ++ back, q.row ≠ r.row

section
variable {s t : State} {front back : List RowCtx} {r : RowCtx} {n : Word}

theorem State.rowAt.congr (h : s.rowAt front back r) (ht : t.track = s.track) : t.rowAt front back r := ⟨ht.trans h.1, h.2⟩

theorem State.rowAt.find? {p : RowCtx → Bool} (h : s.rowAt front back r) (hp : ∀ q ∈ front, p q = false) (hr : p r = true) :
    s.track.find? p = some r := by
  rw [h.1, List.find?_append, List.find?_cons_of_pos hr, List.find?_eq_none.2 fun q hq => by simp [hp q hq]]
  rfl

theorem State.rowAt.row? (h : s.rowAt front back r) : s.row? r.row = some r :=
  h.find? (fun q hq => beq_eq_false_iff_ne.2 (h.2 q (List.mem_append_left _ hq))) (beq_self_eq_true _)

theorem State.rowAt.entry? (h : s.rowAt front back r) (st : Fin 4) : s.entry? st r.row = r.stations.get st := by
  rw [State.entry?, h.row?]
  rfl

theorem before?_append (hf : ∀ q ∈ front, q.row ≠ n) (hr : r.row = n) : before? n (front ++ r :: back) =
    if front = [] then before? n (r :: back) else front.getLast? := by
  induction front with
  | nil => rfl
  | cons p front ih =>
    rw [if_neg (List.cons_ne_nil _ _)]
    cases front with
    | nil => simp [before?, hr]
    | cons q rest =>
      have hq : q.row ≠ n := hf q (by simp)
      have hrest := ih fun x hx => hf x (List.mem_cons_of_mem _ hx)
      rw [if_neg (List.cons_ne_nil _ _)] at hrest
      rw [List.cons_append, List.cons_append, before?, if_neg hq, ← List.cons_append, hrest]
      simp [List.getLast?_cons_cons]

theorem before?_head (hb : ∀ q ∈ back, q.row ≠ n) : before? n (r :: back) = none := by
  induction back generalizing r with
  | nil => rfl
  | cons q back ih =>
    rw [before?, if_neg (hb q (by simp))]
    exact ih fun x hx => hb x (List.mem_cons_of_mem _ hx)

/-- The row before one on the track (R83). -/
theorem State.rowAt.before? (h : s.rowAt front back r) : s.before? r.row = front.getLast? := by
  rw [State.before?, h.1, before?_append (fun q hq => h.2 q (List.mem_append_left _ hq)) rfl]
  split
  · rename_i hf
    rw [before?_head fun q hq => h.2 q (List.mem_append_right _ hq), hf]
    rfl
  · rfl

/-- The row after one on the track (R81). -/
theorem State.rowAt.after? (h : s.rowAt front back r) : s.after? r.row = back.head? := by
  have hafter : ∀ l : List RowCtx, (∀ q ∈ l, q.row ≠ r.row) → Machine.after? r.row (l ++ r :: back) = back.head? := by
    intro l hl
    induction l with
    | nil => cases back <;> simp [Machine.after?]
    | cons p l ih =>
      have hrest := ih fun x hx => hl x (List.mem_cons_of_mem _ hx)
      cases l with
      | nil => rw [List.cons_append, List.nil_append, Machine.after?, if_neg (hl p (by simp))]; exact hrest
      | cons q l => rw [List.cons_append, List.cons_append, Machine.after?, if_neg (hl p (by simp))]; exact hrest
  rw [State.after?, h.1]
  exact hafter front fun q hq => h.2 q (List.mem_append_left _ hq)

/-- A change of the row by its number changes it in its place alone. -/
theorem State.rowAt.mapRow (h : s.rowAt front back r) {f : RowCtx → RowCtx} (hf : (f r).row = r.row) :
    (s.mapRow r.row f).rowAt front back (f r) := by
  have hother : ∀ l : List RowCtx, (∀ q ∈ l, q.row ≠ r.row) → (l.map fun q => if q.row = r.row then f q else q) = l :=
    fun l hl => (List.map_congr_left fun q hq => if_neg (hl q hq)).trans (List.map_id' l)
  refine ⟨?_, fun q hq => by rw [hf]; exact h.2 q hq⟩
  have htrack : (s.mapRow r.row f).track = s.track.map fun q => if q.row = r.row then f q else q := rfl
  rw [htrack, h.1, List.map_append, List.map_cons, hother front fun q hq => h.2 q (List.mem_append_left _ hq),
    hother back fun q hq => h.2 q (List.mem_append_right _ hq), if_pos rfl]

end

/-! ## A late flag -/

/-- A cause raised twice is raised once (R183, R185). -/
theorem Attention.raise_raise (a : Attention) (c : AttnCause) : (a.raise c).raise c = a.raise c := by
  have hcauses : (a.raise c).causes ||| BitVec.twoPow 18 c.bit = (a.raise c).causes := by
    rw [(Attention.raise_frame a c).1, BitVec.or_assoc, BitVec.or_self]
  have hsame : { a.raise c with causes := (a.raise c).causes ||| BitVec.twoPow 18 c.bit } = a.raise c := by
    rw [hcauses]
  rw [Attention.raise, hsame, Attention.signal]
  simp

/-- From `s` to `t` the channel's entries of row `n` had their late flag set, or nothing changed on the track. -/
def lateMarked (c : Fin 8) (n : Word) (late : Prop) [Decidable late] (s t : State) : Prop :=
  t.track = (if late then (s.markLate c n).track else s.track) ∧ t.attn = if late then s.attn.raise .foilLate else s.attn

section
variable {s t u : State} {c : Fin 8} {n : Word} {p q : Prop} [Decidable p] [Decidable q]

theorem State.markLate_track_congr (h : t.track = s.track) : (t.markLate c n).track = (s.markLate c n).track := by
  have ht (u : State) : (u.markLate c n).track =
      u.track.map fun r => if r.row = n then r.mapChannel c fun e => { e with late := true } else r := rfl
  rw [ht, h, ht]

theorem State.markLate_twice (s : State) (c : Fin 8) (n : Word) :
    ((s.markLate c n).markLate c n).track = (s.markLate c n).track := by
  have ht (u : State) : (u.markLate c n).track =
      u.track.map fun r => if r.row = n then r.mapChannel c fun e => { e with late := true } else r := rfl
  have twice (f : Eight (Option ChannelEntry)) (x y : Option ChannelEntry) : (f.set c x).set c y = f.set c y :=
    Eight.ext_get fun i => by simp only [Eight.get_set]; split <;> rfl
  rw [ht, ht, List.map_map]
  refine List.map_congr_left fun r _ => ?_
  by_cases hr : r.row = n
  · simp [hr, RowCtx.mapChannel, twice, Function.comp_def]
  · simp [hr]

theorem lateMarked_of_same (ht : t.track = s.track) (ha : t.attn = s.attn) (hp : ¬ p) : lateMarked c n p s t :=
  ⟨by rw [if_neg hp, ht], by rw [if_neg hp, ha]⟩

theorem lateMarked.trans (h : lateMarked c n p s t) (h' : lateMarked c n q t u) : lateMarked c n (p ∨ q) s u := by
  by_cases hp : p
  · have ht : t.track = (s.markLate c n).track := h.1.trans (if_pos hp)
    have ha : t.attn = s.attn.raise .foilLate := h.2.trans (if_pos hp)
    rw [lateMarked, if_pos (Or.inl hp), if_pos (Or.inl hp)]
    refine ⟨h'.1.trans ?_, h'.2.trans ?_⟩
    · split
      · rw [State.markLate_track_congr ht, State.markLate_twice]
      · exact ht
    · rw [ha, Attention.raise_raise, ite_self]
  · have ht : t.track = s.track := h.1.trans (if_neg hp)
    have ha : t.attn = s.attn := h.2.trans (if_neg hp)
    rw [lateMarked, h'.1, h'.2, State.markLate_track_congr ht, ht, ha]
    simp only [hp, false_or, and_self]

end

/-! ## The handover to one channel -/

/-- The start point of the ramp of `len` up to a stroke on a face (R115). -/
def rampStart (face : Pos) (k : Stroke) (len : Nat) : Pos := moved (moved face k.startOff) (-(len : Int))

/-- The strokes of a row that the channel's list has room for (R108). -/
def State.keptStrokes (s : State) (c : Fin 8) (n : Word) : List Stroke :=
  (s.formStrokes c n).take (24 - (s.channel c).strokes.length)

/-- The channel begins the ramp up to the first stroke of the row at its handover (R115, R116). -/
def State.beginsAtOnce (s : State) (c : Fin 8) (n : Word) (face : Pos) : Prop :=
  (s.channel c).strokes = [] ∧ (s.channel c).plan = none ∧ (s.channel c).state = .standing ∧
    ∃ k, (s.keptStrokes c n).head? = some k ∧
      0 ≤ dist (rampStart face k (rampLength s.wpu.v8p (s.channel c).params)) s.wpu.highWater

theorem formStrokes_row {s : State} {c : Fin 8} {n : Word} {k : Stroke} (h : k ∈ s.formStrokes c n) : k.row = n := by
  have hjoin : ∀ l : List Image, ∀ k ∈ joinSpans n (s.channel c).params l, k.row = n := by
    intro l
    induction l with
    | nil => simp [joinSpans]
    | cons i rest ih =>
      intro k hk
      rw [joinSpans] at hk
      split at hk
      · rename_i y ys hy
        rw [hy] at ih
        split at hk
        · rcases List.mem_cons.1 hk with rfl | hk
          · rfl
          · exact ih k (List.mem_cons_of_mem _ hk)
        · rcases List.mem_cons.1 hk with rfl | hk
          · rfl
          · exact ih k hk
      · rw [List.mem_singleton.1 hk]
  exact hjoin _ k h

section
variable {s : State} {c : Fin 8} {n : Word} {face : Pos}

theorem State.appendStrokes_channel (s : State) (c : Fin 8) (n : Word) :
    (s.appendStrokes n c).channel c =
      { s.channel c with strokes := (s.channel c).strokes ++ s.keptStrokes c n } := by
  have hset (x : Channel) : (s.setChannel c x).channel c = x := by rw [State.channel_setChannel, if_pos rfl]
  unfold State.appendStrokes
  dsimp only
  split
  · exact hset _
  · exact hset _

theorem State.appendStrokes_late (s : State) (c : Fin 8) (n : Word) :
    lateMarked c n (24 - (s.channel c).strokes.length < (s.formStrokes c n).length) s (s.appendStrokes n c) := by
  unfold State.appendStrokes strokeCapacity
  dsimp only
  split
  · rename_i hl
    exact ⟨(if_pos hl).symm, (if_pos hl).symm⟩
  · rename_i hl
    exact lateMarked_of_same rfl rfl hl

theorem dist_pos_iff {a b : Pos} (h : 0 ≤ dist b a) : behind b a = true ↔ 0 < dist b a := by
  refine ⟨fun hb => ?_, behind_of_dist_pos⟩
  rcases h.lt_or_eq with hlt | heq
  · exact hlt
  · have hsame : a = b := by
      have := eq_add_of_dist heq.le
      rw [← heq] at this
      simpa using this
    rw [hsame, behind, dist_self] at hb
    simp at hb

/-- The ramp up that a channel with nothing pending takes at a handover (R115, R116). -/
theorem State.tryRampUp_handed {x : Channel} {k : Stroke} (hx : s.channel c = x) (hstand : x.state = .standing)
    (hplan : x.plan = none) (hk : x.strokes.head? = some k) (hface : s.chanFace c k.row = some face) :
    let start := rampStart face k (rampLength s.wpu.v8p x.params)
    (0 ≤ dist start s.wpu.highWater →
      (s.tryRampUp c s.wpu.highWater).channel c = x.ramping k (rampLength s.wpu.v8p x.params) 0) ∧
    (dist start s.wpu.highWater < 0 → s.tryRampUp c s.wpu.highWater = s) ∧
    lateMarked c k.row (0 < dist start s.wpu.highWater) s (s.tryRampUp c s.wpu.highWater) := by
  dsimp only
  have hwatch : s.watched c = some { stroke := k, len := rampLength s.wpu.v8p x.params } := by
    unfold State.watched State.rampNow
    rw [hx, hplan, hk]
    rfl
  have hstart : s.startPoint c { stroke := k, len := rampLength s.wpu.v8p x.params } =
      some (rampStart face k (rampLength s.wpu.v8p x.params)) := by
    rw [State.startPoint, State.syncStart, hface]
    rfl
  have htry : s.tryRampUp c s.wpu.highWater =
      if atOrBeyond s.wpu.highWater (rampStart face k (rampLength s.wpu.v8p x.params)) then
        if behind (rampStart face k (rampLength s.wpu.v8p x.params)) s.wpu.highWater then
          (s.setChannel c (x.ramping k (rampLength s.wpu.v8p x.params) 0)).markLate c k.row
        else s.setChannel c (x.ramping k (rampLength s.wpu.v8p x.params) 0)
      else s := by
    unfold State.tryRampUp
    simp only [hx, hstand, hwatch, hstart, Channel.beginRampUp_eq]
  rw [htry]
  generalize rampStart face k (rampLength s.wpu.v8p x.params) = start
  have hset (y : Channel) : (s.setChannel c y).channel c = y := by rw [State.channel_setChannel, if_pos rfl]
  by_cases hpast : 0 ≤ dist start s.wpu.highWater
  · have hlate := dist_pos_iff hpast
    rw [if_pos (by simpa [atOrBeyond] using hpast)]
    refine ⟨fun _ => ?_, fun h => absurd h (not_lt.2 hpast), ?_⟩
    · split
      · exact hset _
      · exact hset _
    · by_cases hl : behind start s.wpu.highWater = true
      · rw [if_pos hl]
        have hl' := hlate.1 hl
        exact ⟨(if_pos hl').symm, (if_pos hl').symm⟩
      · rw [if_neg hl]
        exact lateMarked_of_same rfl rfl fun h => hl (hlate.2 h)
  · rw [if_neg (by simpa [atOrBeyond] using hpast)]
    exact ⟨fun h => absurd h hpast, fun _ => rfl, lateMarked_of_same rfl rfl fun h => hpast h.le⟩

end

end Sys2Proof.Machine
end

section
/-! The handover to the channels of a station, and the commit of a row. -/

namespace Sys2Proof.Machine

/-- The row is late at its handover: its strokes find no room, or a start point is behind (R108, R116). -/
def State.lateAtHandover (s : State) (c : Fin 8) (n : Word) (face : Pos) : Prop :=
  24 - (s.channel c).strokes.length < (s.formStrokes c n).length ∨
    s.beginsAtOnce c n face ∧ ∃ k, (s.keptStrokes c n).head? = some k ∧
      0 < dist (rampStart face k (rampLength s.wpu.v8p (s.channel c).params)) s.wpu.highWater

section
variable {s t : State} {c : Fin 8} {n : Word} {face : Pos}

theorem State.tryRampUp_of_not_standing (h : Pos) (hs : (s.channel c).state ≠ .standing) : s.tryRampUp c h = s := by
  unfold State.tryRampUp
  split
  · rename_i hst _
    exact absurd hst hs
  · rfl

theorem State.tryRampUp_of_none (h : Pos) (hw : s.watched c = none) : s.tryRampUp c h = s := by
  unfold State.tryRampUp
  rw [hw]
  split
  · rename_i hp
    exact absurd hp (by simp)
  · rfl

open Classical in
/-- What a handover does to one channel (R86, R106, R108, R115, R116). -/
theorem State.handover_spec (hface : s.chanFace c n = some face) :
    (¬ s.beginsAtOnce c n face →
      (State.handover n c s).channel c = { s.channel c with strokes := (s.channel c).strokes ++ s.keptStrokes c n }) ∧
    (s.beginsAtOnce c n face → ∀ k, (s.keptStrokes c n).head? = some k →
      (State.handover n c s).channel c =
        { s.channel c with state := .rampUp, strokes := (s.keptStrokes c n).tail, current := some k
                           rampLen := rampLength s.wpu.v8p (s.channel c).params, rampProgress := 0 }) ∧
    lateMarked c n (s.lateAtHandover c n face) s (State.handover n c s) := by
  have happend := s.appendStrokes_channel c n
  have hmark := s.appendStrokes_late c n
  have hacts := (channelFree_appendStrokes (s := s) n c).tochannelActs
  have hafter : State.handover n c s =
      if (s.channel c).strokes = [] ∧ (s.channel c).plan = none then
        (s.appendStrokes n c).tryRampUp c (s.appendStrokes n c).wpu.highWater
      else s.appendStrokes n c := by
    rw [State.handover_eq]
    simp only [Bool.and_eq_true, List.isEmpty_iff, Option.isNone_iff_eq_none]
  have hface' : (s.appendStrokes n c).chanFace c n = some face :=
    (State.chanFace_congr hacts.places hacts.cur c n).trans hface
  have hwpu := hacts.wpu
  generalize s.appendStrokes n c = a at *
  have hplain (hb : ¬ s.beginsAtOnce c n face) (ht : State.handover n c s = a) :
      (State.handover n c s).channel c = { s.channel c with strokes := (s.channel c).strokes ++ s.keptStrokes c n } ∧
        lateMarked c n (s.lateAtHandover c n face) s (State.handover n c s) := by
    refine ⟨by rw [ht, happend], ?_⟩
    have hlate : s.lateAtHandover c n face ↔ 24 - (s.channel c).strokes.length < (s.formStrokes c n).length :=
      or_iff_left fun h => hb h.1
    rw [ht, lateMarked, hmark.1, hmark.2]
    simp only [hlate, and_self]
  by_cases hempty : (s.channel c).strokes = [] ∧ (s.channel c).plan = none
  · rw [if_pos hempty] at hafter
    obtain ⟨hstrokes, hplan⟩ := hempty
    have hach : a.channel c = { s.channel c with strokes := s.keptStrokes c n } := by rw [happend, hstrokes]; rfl
    by_cases hstand : (s.channel c).state = .standing
    · cases hk : (s.keptStrokes c n).head? with
      | none =>
        have hb : ¬ s.beginsAtOnce c n face := by
          rintro ⟨-, -, -, k, hk', -⟩
          rw [hk] at hk'
          exact absurd hk' (by simp)
        have hwatch : a.watched c = none := by
          unfold State.watched
          rw [hach]
          simp only [hplan, hk]
          rfl
        obtain ⟨hch, hl⟩ := hplain hb (hafter.trans (State.tryRampUp_of_none _ hwatch))
        exact ⟨fun _ => hch, fun h => absurd h hb, hl⟩
      | some k =>
        have hrow : k.row = n := formStrokes_row (List.mem_of_mem_take (List.mem_of_mem_head? hk))
        obtain ⟨hbegin, hstay, hlate⟩ := State.tryRampUp_handed (s := a) hach hstand hplan hk (hrow ▸ hface')
        rw [← hafter, hwpu] at hbegin hstay hlate
        rw [hrow] at hlate
        have hb : s.beginsAtOnce c n face ↔
            0 ≤ dist (rampStart face k (rampLength s.wpu.v8p (s.channel c).params)) s.wpu.highWater := by
          constructor
          · rintro ⟨-, -, -, k', hk', hpast⟩
            rw [hk] at hk'
            rwa [← Option.some.inj hk'] at hpast
          · exact fun hpast => ⟨hstrokes, hplan, hstand, k, hk, hpast⟩
        have hiff : s.lateAtHandover c n face ↔ 24 - (s.channel c).strokes.length < (s.formStrokes c n).length ∨
            0 < dist (rampStart face k (rampLength s.wpu.v8p (s.channel c).params)) s.wpu.highWater := by
          refine or_congr_right ⟨?_, fun hpast => ⟨hb.2 hpast.le, k, hk, hpast⟩⟩
          rintro ⟨-, k', hk', hpast⟩
          rw [hk] at hk'
          rwa [← Option.some.inj hk'] at hpast
        refine ⟨fun hnb => (hplain hnb (hstay (not_le.1 fun h => hnb (hb.2 h)))).1, fun hyes k' hk' => ?_, ?_⟩
        · rw [hbegin (hb.1 hyes), ← Option.some.inj hk']
          have htail : (s.keptStrokes c n).erase k = (s.keptStrokes c n).tail := by
            obtain ⟨l, hl⟩ := List.head?_eq_some_iff.1 hk
            rw [hl, List.erase_cons_head, List.tail_cons]
          simp only [Channel.ramping, htail, hplan]
        · have := hmark.trans hlate
          rw [lateMarked, this.1, this.2]
          simp only [hiff, and_self]
    · have hb : ¬ s.beginsAtOnce c n face := fun h => hstand h.2.2.1
      have hastand : (a.channel c).state ≠ .standing := by rw [hach]; exact hstand
      obtain ⟨hch, hl⟩ := hplain hb (hafter.trans (State.tryRampUp_of_not_standing _ hastand))
      exact ⟨fun _ => hch, fun h => absurd h hb, hl⟩
  · rw [if_neg hempty] at hafter
    have hb : ¬ s.beginsAtOnce c n face := fun h => hempty ⟨h.1, h.2.1⟩
    obtain ⟨hch, hl⟩ := hplain hb hafter
    exact ⟨fun _ => hch, fun h => absurd h hb, hl⟩

theorem State.formStrokes_congr (hch : t.channel c = s.channel c) (hcur : t.cur = s.cur) (n : Word) :
    t.formStrokes c n = s.formStrokes c n := by
  have himages : t.chanImages c = s.chanImages c := by
    unfold State.chanImages State.plate
    rw [State.chanBlock_congr hcur]
    unfold State.chanStation
    rw [State.chanBlock_congr hcur, hcur]
  rw [State.formStrokes, hch, himages, State.formStrokes]

theorem State.keptStrokes_congr (hch : t.channel c = s.channel c) (hcur : t.cur = s.cur) (n : Word) :
    t.keptStrokes c n = s.keptStrokes c n := by
  rw [State.keptStrokes, State.formStrokes_congr hch hcur, hch, State.keptStrokes]

theorem State.beginsAtOnce_congr (hch : t.channel c = s.channel c) (hcur : t.cur = s.cur) (hw : t.wpu = s.wpu) :
    t.beginsAtOnce c n face ↔ s.beginsAtOnce c n face := by
  rw [State.beginsAtOnce, hch, hw, State.keptStrokes_congr hch hcur, State.beginsAtOnce]

theorem State.lateAtHandover_congr (hch : t.channel c = s.channel c) (hcur : t.cur = s.cur) (hw : t.wpu = s.wpu) :
    t.lateAtHandover c n face ↔ s.lateAtHandover c n face := by
  rw [State.lateAtHandover, State.beginsAtOnce_congr hch hcur hw, hch, hw, State.keptStrokes_congr hch hcur,
    State.formStrokes_congr hch hcur, State.lateAtHandover]

end

/-! ## The handover to the channels of a station -/

section
variable {s t u : State} {front back : List RowCtx} {r : RowCtx} {st : Fin 4} {e : StationEntry} {o : RowOutcome}

theorem State.rowAt.unique {q : RowCtx} (h : s.rowAt front back r) (h' : s.rowAt front back q) : r = q := by
  have := h.1.symm.trans h'.1
  exact (List.cons.inj (List.append_cancel_left this)).1

theorem RowCtx.lateChannel_eq (r : RowCtx) (ch : Eight (Option ChannelEntry)) (c : Fin 8) :
    ({ r with channels := ch } : RowCtx).mapChannel c (fun f => { f with late := true }) =
      { r with channels := ch.set c ((ch.get c).map fun f => { f with late := true }) } := rfl

/-- A late flag set on the row shows in its own entry alone. -/
theorem State.rowAt.lateMarked {late : Prop} [Decidable late] {c : Fin 8} {ch : Eight (Option ChannelEntry)}
    (h : s.rowAt front back { r with channels := ch }) (hl : lateMarked c r.row late s t) :
    t.rowAt front back
      { r with channels := (if late then ch.set c ((ch.get c).map fun f => { f with late := true }) else ch) } := by
  by_cases hlate : late
  · have hmap := h.mapRow (f := fun q => q.mapChannel c fun f => { f with late := true }) rfl
    rw [RowCtx.lateChannel_eq] at hmap
    rw [if_pos hlate]
    refine hmap.congr ?_
    rw [hl.1, if_pos hlate]
    rfl
  · rw [if_neg hlate]
    exact h.congr (by rw [hl.1, if_neg hlate])

theorem handedOver.mono {c : Fin 8} {n : Word} {face : Pos} {before later : Option ChannelEntry}
    (h : handedOver s t st n face o c before later) (hch : u.channel c = t.channel c)
    (ha : t.attn.has .foilLate = true → u.attn.has .foilLate = true) : handedOver s u st n face o c before later := by
  unfold handedOver at *
  dsimp only at *
  rw [hch]
  obtain ⟨h1, h2, h3, h4, h5⟩ := h
  exact ⟨h1, h2, h3, fun hs hl => ⟨ha (h4 hs hl).1, (h4 hs hl).2⟩, h5⟩

/-- One channel's turn in the handover to the channels of a station. -/
def State.handTo (st : Fin 4) (n : Word) (c : Fin 8) (s : State) : State :=
  if s.chanStation c = some st ∧ (s.channel c).state ≠ .idle then State.handover n c s else s

theorem State.serving_handover (st : Fin 4) (n : Word) (s : State) :
    s.serving st (State.handover n) = forChannels (State.handTo st n) s := rfl

theorem State.chanStation_congr (h : t.cur = s.cur) (c : Fin 8) : t.chanStation c = s.chanStation c := by
  rw [State.chanStation, State.chanBlock_congr h, State.chanStation]

theorem State.handTo_acts (st : Fin 4) (n : Word) (c : Fin 8) (s : State) : channelActs c s (s.handTo st n c) := by
  unfold State.handTo
  split
  · exact (channelFree_handover n c).tochannelActs
  · exact .refl s

theorem State.chanFace_of_rowAt {c : Fin 8} {ch : Eight (Option ChannelEntry)}
    (h : s.rowAt front back { r with channels := ch }) (he : r.stations.get st = some e) (hs : s.chanStation c = some st) :
    s.chanFace c r.row = some e.face := by
  have hentry : s.entry? st r.row = some e := (h.entry? st).trans he
  rw [State.chanFace, hs, Option.bind_some, hentry]
  rfl

/-- What a turn does to its channel and to the row's entry for it (R86, R106, R108). -/
theorem State.handTo_turn {c : Fin 8} {ch : Eight (Option ChannelEntry)} (he : r.stations.get st = some e)
    (hstrike : o = .struck ∨ o = .struckUnskipped) (h : u.rowAt front back { r with channels := ch })
    (hch : u.channel c = s.channel c) (hcur : u.cur = s.cur) (hw : u.wpu = s.wpu) :
    ∃ ch', (u.handTo st r.row c).rowAt front back { r with channels := ch' } ∧ (∀ k, k ≠ c → ch'.get k = ch.get k) ∧
      handedOver s (u.handTo st r.row c) st r.row e.face o c (ch.get c) (ch'.get c) ∧
      ((u.handTo st r.row c).attn = u.attn ∨ (u.handTo st r.row c).attn = u.attn.raise .foilLate) := by
  classical
  have hstation := State.chanStation_congr hcur c
  unfold State.handTo
  by_cases hserves : u.chanStation c = some st ∧ (u.channel c).state ≠ .idle
  · rw [if_pos hserves]
    obtain ⟨hplain, hbegin, hlate⟩ := State.handover_spec (State.chanFace_of_rowAt h he hserves.1)
    have hb := State.beginsAtOnce_congr (n := r.row) (face := e.face) hch hcur hw
    have hl := State.lateAtHandover_congr (n := r.row) (face := e.face) hch hcur hw
    rw [State.keptStrokes_congr hch hcur, hch] at hplain hbegin
    rw [hw] at hbegin
    refine ⟨_, h.lateMarked hlate, fun k hk => ?_, ⟨fun hn => ?_, fun _ hnb => hplain fun h => hnb (hb.1 h),
      fun _ hyes => hbegin (hb.2 hyes), fun _ hyes => ⟨?_, ?_⟩, fun _ hno => ?_⟩, ?_⟩
    · split
      · rw [Eight.get_set, if_neg hk]
      · rfl
    · exact absurd ⟨hstrike, hstation ▸ hserves.1, hch ▸ hserves.2⟩ hn
    · rw [hlate.2, if_pos (hl.2 hyes)]
      exact (Attention.raise_has _ _ _).2 (.inl rfl)
    · rw [if_pos (hl.2 hyes), Eight.get_set, if_pos rfl]
    · rw [if_neg fun h => hno (hl.1 h)]
    · rw [hlate.2]
      split
      · exact .inr rfl
      · exact .inl rfl
  · rw [if_neg hserves]
    have hno : ¬ ((o = .struck ∨ o = .struckUnskipped) ∧ s.chanStation c = some st ∧ (s.channel c).state ≠ .idle) :=
      fun hs => hserves ⟨hstation.trans hs.2.1, hch ▸ hs.2.2⟩
    exact ⟨ch, h, fun _ _ => rfl, ⟨fun _ => ⟨hch, rfl⟩, fun hs => absurd hs hno, fun hs => absurd hs hno,
      fun hs => absurd hs hno, fun hs => absurd hs hno⟩, .inl rfl⟩

theorem State.handTo_raised (n : Word) (c : Fin 8) (s : State) : s.attn.Raised (s.handTo st n c).attn := by
  unfold State.handTo
  split
  · exact State.handover_raised n c (.refl _)
  · exact .refl _

/-- The handover of a struck row to the channels of its station (R86, R106, R108, R115, R116). -/
theorem State.serving_handover_spec (h : s.rowAt front back r) (he : r.stations.get st = some e)
    (hstrike : o = .struck ∨ o = .struckUnskipped) :
    ∃ charges, (s.serving st (State.handover r.row)).rowAt front back { r with channels := charges } ∧
      (∀ c, handedOver s (s.serving st (State.handover r.row)) st r.row e.face o c (r.channels.get c) (charges.get c)) ∧
      ((s.serving st (State.handover r.row)).attn = s.attn ∨
        (s.serving st (State.handover r.row)).attn = s.attn.raise .foilLate) := by
  rw [State.serving_handover]
  have hshape : (forChannels (State.handTo st r.row) s).cur = s.cur ∧ (forChannels (State.handTo st r.row) s).wpu = s.wpu ∧
      (∃ ch, (forChannels (State.handTo st r.row) s).rowAt front back { r with channels := ch }) ∧
      ((forChannels (State.handTo st r.row) s).attn = s.attn ∨
        (forChannels (State.handTo st r.row) s).attn = s.attn.raise .foilLate) := by
    refine forChannels_induct (P := fun u => u.cur = s.cur ∧ u.wpu = s.wpu ∧
      (∃ ch, u.rowAt front back { r with channels := ch }) ∧ (u.attn = s.attn ∨ u.attn = s.attn.raise .foilLate))
      (fun c u ⟨hcur, hw, ⟨ch, hrow⟩, ha⟩ => ?_) ⟨rfl, rfl, ⟨r.channels, h⟩, .inl rfl⟩
    have hacts := u.handTo_acts st r.row c
    obtain ⟨ch', hrow', -, -, ha'⟩ := State.handTo_turn (s := u) he hstrike hrow rfl rfl rfl (c := c)
    refine ⟨hacts.cur.trans hcur, hacts.wpu.trans hw, ⟨ch', hrow'⟩, ?_⟩
    rcases ha with ha | ha <;> rcases ha' with ha' | ha' <;> rw [ha', ha]
    · exact .inl rfl
    · exact .inr rfl
    · exact .inr rfl
    · exact .inr (Attention.raise_raise _ _)
  obtain ⟨-, -, ⟨charges, hrow⟩, hattn⟩ := hshape
  refine ⟨charges, hrow, fun c => ?_, hattn⟩
  have hchannel : ∃ ch, (forChannels (State.handTo st r.row) s).rowAt front back { r with channels := ch } ∧
      handedOver s (forChannels (State.handTo st r.row) s) st r.row e.face o c (r.channels.get c) (ch.get c) := by
    refine forChannels_at c
      (P := fun u => u.channel c = s.channel c ∧ u.cur = s.cur ∧ u.wpu = s.wpu ∧
        ∃ ch, u.rowAt front back { r with channels := ch } ∧ ch.get c = r.channels.get c)
      (Q := fun u => ∃ ch, u.rowAt front back { r with channels := ch } ∧
        handedOver s u st r.row e.face o c (r.channels.get c) (ch.get c))
      (fun k u hk ⟨hch, hcur, hw, ch, hrow, hget⟩ => ?_) (fun u ⟨hch, hcur, hw, ch, hrow, hget⟩ => ?_)
      (fun k u hk ⟨ch, hrow, hover⟩ => ?_) ⟨rfl, rfl, rfl, r.channels, h, rfl⟩
    · have hacts := u.handTo_acts st r.row k
      obtain ⟨ch', hrow', hother, -⟩ := State.handTo_turn (s := u) he hstrike hrow rfl rfl rfl (c := k)
      exact ⟨(hacts.others c hk.symm).trans hch, hacts.cur.trans hcur, hacts.wpu.trans hw, ch', hrow',
        (hother c hk.symm).trans hget⟩
    · obtain ⟨ch', hrow', -, hover, -⟩ := State.handTo_turn he hstrike hrow hch hcur hw
      exact ⟨ch', hrow', hget ▸ hover⟩
    · have hacts := u.handTo_acts st r.row k
      obtain ⟨ch', hrow', hother, -⟩ := State.handTo_turn (s := u) he hstrike hrow rfl rfl rfl (c := k)
      refine ⟨ch', hrow', ?_⟩
      rw [hother c hk.symm]
      exact hover.mono (hacts.others c hk.symm) fun ha => (u.handTo_raised r.row k).has _ ha
  obtain ⟨ch, hrow', hover⟩ := hchannel
  have hsame : charges = ch := congrArg RowCtx.channels (hrow.unique hrow')
  rwa [hsame]

end

end Sys2Proof.Machine
end

section
/-! The commit of a row, and its zone-start event. -/

namespace Sys2Proof.Machine

section
variable {s t : State} {front back : List RowCtx} {r q : RowCtx} {st : Fin 4} {e f : StationEntry} {o : RowOutcome}

/-! ## The outcome -/

theorem State.decides_decideOutcome (s : State) (st : Fin 4) (r : RowCtx) (e : StationEntry) :
    s.decides st r e (s.decideOutcome st r e) := by
  unfold State.decideOutcome
  refine ⟨fun h => ?_, fun h => ?_, fun h => ?_, fun h => ?_, fun h hv => ?_, fun h hv => ?_, fun h hv => ?_⟩
  · rw [h]; rfl
  · rw [h]; rfl
  · rw [h]; rfl
  · rw [h]; rfl
  · simp [h, hv]
  · simp [h, hv]
  · simp [h, hv]

/-- A strike is decided in TRACKING alone, as STRUCK or STRUCK_UNSKIPPED (R82). -/
theorem State.decideOutcome_strike (h : (s.decideOutcome st r e).strike = true) :
    (s.station st).state = .tracking ∧
      (s.decideOutcome st r e = .struck ∨ s.decideOutcome st r e = .struckUnskipped) := by
  unfold State.decideOutcome at *
  cases hst : (s.station st).state with
  | tracking =>
    simp only [hst] at h ⊢
    refine ⟨trivial, ?_⟩
    cases hv : r.verdict with
    | splice =>
      simp only [hv] at h
      split at h <;> exact absurd h (by simp [RowOutcome.strike])
    | skip =>
      simp only [hv] at h ⊢
      split at h
      · exact absurd h (by simp [RowOutcome.strike])
      · rename_i hf
        simp [hf]
    | stamp =>
      simp only [hv] at h ⊢
      split at h
      · rename_i hf
        simp [hf]
      · exact absurd h (by simp [RowOutcome.strike])
  | inactive => simp [hst, StationState.outcome, RowOutcome.strike] at h
  | heatWait => simp [hst, StationState.outcome, RowOutcome.strike] at h
  | catching => simp [hst, StationState.outcome, RowOutcome.strike] at h
  | lifted => simp [hst, StationState.outcome, RowOutcome.strike] at h
  | faulted => simp [hst, StationState.outcome, RowOutcome.strike] at h

theorem RowOutcome.strike_iff_of_decided (s : State) (st : Fin 4) (r : RowCtx) (e : StationEntry) :
    (s.decideOutcome st r e).strike = true ↔
      s.decideOutcome st r e = .struck ∨ s.decideOutcome st r e = .struckUnskipped := by
  refine ⟨fun h => (State.decideOutcome_strike h).2, ?_⟩
  rintro (h | h) <;> rw [h] <;> rfl

theorem State.previous?_congr (h : s.rowAt front back r) (h' : t.rowAt front back q) (hr : q.row = r.row)
    (hl : t.lastRetired = s.lastRetired) : t.previous? r.row = s.previous? r.row := by
  have hb : t.before? r.row = s.before? r.row := by rw [← hr, h'.before?, hr, h.before?]
  rw [State.previous?, hb, hl, State.previous?]

/-- What a row's commit decides is read from the other rows, the job, the speed and the station's state. -/
theorem State.decideOutcome_congr (h : s.rowAt front back r) (h' : t.rowAt front back q) (hr : q.row = r.row)
    (hv : q.verdict = r.verdict) (hf : f.face = e.face) (ho : f.zoneStartOff = e.zoneStartOff ∧ f.zoneEndOff = e.zoneEndOff)
    (hst : t.stations = s.stations) (hw : t.wpu = s.wpu) (hc : t.cur = s.cur) (hl : t.lastRetired = s.lastRetired) :
    t.decideOutcome st q f = s.decideOutcome st r e := by
  have hafter : t.after? r.row = s.after? r.row := by rw [← hr, h'.after?, hr, h.after?]
  have hbefore : t.before? r.row = s.before? r.row := by rw [← hr, h'.before?, hr, h.before?]
  have hplanned (n : Nat) : t.planned n = s.planned n := by rw [State.planned, hw, State.planned]
  have hpitch : t.pitch st = s.pitch st := by rw [State.pitch, State.plate_congr hc, State.pitch]
  have harrival (x : RowCtx) : t.arrival st x = s.arrival st x := by rw [State.arrival, State.block_congr hc, State.arrival]
  have hskip : t.skipFeasible st r.row = s.skipFeasible st r.row := by
    unfold State.skipFeasible State.roomBetween State.travelDistance
    rw [hbefore, hafter, hplanned, State.block_congr hc]
  have hend : f.zoneEnd = e.zoneEnd := by rw [StationEntry.zoneEnd, hf, ho.2, StationEntry.zoneEnd]
  have hstart : f.zoneStart = e.zoneStart := by rw [StationEntry.zoneStart, hf, ho.1, StationEntry.zoneStart]
  have hclears (a b : Option RowCtx) : t.clearsSplices st f a b = s.clearsSplices st e a b := by
    have hcb (x : RowCtx) : t.clearsBefore st f x = s.clearsBefore st e x := by
      unfold State.clearsBefore State.spanStart State.openDistance
      rw [hend, harrival, hplanned, State.block_congr hc]
    have hca (x : RowCtx) : t.clearsAfter st f x = s.clearsAfter st e x := by
      unfold State.clearsAfter State.spanEnd State.closeDistance
      rw [hstart, harrival, hplanned, State.block_congr hc, hpitch]
    unfold State.clearsSplices
    simp only [hcb, hca]
  unfold State.decideOutcome
  rw [State.station, hst, hr, hv, hskip, hafter, State.previous?_congr h h' hr hl, hclears]
  rfl

/-! ## The commit -/

/-- The row as its commit to `o` leaves it, with its channel entries (R82). -/
def RowCtx.committedTo (r : RowCtx) (st : Fin 4) (e : StationEntry) (o : RowOutcome) (charges : Eight (Option ChannelEntry)) :
    RowCtx :=
  { r with stations := r.stations.set st (some { e with committed := true, outcome := some o }), channels := charges }

theorem RowCtx.mapStation_of_entry (he : r.stations.get st = some e) (g : StationEntry → StationEntry) :
    r.mapStation st g = { r with stations := r.stations.set st (some (g e)) } := by
  rw [RowCtx.mapStation, he]
  rfl

theorem State.markCommitted_rowAt (h : s.rowAt front back r) (he : r.stations.get st = some e) :
    (s.markCommitted st r.row o).rowAt front back (r.committedTo st e o r.channels) := by
  have hmap := h.mapRow (f := fun x => x.mapStation st fun y => { y with committed := true, outcome := some o }) rfl
  rw [RowCtx.mapStation_of_entry he] at hmap
  exact hmap.congr (by unfold State.markCommitted; simp [State.mapEntry])

theorem State.markCommitted_station (s : State) (st k : Fin 4) (n : Word) (o : RowOutcome) :
    (s.markCommitted st n o).station k =
      if k = st then { s.station st with risk := (s.station st).risk.filter fun m => m != n } else s.station k := by
  unfold State.markCommitted
  exact State.station_setStation _ _ _ _

theorem State.openThrow_station (s : State) (st k : Fin 4) :
    (s.openThrow st).station k = if k = st then (s.station st).openThrow (s.block st).throwOff else s.station k :=
  State.station_setStation _ _ _ _

theorem Station.openThrow_eq (x : Station) (off : Nat) :
    x.openThrow off =
      if x.throw = .closing ∨ x.throw = .on then { x with throw := .opening, timer := off, dwell := 0 } else x := by
  unfold Station.openThrow
  simp only [Throw.engaged_iff]

/-- The throw and the risk set at a commit to a strike (R85, R90). -/
theorem State.committedThrow_strike {u : State} {n : Word} (hstrike : o = .struck ∨ o = .struckUnskipped)
    (htrack : (s.station st).state = .tracking)
    (hu : u.station st = { s.station st with risk := (s.station st).risk.filter fun m => m != n })
    (hjobs : u.jobs = s.jobs) (hcur : u.cur = s.cur) : committedThrow s (u.closeTest st) st n o := by
  have hclose : (u.closeTest st).closePointReached st = u.closePointReached st :=
    State.closePointReached_congr (by simp) (by simp) (by simp) st
  have hstation := u.closeTest_station st st
  rw [if_pos rfl, hu, hjobs, State.block_congr hcur] at hstation
  unfold committedThrow
  dsimp only
  rw [hclose, hstation]
  refine ⟨fun m => ?_, fun hc => ?_, fun hno => absurd hstrike hno.1, fun hc _ => ?_⟩
  · simp
  · have hdue := And.intro htrack hc.2
    simp only [hdue, and_self, if_true]
  · have hdue : ¬ ((s.station st).state = .tracking ∧ (s.jobs.run = .running ∨ s.jobs.run = .draining) ∧
        (s.station st).throw = .off ∧ u.closePointReached st = true) := fun h => hc ⟨hstrike, h.2⟩
    simp only [hdue, if_false]

/-- The throw and the risk set at a commit to no strike (R85, R91). -/
theorem State.committedThrow_other {u : State} {n : Word} (hno : ¬ (o = .struck ∨ o = .struckUnskipped))
    (hu : u.station st = { s.station st with risk := (s.station st).risk.filter fun m => m != n })
    (hprev : u.previous? n = s.previous? n) (hcur : u.cur = s.cur) :
    committedThrow s (if u.previousEnded st n then u.openThrow st else u) st n o := by
  have hopens : u.previousEnded st n = true ↔ ∃ p, s.previous? n = some p ∧ p.endedStrike st = true := by
    unfold State.previousEnded
    rw [hprev]
    cases s.previous? n with
    | none => simp
    | some p => simp
  unfold committedThrow
  dsimp only
  by_cases hp : u.previousEnded st n = true
  · rw [if_pos hp, State.openThrow_station, if_pos rfl, hu, Station.openThrow_eq, State.block_congr hcur]
    refine ⟨fun m => ?_, fun hc => absurd hc.1 hno, fun ho => ?_, fun _ hc => ?_⟩
    · split <;> simp
    · rw [if_pos ho.2.2]
    · rw [if_neg fun he => hc ⟨hno, hopens.1 hp, he⟩]
  · rw [if_neg hp, hu]
    exact ⟨fun m => by simp, fun hc => absurd hc.1 hno, fun ho => absurd (hopens.2 ho.2.1) hp, fun _ _ => rfl⟩

/-- What the commit of a row does to the row, the channels and the throw (R81, R82, R86, R90, R91). -/
theorem State.commit_spec (h : s.rowAt front back r) (he : r.stations.get st = some e) :
    ∃ charges, (s.commit st r).rowAt front back (r.committedTo st e (s.decideOutcome st r e) charges) ∧
      (∀ c, handedOver s (s.commit st r) st r.row e.face (s.decideOutcome st r e) c (r.channels.get c) (charges.get c)) ∧
      ((s.commit st r).attn = s.attn ∨
        (s.decideOutcome st r e = .struck ∨ s.decideOutcome st r e = .struckUnskipped) ∧
          (s.commit st r).attn = s.attn.raise .foilLate) ∧
      committedThrow s (s.commit st r) st r.row (s.decideOutcome st r e) := by
  rw [State.commit_eq s he]
  have hdecided := RowOutcome.strike_iff_of_decided s st r e
  have htracking := fun hs => (State.decideOutcome_strike (s := s) (st := st) (r := r) (e := e) hs).1
  generalize s.decideOutcome st r e = o at *
  dsimp only
  have hrow := State.markCommitted_rowAt (o := o) h he
  have hstation := s.markCommitted_station st st r.row o
  rw [if_pos rfl] at hstation
  have hframe : (s.markCommitted st r.row o).jobs = s.jobs ∧ (s.markCommitted st r.row o).cur = s.cur ∧
      (s.markCommitted st r.row o).lastRetired = s.lastRetired ∧ (s.markCommitted st r.row o).attn = s.attn ∧
      (s.markCommitted st r.row o).channels = s.channels ∧ (s.markCommitted st r.row o).wpu = s.wpu := by
    simp [State.markCommitted]
  obtain ⟨hjobs, hcur, hlast, hattn, hchannels, hwpu⟩ := hframe
  generalize s.markCommitted st r.row o = m at *
  have hchannel (c : Fin 8) : m.channel c = s.channel c := by rw [State.channel, hchannels, State.channel]
  by_cases hstrike : o.strike = true
  · rw [if_pos hstrike]
    have ho := hdecided.1 hstrike
    have hentry : (r.committedTo st e o r.channels).stations.get st = some { e with committed := true, outcome := some o } := by
      simp [RowCtx.committedTo]
    obtain ⟨charges, hrow', hover, hattn'⟩ := State.serving_handover_spec hrow hentry ho
    have hserving : (m.serving st (State.handover r.row)).stations = m.stations ∧
        (m.serving st (State.handover r.row)).jobs = m.jobs ∧ (m.serving st (State.handover r.row)).cur = m.cur := by simp
    obtain ⟨hsts, hsjobs, hscur⟩ := hserving
    change ((m.serving st (State.handover r.row)).rowAt front back _) at hrow'
    change ∀ c, handedOver m (m.serving st (State.handover r.row)) _ _ _ _ _ _ _ at hover
    change (m.serving st (State.handover r.row)).attn = _ ∨ (m.serving st (State.handover r.row)).attn = _ at hattn'
    generalize m.serving st (State.handover r.row) = u at *
    refine ⟨charges, hrow'.congr (by simp), fun c => ?_, ?_, ?_⟩
    · have hc := (hover c).mono (u := u.closeTest st) (by simp [State.channel]) (by simp)
      unfold handedOver at *
      dsimp only at *
      rw [hchannel, State.chanStation_congr hcur, State.formStrokes_congr (hchannel c) hcur, hwpu] at hc
      exact hc
    · have hclose : (u.closeTest st).attn = u.attn := by simp
      rw [hclose, ← hattn]
      exact hattn'.imp id fun ha => ⟨ho, ha⟩
    · refine State.committedThrow_strike ho (htracking hstrike) ?_ (hsjobs.trans hjobs) (hscur.trans hcur)
      rw [State.station, hsts, ← State.station, hstation]
  · rw [if_neg hstrike]
    have ho := fun h => hstrike (hdecided.2 h)
    have hprev : m.previous? r.row = s.previous? r.row := State.previous?_congr h hrow rfl hlast
    have hthrow := State.committedThrow_other (o := o) ho hstation hprev hcur
    have hsame : ∀ t, t = (if m.previousEnded st r.row then m.openThrow st else m) →
        t.track = m.track ∧ t.attn = m.attn ∧ t.channels = m.channels := by
      rintro t rfl
      split <;> simp
    obtain ⟨htrack, hattn', hch⟩ := hsame _ rfl
    generalize (if m.previousEnded st r.row then m.openThrow st else m) = t at *
    refine ⟨r.channels, hrow.congr htrack, fun c => ⟨fun _ => ⟨?_, rfl⟩, fun hs => absurd hs.1 ho, fun hs => absurd hs.1 ho,
      fun hs => absurd hs.1 ho, fun hs => absurd hs.1 ho⟩, .inl (hattn'.trans hattn), hthrow⟩
    rw [State.channel, hch, hchannels, State.channel]

/-! ## The zone-start event -/

/-- The entry as its zone-start event begins with it (R81). -/
def StationEntry.started (e : StationEntry) : StationEntry := { e with startTaken := true }

/-- The row with the entry given at a station. -/
def RowCtx.withEntry (r : RowCtx) (st : Fin 4) (e : StationEntry) : RowCtx :=
  { r with stations := r.stations.set st (some e) }

theorem RowCtx.withEntry_get (r : RowCtx) (st : Fin 4) (e : StationEntry) : (r.withEntry st e).stations.get st = some e := by
  simp [RowCtx.withEntry]

theorem State.rowAt.mapEntry (h : s.rowAt front back r) (he : r.stations.get st = some e) (g : StationEntry → StationEntry) :
    (s.mapEntry st r.row g).rowAt front back (r.withEntry st (g e)) := by
  have hmap := h.mapRow (f := fun x => x.mapStation st g) rfl
  rwa [RowCtx.mapStation_of_entry he] at hmap

theorem Four.set_set {α : Type} (f : Four α) (i : Fin 4) (x y : α) : (f.set i x).set i y = f.set i y :=
  Four.ext_get fun j => by simp only [Four.get_set]; split <;> rfl

theorem StationEntry.checkStart_eq (throw : Throw) (e : StationEntry) :
    e.checkStart throw =
      { e with outcome := if throw ≠ .on ∧ (e.outcome = some .struck ∨ e.outcome = some .struckUnskipped) then
                 some .struckLate else e.outcome } := by
  unfold StationEntry.checkStart
  simp only [Bool.and_eq_true, bne_iff_ne, Bool.or_eq_true, beq_iff_eq]
  split <;> rfl

theorem RowCtx.withEntry_withEntry (r : RowCtx) (st : Fin 4) (e f : StationEntry) :
    (r.withEntry st e).withEntry st f = r.withEntry st f := by
  unfold RowCtx.withEntry
  simp only [Four.set_set]

/-- The zone-start event of a row committed: the throw is checked and nothing else (R87). -/
theorem State.zoneStartEvent_committed (h : s.rowAt front back r) (he : r.stations.get st = some e) (hc : e.committed = true) :
    s.zoneStartEvent st r.row =
      { s with track := front ++ r.withEntry st (e.started.checkStart (s.station st).throw) :: back } := by
  have hstart := h.mapEntry he StationEntry.started
  have hcommit : (s.mapEntry st r.row StationEntry.started).overdueCommit st r.row = s.mapEntry st r.row StationEntry.started := by
    have hrow : (s.mapEntry st r.row StationEntry.started).row? r.row = some (r.withEntry st e.started) := hstart.row?
    unfold State.overdueCommit
    rw [hrow]
    dsimp only
    rw [RowCtx.committedAt, RowCtx.withEntry_get]
    simp [StationEntry.started, hc]
  have hcheck : ((s.mapEntry st r.row StationEntry.started).mapEntry st r.row
      (StationEntry.checkStart (s.station st).throw)).rowAt front back
      ((r.withEntry st e.started).withEntry st (e.started.checkStart (s.station st).throw)) :=
    hstart.mapEntry (r.withEntry_get st _) _
  rw [RowCtx.withEntry_withEntry] at hcheck
  have hevent : s.zoneStartEvent st r.row =
      (s.mapEntry st r.row StationEntry.started).mapEntry st r.row (StationEntry.checkStart (s.station st).throw) := by
    rw [State.zoneStartEvent_eq]
    change (let t := (s.mapEntry st r.row StationEntry.started).overdueCommit st r.row
      t.mapEntry st r.row (StationEntry.checkStart (t.station st).throw)) = _
    rw [hcommit]
    rfl
  have htrack : ∀ u : State, u = s.withTrack u.track → ∀ l, u.track = l → u = { s with track := l } := by
    rintro u hu l rfl
    exact hu
  rw [hevent]
  exact htrack _ rfl _ hcheck.1

/-- A commit to a strike takes no throw to ON or from it, so the check finds it as it stood (R87, R90). -/
theorem committedThrow.checkStart {n : Word} (h : committedThrow s t st n o) :
    ({ f with outcome := some o } : StationEntry).checkStart (t.station st).throw =
      ({ f with outcome := some o } : StationEntry).checkStart (s.station st).throw := by
  rw [StationEntry.checkStart_eq, StationEntry.checkStart_eq]
  by_cases ho : o = .struck ∨ o = .struckUnskipped
  · have hthrow : (t.station st).throw ≠ .on ↔ (s.station st).throw ≠ .on := by
      obtain ⟨-, hcloses, -, hstays⟩ := h
      by_cases hc : (o = .struck ∨ o = .struckUnskipped) ∧ (s.jobs.run = .running ∨ s.jobs.run = .draining) ∧
          (s.station st).throw = .off ∧ t.closePointReached st = true
      · rw [hcloses hc, hc.2.2.1]
        simp
      · rw [hstays hc fun hno => hno.1 ho]
    simp only [hthrow]
  · have hnone : ¬ (some o = some RowOutcome.struck ∨ some o = some RowOutcome.struckUnskipped) := by simpa using ho
    simp only [hnone, and_false, if_false]

theorem StationEntry.checkStart_struck (throw : Throw) (e : StationEntry) : (e.checkStart throw).struck = e.struck := by
  rw [StationEntry.checkStart_eq]
  unfold StationEntry.struck
  dsimp only
  by_cases h : throw ≠ .on ∧ (e.outcome = some .struck ∨ e.outcome = some .struckUnskipped)
  · rw [if_pos h]
    rcases h.2 with h' | h' <;> rw [h'] <;> rfl
  · rw [if_neg h]

/-- The strikes at a station with whether their zone ends are to come: what the close condition is read from (R90). -/
def State.strikes (s : State) (st : Fin 4) : List (Bool × Pos) :=
  s.track.filterMap fun r => (r.stations.get st).map fun e => (e.struck && !e.endTaken, e.zoneStart)

theorem State.closePointReached_eq (s : State) (st : Fin 4) :
    s.closePointReached st =
      match (s.strikes st).find? Prod.fst with
      | some z => atOrBeyond s.web (moved z.2 (-(s.closeDistance st : Int)))
      | none => false := by
  have hfind : ∀ l : List RowCtx,
      ((l.find? fun r => r.liveStrike st).bind fun r => r.stations.get st).map StationEntry.zoneStart =
        ((l.filterMap fun r => (r.stations.get st).map fun e => (e.struck && !e.endTaken, e.zoneStart)).find? Prod.fst).map
          Prod.snd := by
    intro l
    induction l with
    | nil => rfl
    | cons r l ih =>
      rw [List.find?_cons, List.filterMap_cons]
      cases he : r.stations.get st with
      | none => simpa [RowCtx.liveStrike, he] using ih
      | some e =>
        have hlive : r.liveStrike st = (e.struck && !e.endTaken) := by rw [RowCtx.liveStrike, he]
        rw [Option.map_some, List.find?_cons, hlive]
        cases hb : (e.struck && !e.endTaken) with
        | true => simp [he]
        | false => simpa using ih
  have h := hfind s.track
  unfold State.closePointReached State.nextStrike State.strikes
  generalize ((s.track.find? fun r => r.liveStrike st).bind fun r => r.stations.get st) = a at *
  generalize ((s.track.filterMap fun r => (r.stations.get st).map fun e => (e.struck && !e.endTaken, e.zoneStart)).find?
    Prod.fst) = b at *
  cases a with
  | none => cases b with
    | none => rfl
    | some z => simp at h
  | some e => cases b with
    | none => simp at h
    | some z =>
      simp only [Option.map_some, Option.some.injEq] at h
      dsimp only
      rw [h]

theorem State.closePointReached_of_strikes (hs : t.strikes st = s.strikes st) (hw : t.wpu = s.wpu) (hc : t.cur = s.cur) :
    t.closePointReached st = s.closePointReached st := by
  have hdist : t.closeDistance st = s.closeDistance st := by
    rw [State.closeDistance, State.planned, hw, State.block_congr hc, State.closeDistance, State.planned]
  have hweb : t.web = s.web := by rw [State.web, hw, State.web]
  rw [State.closePointReached_eq, hs, hdist, hweb, ← State.closePointReached_eq]

/-- The check of the throw moves no close point (R87, R90). -/
theorem State.checkStart_closePoint (n : Word) (throw : Throw) :
    (s.mapEntry st n (StationEntry.checkStart throw)).closePointReached st = s.closePointReached st := by
  refine State.closePointReached_of_strikes ?_ (by simp) (by simp)
  have ht : (s.mapEntry st n (StationEntry.checkStart throw)).track =
      s.track.map fun r => if r.row = n then r.mapStation st (StationEntry.checkStart throw) else r := rfl
  rw [State.strikes, ht, List.filterMap_map, State.strikes]
  refine List.filterMap_congr fun r _ => ?_
  simp only [Function.comp_apply]
  split
  · rw [RowCtx.mapStation_get, if_pos rfl, Option.map_map]
    congr 1
    funext e
    rw [Function.comp_apply, StationEntry.checkStart_struck, StationEntry.checkStart_eq]
    rfl
  · rfl

/-- The zone-start event of a row not committed: an overdue commit, and then the check of the throw (R81, R87). -/
theorem State.zoneStartEvent_overdue (h : s.rowAt front back r) (he : r.stations.get st = some e) (hc : e.committed = false) :
    ∃ charges, (s.zoneStartEvent st r.row).rowAt front back
        { r.withEntry st (({ e.started with committed := true, outcome := some (s.decideOutcome st r e) } : StationEntry).checkStart
            (s.station st).throw) with channels := charges } ∧
      (∀ c, handedOver s (s.zoneStartEvent st r.row) st r.row e.face (s.decideOutcome st r e) c (r.channels.get c) (charges.get c)) ∧
      ((s.zoneStartEvent st r.row).attn = s.attn ∨
        (s.decideOutcome st r e = .struck ∨ s.decideOutcome st r e = .struckUnskipped) ∧
          (s.zoneStartEvent st r.row).attn = s.attn.raise .foilLate) ∧
      committedThrow s (s.zoneStartEvent st r.row) st r.row (s.decideOutcome st r e) := by
  have hstart := h.mapEntry he StationEntry.started
  have hsame : (s.mapEntry st r.row StationEntry.started).decideOutcome st (r.withEntry st e.started) e.started =
      s.decideOutcome st r e := State.decideOutcome_congr h hstart rfl rfl rfl ⟨rfl, rfl⟩ rfl rfl rfl rfl
  have hevent : s.zoneStartEvent st r.row =
      (((s.mapEntry st r.row StationEntry.started).commit st (r.withEntry st e.started)).mapEntry st r.row
        (StationEntry.checkStart (((s.mapEntry st r.row StationEntry.started).commit st (r.withEntry st e.started)).station st).throw)) := by
    have hrow : (s.mapEntry st r.row StationEntry.started).row? r.row = some (r.withEntry st e.started) := hstart.row?
    have hcommit : (s.mapEntry st r.row StationEntry.started).overdueCommit st r.row =
        (s.mapEntry st r.row StationEntry.started).commit st (r.withEntry st e.started) := by
      unfold State.overdueCommit
      rw [hrow]
      dsimp only
      rw [RowCtx.committedAt, RowCtx.withEntry_get]
      simp [StationEntry.started, hc]
    rw [State.zoneStartEvent_eq]
    change (let t := (s.mapEntry st r.row StationEntry.started).overdueCommit st r.row
      t.mapEntry st r.row (StationEntry.checkStart (t.station st).throw)) = _
    rw [hcommit]
  obtain ⟨charges, hrow, hover, hattn, hthrow⟩ := State.commit_spec hstart (r.withEntry_get st e.started)
  rw [hsame] at hrow hover hattn hthrow
  have hprev : (s.mapEntry st r.row StationEntry.started).previous? r.row = s.previous? r.row :=
    State.previous?_congr h hstart rfl rfl
  rw [hevent]
  generalize (s.mapEntry st r.row StationEntry.started).commit st (r.withEntry st e.started) = t at *
  generalize s.decideOutcome st r e = o at *
  have hthrow' : committedThrow s t st r.row o := by
    unfold committedThrow at *
    dsimp only at *
    rw [← hprev]
    exact hthrow
  have hcheck := hrow.mapEntry (st := st) (e := { e.started with committed := true, outcome := some o })
    (by simp [RowCtx.committedTo]) (StationEntry.checkStart (t.station st).throw)
  have hsimple : ({ e.started with committed := true, outcome := some o } : StationEntry).checkStart (t.station st).throw =
      ({ e.started with committed := true, outcome := some o } : StationEntry).checkStart (s.station st).throw :=
    hthrow'.checkStart (f := { e.started with committed := true })
  rw [hsimple] at hcheck
  refine ⟨charges, ?_, fun c => (hover c).mono rfl id, hattn, ?_⟩
  · have hmerge : (((r.withEntry st e.started).committedTo st e.started o charges).withEntry st
        (({ e.started with committed := true, outcome := some o } : StationEntry).checkStart (s.station st).throw)) =
        { r.withEntry st (({ e.started with committed := true, outcome := some o } : StationEntry).checkStart
            (s.station st).throw) with channels := charges } := by
      unfold RowCtx.committedTo RowCtx.withEntry
      simp only [Four.set_set]
    rw [hmerge] at hcheck
    exact hcheck
  · unfold committedThrow at *
    dsimp only at *
    rw [State.checkStart_closePoint]
    exact hthrow'

end

end Sys2Proof.Machine
end

section
/-! The parts of a zone-end event: the registration, the trim, the band check and the opening rule. -/

namespace Sys2Proof.Machine

section
variable {s t : State} {st : Fin 4}

/-! ## The registration -/

theorem State.writeRegistration_station (n : Word) (error : Option Int) (trim : Int) :
    (s.writeRegistration st n error trim).station st =
      { s.station st with lastError := if error = none then (s.station st).lastError else error } := by
  unfold State.writeRegistration
  cases error with
  | none => rfl
  | some d => exact (State.station_setStation _ _ _ _).trans (if_pos rfl)

theorem State.writeRegistration_track (n : Word) (error : Option Int) (trim : Int) :
    (s.writeRegistration st n error trim).track =
      (s.mapEntry st n fun e => { e with error := error, trim := trim, endTaken := true }).track := by
  unfold State.writeRegistration
  cases error <;> simp

/-- The entry with its registration written (R63, R65). -/
def StationEntry.registered (error : Option Int) (trim : Int) (e : StationEntry) : StationEntry :=
  { e with error := error, trim := trim, endTaken := true }

theorem entriesGo.of_end {R : Word → StationEntry → StationEntry → Prop} {u : State} (h : entriesGo st R s u)
    (hu : t.track = u.track) : entriesGo st R s t := by rwa [entriesGo, hu]

theorem entriesGo_writeRegistration (n : Word) (error : Option Int) (trim : Int) :
    entriesGo st (fun m e f => f = if m = n then e.registered error trim else e) s (s.writeRegistration st n error trim) :=
  (entriesGo_mapEntry n (fun _ => (if_pos rfl).symm) fun _ _ hm => (if_neg hm).symm).of_end
    (State.writeRegistration_track n error trim)

/-! ## The trim -/

/-- The source amount of a trim carries no tick of drift (R56). -/
def State.trimSmall (s : State) (st : Fin 4) (trim : Int) : Prop :=
  ((s.station st).drift + trim * (s.station st).rho).natAbs < 65536 * (s.block st).steps

/-- The trim delivered and added to the trim total, before the shift it makes (R65). -/
def State.trimDelivered (st : Fin 4) (trim : Int) (s : State) : State :=
  (s.deliverCylinder st trim).setStation st
    { s.station st with trimTotal := (s.station st).trimTotal + BitVec.ofInt 32 trim }

theorem State.applyTrim_eq (trim : Int) (s : State) :
    s.applyTrim st trim =
      if trim = 0 then s else ((s.trimDelivered st trim).shift st (-trim)).drift st trim := rfl

theorem State.shift_rebased (k : Int) : (s.station st).rebased k ((s.shift st k).station st) := State.shiftRows_rebased k _

theorem State.trimDelivered_station (trim : Int) : (s.trimDelivered st trim).station st =
    { s.station st with trimTotal := (s.station st).trimTotal + BitVec.ofInt 32 trim } :=
  (State.station_setStation _ _ _ _).trans (if_pos rfl)

/-- The station through a trim: the trim total, the base and the drift, and a throw that is OFF may close (R56, R65). -/
theorem State.applyTrim_station (trim : Int) :
    (s.applyTrim st trim).station st =
        { s.station st with
          trimTotal := (s.station st).trimTotal + BitVec.ofInt 32 trim
          base := ((s.applyTrim st trim).station st).base
          drift := ((s.applyTrim st trim).station st).drift
          throw := ((s.applyTrim st trim).station st).throw
          timer := ((s.applyTrim st trim).station st).timer } ∧
      ((s.station st).throw ≠ .off ∨ trim = 0 →
        ((s.applyTrim st trim).station st).throw = (s.station st).throw ∧
          ((s.applyTrim st trim).station st).timer = (s.station st).timer) ∧
      (s.trimSmall st trim →
        ((s.applyTrim st trim).station st).drift = (s.station st).drift + trim * (s.station st).rho ∧
          ((s.applyTrim st trim).station st).base = moved (s.station st).base (-trim)) := by
  rw [State.applyTrim_eq]
  by_cases h0 : trim = 0
  · rw [if_pos h0, h0]
    refine ⟨by simp, fun _ => ⟨rfl, rfl⟩, fun _ => ⟨by simp, ?_⟩⟩
    rw [neg_zero, moved_zero]
  · rw [if_neg h0]
    have hshift := State.shift_rebased (s := s.trimDelivered st trim) (st := st) (-trim)
    rw [State.trimDelivered_station] at hshift
    have hblock : ((s.trimDelivered st trim).shift st (-trim)).block st = s.block st :=
      State.block_congr (by simp [State.trimDelivered]) st
    generalize (s.trimDelivered st trim).shift st (-trim) = u at *
    have hdrift := State.drift_station (s := u) (st := st) trim
    obtain ⟨hu, huthrow⟩ := hshift
    obtain ⟨hv, hvthrow⟩ := hdrift
    have hurest : (u.station st).drift = (s.station st).drift ∧ (u.station st).rho = (s.station st).rho := by
      rw [hu]; exact ⟨rfl, rfl⟩
    refine ⟨?_, fun ht => ?_, fun hsmall => ?_⟩
    · rw [hv, hu]
    · have ht' := ht.resolve_right h0
      obtain ⟨hthrow, htimer⟩ := huthrow ht'
      obtain ⟨hthrow', htimer'⟩ := hvthrow (by rw [hthrow]; exact ht')
      exact ⟨hthrow'.trans hthrow, htimer'.trans htimer⟩
    · have hsmall' : ((u.station st).drift + trim * (u.station st).rho).natAbs < 65536 * (u.block st).steps := by
        rw [hurest.1, hurest.2, hblock]
        exact hsmall
      rw [State.drift_of_small hsmall', State.station_setStation, if_pos rfl]
      refine ⟨?_, ?_⟩
      · rw [hurest.1, hurest.2]
      · rw [hu]

theorem State.applyTrim_gen (trim : Int) :
    (s.applyTrim st trim).cylGens.get st =
      { s.cylGens.get st with
        acc := (s.cylGens.get st).acc + BitVec.ofInt 48 (trim * ((s.cylGens.get st).ratio : Int)) } := by
  rw [State.applyTrim_eq]
  by_cases h0 : trim = 0
  · rw [if_pos h0, h0]
    simp
  · rw [if_neg h0]
    simp [State.trimDelivered, State.deliverCylinder, State.setGen, StepGen.deliver]

/-- The entries through a trim (R62, R65). -/
theorem entriesGo_applyTrim (trim : Int) :
    entriesGo st (fun _ e f => e.driven f ∧
      (s.trimSmall st trim → f.face = if e.endTaken = true then e.face else moved e.face (-trim))) s (s.applyTrim st trim) := by
  rw [State.applyTrim_eq]
  by_cases h0 : trim = 0
  · rw [if_pos h0, h0]
    refine entriesGo.of_rows rfl fun _ e => ⟨.refl e, fun _ => ?_⟩
    rw [neg_zero, moved_zero, ite_self]
  · rw [if_neg h0]
    have hshift := (entriesGo_shift (s := s.trimDelivered st trim) (st := st) (-trim)).of_start (s := s)
      (by simp [State.trimDelivered])
    have hstation := State.shift_rebased (s := s.trimDelivered st trim) (st := st) (-trim)
    rw [State.trimDelivered_station] at hstation
    have hblock : ((s.trimDelivered st trim).shift st (-trim)).block st = s.block st :=
      State.block_congr (by simp [State.trimDelivered]) st
    generalize (s.trimDelivered st trim).shift st (-trim) = u at *
    have hdriven := hshift.trans (entriesGo_drift (s := u) (st := st) trim) (R'' := fun _ e f => e.driven f)
      fun _ _ _ _ h h' => h.1.trans h'.1
    by_cases hsmall : s.trimSmall st trim
    · have hsmall' : ((u.station st).drift + trim * (u.station st).rho).natAbs < 65536 * (u.block st).steps := by
        rw [hstation.1, hblock]
        exact hsmall
      rw [State.drift_of_small hsmall']
      refine (hshift.mono fun _ e f ⟨hd, hf⟩ => ⟨hd, fun _ => ?_⟩).of_end (by simp)
      split
      · rename_i ht
        exact hd.ended ht
      · rename_i ht
        exact hf (by simpa using ht)
    · exact hdriven.mono fun _ _ _ h => ⟨h, fun hs => absurd hs hsmall⟩

/-! ## Leaving TRACKING -/

theorem State.setState_station (x : StationState) : (s.setState st x).station st = { s.station st with state := x, dwell := 0 } :=
  (State.station_setStation _ _ _ _).trans (if_pos rfl)

theorem State.leaveFor_station (x : StationState) :
    (s.leaveFor st x).station st =
      { (s.station st).openThrow (s.block st).throwOff with state := x, dwell := 0 } := by
  have hset : ((s.openThrow st).setState st x).station st =
      { (s.station st).openThrow (s.block st).throwOff with state := x, dwell := 0 } := by
    rw [State.setState_station, State.openThrow_station, if_pos rfl]
  unfold State.leaveFor
  dsimp only
  split
  · have hstations : (((s.openThrow st).setState st x).departure st x).stations = ((s.openThrow st).setState st x).stations := by
      simp
    rw [State.station, hstations, ← State.station, hset]
  · exact hset

theorem State.departure_eq (x : StationState) (s : State) :
    s.departure st x = (s.mapEntries st (StationEntry.rename x.outcome)).withdrawRows st
      ((s.track.filter fun r => r.unstartedStrike st).map RowCtx.row) := rfl

theorem State.withdrawRows_places (l : List Word) : (s.withdrawRows st l).places = s.places := by
  induction l generalizing s with
  | nil => rfl
  | cons n l ih => exact ih.trans (State.serving_withdraw_places n)

theorem entriesGo_leaveFor (x : StationState) (hs : (s.station st).state = .tracking) :
    entriesGo st (fun _ e f => f = e.rename x.outcome) s (s.leaveFor st x) := by
  unfold State.leaveFor
  simp only [hs, beq_self_eq_true, if_true]
  rw [State.departure_eq]
  have hrename : entriesGo st (fun _ e f => f = e.rename x.outcome) s
      (((s.openThrow st).setState st x).mapEntries st (StationEntry.rename x.outcome)) :=
    entriesGo.of_start (u := (s.openThrow st).setState st x) (entriesGo_mapEntries fun _ _ => rfl) (by simp)
  generalize ((s.openThrow st).setState st x).mapEntries st (StationEntry.rename x.outcome) = u at hrename
  exact hrename.trans (entriesGo.of_places (R := fun _ e f => f = e) (State.withdrawRows_places _) (by simp) fun _ _ => rfl)
    fun _ _ _ _ h h' => h'.trans h

/-! ## The band check -/

/-- The band check takes the station to TRACKING (R66). -/
def State.catches (s : State) (st : Fin 4) (r : RowCtx) (error : Option Int) : Prop :=
  r.status ≠ .missing ∧ (s.station st).state = .catching ∧ ∃ d, error = some d ∧ d.natAbs ≤ (s.block st).catchBand

/-- The band check takes the station out of TRACKING (R66). -/
def State.driftsOff (s : State) (st : Fin 4) (r : RowCtx) (error : Option Int) : Prop :=
  r.status ≠ .missing ∧ (s.station st).state = .tracking ∧ ∃ d, error = some d ∧ 2 * (s.block st).catchBand < d.natAbs

theorem MarkStatus.steers_iff (m : MarkStatus) : m.steers = true ↔ m ≠ .missing := by
  cases m <;> simp [MarkStatus.steers]

/-- The band check by what it does to the station (R66). -/
theorem State.bandCheck_cases (r : RowCtx) (error : Option Int) (s : State) :
    (s.catches st r error → s.bandCheck st r error = (s.setState st .tracking).raise .regCaught) ∧
    (s.driftsOff st r error → s.bandCheck st r error = (s.leaveFor st .catching).raise .regDrift) ∧
    (¬ s.catches st r error → ¬ s.driftsOff st r error → s.bandCheck st r error = s) := by
  unfold State.bandCheck
  refine ⟨?_, ?_, fun hc hd => ?_⟩
  · rintro ⟨hm, hst, d, rfl, hd⟩
    simp [(MarkStatus.steers_iff _).2 hm, hst, hd]
  · rintro ⟨hm, hst, d, rfl, hd⟩
    simp [(MarkStatus.steers_iff _).2 hm, hst, hd]
  · cases error with
    | none => rfl
    | some d =>
      dsimp only
      split
      · rename_i hm
        have hm' := (MarkStatus.steers_iff _).1 hm
        split
        · rename_i hst
          rw [if_neg fun h => hc ⟨hm', hst, d, rfl, h⟩]
        · rename_i hst
          rw [if_neg fun h => hd ⟨hm', hst, d, rfl, h⟩]
        · rfl
      · rfl

end

end Sys2Proof.Machine
end

section
/-! The zone-end event: its spec from its parts. -/

namespace Sys2Proof.Machine

section
variable {s t u : State} {st : Fin 4} {R : Word → StationEntry → StationEntry → Prop}

/-! ## The opening rule -/

/-- The opening rule at the zone end of row `n` asks for the throw to open (R91). -/
def State.opensAtEnd (s : State) (st : Fin 4) (n : Word) : Prop :=
  (∃ e, s.entry? st n = some e ∧ e.struck = true) ∧
    ((∃ g, ((s.after? n).bind fun q => q.stations.get st) = some g ∧ g.committed = true ∧ g.struck = false) ∨
      s.jobs.run = .draining ∧ n = s.mark.lastOpened)

theorem committedNoStrike_iff (q : Option RowCtx) :
    committedNoStrike st q = true ↔
      ∃ g, (q.bind fun q => q.stations.get st) = some g ∧ g.committed = true ∧ g.struck = false := by
  unfold committedNoStrike
  split
  · rename_i g hg
    simp [hg]
  · rename_i hg
    simp [hg]

theorem State.openAtEnd_cases (n : Word) (s : State) :
    (s.opensAtEnd st n → s.openAtEnd st n = s.openThrow st) ∧ (¬ s.opensAtEnd st n → s.openAtEnd st n = s) := by
  unfold State.openAtEnd State.opensAtEnd State.entry?
  cases hr : s.row? n with
  | none => simp
  | some r =>
    have hstruck : r.struckAt st = true ↔ ∃ e, r.stations.get st = some e ∧ e.struck = true := by
      unfold RowCtx.struckAt
      cases r.stations.get st <;> simp
    simp only [Option.bind_some, Bool.and_eq_true, hstruck, Bool.or_eq_true, committedNoStrike_iff, beq_iff_eq]
    exact ⟨fun h => if_pos h, fun h => if_neg h⟩

theorem entriesGo.after? (h : entriesGo st R s t) (n : Word) :
    Option.Rel (fun e f => ∃ m, R m e f) ((s.after? n).bind fun q => q.stations.get st)
      ((t.after? n).bind fun q => q.stations.get st) := by
  have hafter : ∀ {a b : List RowCtx},
      List.Forall₂ (fun r q => q.fixed = r.fixed ∧ Option.Rel (R r.row) (r.stations.get st) (q.stations.get st)) a b →
      Option.Rel (fun e f => ∃ m, R m e f) ((Machine.after? n a).bind fun q => q.stations.get st)
        ((Machine.after? n b).bind fun q => q.stations.get st) := by
    intro a b hab
    induction hab with
    | nil => exact .none
    | cons hrq hrest ih =>
      cases hrest with
      | nil => exact .none
      | cons hxy hrest' =>
        rw [Machine.after?, Machine.after?, RowCtx.row_of_fixed hrq.1]
        split
        · exact option_rel_mono (fun e f hR => ⟨_, hR⟩) hxy.2
        · exact ih
  exact hafter h

/-- What the opening rule reads of the entries: whether they are strikes, and committed. -/
theorem State.opensAtEnd_congr (h : entriesGo st (fun _ e f => f.struck = e.struck ∧ f.committed = e.committed) s t)
    (hrun : t.jobs.run = s.jobs.run) (hlast : t.mark.lastOpened = s.mark.lastOpened) (n : Word) :
    t.opensAtEnd st n ↔ s.opensAtEnd st n := by
  have hread {p : StationEntry → Prop} {S : StationEntry → StationEntry → Prop} {a b : Option StationEntry}
      (hab : Option.Rel S a b) (hp : ∀ e f, S e f → (p f ↔ p e)) : (∃ f, b = some f ∧ p f) ↔ ∃ e, a = some e ∧ p e := by
    cases hab with
    | none => simp
    | some hS => simp [hp _ _ hS]
  unfold State.opensAtEnd
  rw [hrun, hlast, hread (h.entry? n) fun e f hS => by rw [hS.1], hread (h.after? n) fun e f ⟨_, hS⟩ => by rw [hS.1, hS.2]]

/-! ## The band check, in the entries and the station -/

open Classical in
theorem entriesGo_bandCheck (r : RowCtx) (error : Option Int) :
    entriesGo st (fun _ e f => f = if s.driftsOff st r error then e.rename .catching else e) s (s.bandCheck st r error) := by
  obtain ⟨hcatch, hdrift, hstay⟩ := State.bandCheck_cases (st := st) r error s
  by_cases hd : s.driftsOff st r error
  · rw [hdrift hd]
    simp only [hd, if_true]
    exact (entriesGo_leaveFor .catching hd.2.1).of_end (by simp)
  · simp only [hd, if_false]
    by_cases hc : s.catches st r error
    · rw [hcatch hc]
      exact entriesGo.of_rows (by simp) fun _ _ => rfl
    · rw [hstay hc hd]
      exact entriesGo.of_rows rfl fun _ _ => rfl

/-- The band check leaves these of the station (R66). -/
theorem State.bandCheck_station (r : RowCtx) (error : Option Int) (s : State) :
    let x := s.station st
    let y := (s.bandCheck st r error).station st
    y = { x with state := y.state, throw := y.throw, timer := y.timer, dwell := y.dwell } ∧
      (s.catches st r error → y.state = .tracking ∧ (s.bandCheck st r error).attn.has .regCaught = true) ∧
      (s.driftsOff st r error → y.state = .catching ∧ (s.bandCheck st r error).attn.has .regDrift = true) ∧
      (¬ s.catches st r error → ¬ s.driftsOff st r error → y.state = x.state) ∧
      (x.throw = .closing ∨ x.throw = .on → s.driftsOff st r error →
        y.throw = .opening ∧ y.timer = (s.block st).throwOff) ∧
      (¬ (x.throw = .closing ∨ x.throw = .on) ∨ ¬ s.driftsOff st r error → y.throw = x.throw ∧ y.timer = x.timer) := by
  have hexclude : s.driftsOff st r error → ¬ s.catches st r error := fun hd hc => by
    have := hd.2.1.symm.trans hc.2.1
    exact absurd this (by simp)
  obtain ⟨hcatch, hdrift, hstay⟩ := State.bandCheck_cases (st := st) r error s
  dsimp only
  by_cases hd : s.driftsOff st r error
  · rw [hdrift hd]
    have hraised : ((s.leaveFor st .catching).raise .regDrift).station st = (s.leaveFor st .catching).station st := rfl
    have hopen := (s.station st).openThrow_eq (s.block st).throwOff
    rw [hraised, State.leaveFor_station, hopen]
    refine ⟨?_, fun hc => absurd hc (hexclude hd), fun _ => ⟨rfl, (Attention.raise_has _ _ _).2 (.inl rfl)⟩,
      fun _ hn => absurd hd hn, fun ht _ => ?_, fun hn => ?_⟩
    · split <;> rfl
    · rw [if_pos ht]
      exact ⟨rfl, rfl⟩
    · rw [if_neg (hn.resolve_right fun h => h hd)]
      exact ⟨rfl, rfl⟩
  · by_cases hc : s.catches st r error
    · rw [hcatch hc]
      have hraised : ((s.setState st .tracking).raise .regCaught).station st = (s.setState st .tracking).station st := rfl
      rw [hraised, State.setState_station]
      exact ⟨rfl, fun _ => ⟨rfl, (Attention.raise_has _ _ _).2 (.inl rfl)⟩, fun h => absurd h hd, fun h => absurd hc h,
        fun _ h => absurd h hd, fun _ => ⟨rfl, rfl⟩⟩
    · rw [hstay hc hd]
      exact ⟨rfl, fun h => absurd h hc, fun h => absurd h hd, fun _ _ => rfl, fun _ h => absurd h hd, fun _ => ⟨rfl, rfl⟩⟩

/-- The opening rule leaves all of the station but its throw, its timer and its dwell count (R91). -/
theorem State.openAtEnd_station (n : Word) (s : State) :
    let x := s.station st
    let y := (s.openAtEnd st n).station st
    y = { x with throw := y.throw, timer := y.timer, dwell := y.dwell } ∧
      (x.throw = .closing ∨ x.throw = .on → s.opensAtEnd st n → y.throw = .opening ∧ y.timer = (s.block st).throwOff) ∧
      (¬ (x.throw = .closing ∨ x.throw = .on) ∨ ¬ s.opensAtEnd st n → y.throw = x.throw ∧ y.timer = x.timer) := by
  obtain ⟨hopens, hstays⟩ := State.openAtEnd_cases (st := st) n s
  dsimp only
  by_cases ho : s.opensAtEnd st n
  · rw [hopens ho, State.openThrow_station, if_pos rfl, Station.openThrow_eq]
    refine ⟨?_, fun ht _ => ?_, fun hn => ?_⟩
    · split <;> rfl
    · rw [if_pos ht]
      exact ⟨rfl, rfl⟩
    · rw [if_neg (hn.resolve_right fun h => h ho)]
      exact ⟨rfl, rfl⟩
  · rw [hstays ho]
    exact ⟨rfl, fun _ h => absurd h ho, fun _ => ⟨rfl, rfl⟩⟩

/-! ## The zone-end event in its parts -/

/-- The registration of row `r` written, and its trim applied: a zone-end event before its band check (R63, R65). -/
def State.zoneTrimmed (st : Fin 4) (r : RowCtx) (e : StationEntry) (s : State) : State :=
  (s.writeRegistration st r.row (s.measure st r e) (s.decideTrim st r (s.measure st r e))).applyTrim st
    (s.decideTrim st r (s.measure st r e))

theorem State.zoneEndEvent_eq {front back : List RowCtx} {r : RowCtx} {e : StationEntry} (h : s.rowAt front back r)
    (he : r.stations.get st = some e) :
    s.zoneEndEvent st r.row = ((s.zoneTrimmed st r e).bandCheck st r (s.measure st r e)).openAtEnd st r.row := by
  unfold State.zoneEndEvent
  rw [h.row?]
  dsimp only
  rw [he]
  rfl

theorem State.trimSmall_writeRegistration (n : Word) (error : Option Int) (trim : Int) (s : State) :
    (s.writeRegistration st n error trim).trimSmall st trim ↔ s.trimSmall st trim := by
  have hblock : (s.writeRegistration st n error trim).block st = s.block st := State.block_congr (by simp) st
  rw [State.trimSmall, State.writeRegistration_station, hblock, State.trimSmall]

/-- What is decided of an entry and taken of its events. -/
def StationEntry.decided (e f : StationEntry) : Prop :=
  f.outcome = e.outcome ∧ f.committed = e.committed ∧ f.startTaken = e.startTaken

/-- The entries through a zone-end event's registration and trim (R62, R63, R65). -/
theorem entriesGo_zoneTrimmed (r : RowCtx) (e : StationEntry) :
    entriesGo st (fun n f g => f.decided g ∧
      (n = r.row → g.error = s.measure st r e ∧ g.trim = s.decideTrim st r (s.measure st r e) ∧ g.endTaken = true ∧
        g.face = f.face) ∧
      (n ≠ r.row → g.error = f.error ∧ g.trim = f.trim ∧ g.endTaken = f.endTaken) ∧
      (s.trimSmall st (s.decideTrim st r (s.measure st r e)) → n ≠ r.row →
        g.face = if f.endTaken = true then f.face else moved f.face (-(s.decideTrim st r (s.measure st r e))))) s
      (s.zoneTrimmed st r e) := by
  unfold State.zoneTrimmed
  generalize s.measure st r e = error
  generalize s.decideTrim st r error = trim
  have hreg := entriesGo_writeRegistration (s := s) (st := st) r.row error trim
  have hsmall := s.trimSmall_writeRegistration (st := st) r.row error trim
  refine hreg.trans (entriesGo_applyTrim trim) fun n f g k hg ⟨hd, hface⟩ => ?_
  rw [hsmall] at hface
  by_cases hn : n = r.row
  · rw [if_pos hn] at hg
    have hk := hd.rest
    rw [hg] at hk hd
    refine ⟨?_, fun _ => ⟨?_, ?_, ?_, hd.ended rfl⟩, fun h => absurd hn h, fun _ h => absurd hn h⟩
    · rw [StationEntry.decided, hk]
      exact ⟨rfl, rfl, rfl⟩
    · rw [hk]; rfl
    · rw [hk]; rfl
    · rw [hk]; rfl
  · rw [if_neg hn] at hg
    have hk := hd.rest
    rw [hg] at hk hface
    refine ⟨?_, fun h => absurd h hn, fun _ => ?_, fun hs _ => hface hs⟩
    · rw [StationEntry.decided, hk]
      exact ⟨rfl, rfl, rfl⟩
    · rw [hk]
      exact ⟨rfl, rfl, rfl⟩

/-- The station through a zone-end event's registration and trim (R63, R65). -/
theorem State.zoneTrimmed_station (r : RowCtx) (e : StationEntry) (s : State) :
    let error := s.measure st r e
    let trim := s.decideTrim st r error
    let x := s.station st
    let y := (s.zoneTrimmed st r e).station st
    y.state = x.state ∧ y.lastError = (if error = none then x.lastError else error) ∧ y.indexSeen = x.indexSeen ∧
      y.trimTotal = x.trimTotal + BitVec.ofInt 32 trim ∧
      (x.throw ≠ .off ∨ trim = 0 → y.throw = x.throw ∧ y.timer = x.timer) ∧
      (s.trimSmall st trim → y.drift = x.drift + trim * x.rho ∧ y.base = moved x.base (-trim)) := by
  dsimp only
  unfold State.zoneTrimmed
  generalize s.measure st r e = error
  generalize s.decideTrim st r error = trim
  have hreg := s.writeRegistration_station (st := st) r.row error trim
  have hsmall := s.trimSmall_writeRegistration (st := st) r.row error trim
  obtain ⟨hy, hthrow, hdrift⟩ := (s.writeRegistration st r.row error trim).applyTrim_station (st := st) trim
  rw [hsmall] at hdrift
  rw [hreg] at hy hthrow hdrift
  generalize ((s.writeRegistration st r.row error trim).applyTrim st trim).station st = y at *
  refine ⟨?_, ?_, ?_, ?_, hthrow, hdrift⟩
  all_goals rw [hy]

theorem State.zoneTrimmed_gen (r : RowCtx) (e : StationEntry) (s : State) :
    (s.zoneTrimmed st r e).cylGens.get st =
      { s.cylGens.get st with
        acc := (s.cylGens.get st).acc +
          BitVec.ofInt 48 (s.decideTrim st r (s.measure st r e) * ((s.cylGens.get st).ratio : Int)) } := by
  unfold State.zoneTrimmed
  rw [State.applyTrim_gen]
  simp

end

end Sys2Proof.Machine
end

section
/-! Rows handed to the channels of a station for withdrawal. -/

namespace Sys2Proof.Machine

section
variable {s t u : State} {st : Fin 4} {c : Fin 8} {n : Word} {x : Channel}

/-! ## One row, one channel -/

/-- One channel's turn in the withdrawal of a row from the channels of a station. -/
def State.withdrawFrom (st : Fin 4) (n : Word) (c : Fin 8) (s : State) : State :=
  if s.chanStation c = some st ∧ (s.channel c).state ≠ .idle then State.withdraw n c s else s

theorem State.serving_withdraw (st : Fin 4) (n : Word) (s : State) :
    s.serving st (State.withdraw n) = forChannels (State.withdrawFrom st n) s := rfl

theorem State.withdrawFrom_acts (st : Fin 4) (n : Word) (c : Fin 8) (s : State) : channelActs c s (s.withdrawFrom st n c) := by
  unfold State.withdrawFrom
  split
  · exact (channelFree_withdraw n c).tochannelActs
  · exact .refl s

theorem State.withdrawFrom_late (k : Fin 8) (n m : Word) (hl : s.allLate c m) : (s.withdrawFrom st n k).allLate c m := by
  unfold State.withdrawFrom State.withdraw
  split
  · dsimp only
    split
    · exact State.tryRampUp_allLate (s := s.setChannel k ((s.channel k).withoutRow n)) hl
    · exact hl
  · exact hl

theorem State.withdrawFrom_has (k : Fin 8) (n : Word) {a : AttnCause} (ha : s.attn.has a = true) :
    (s.withdrawFrom st n k).attn.has a = true := by
  unfold State.withdrawFrom
  split
  · exact (State.withdraw_raised n k (.refl _)).has a ha
  · exact ha

/-- The channel takes part in the withdrawal: it serves the station and has a stroke of the row pending (R128). -/
def State.loses (s : State) (st : Fin 4) (c : Fin 8) (n : Word) : Prop :=
  s.chanStation c = some st ∧ (s.channel c).state ≠ .idle ∧ ∃ k ∈ (s.channel c).strokes, k.row = n

theorem State.withdrawFrom_of_loses (h : s.loses st c n) :
    s.withdrawFrom st n c = (s.setChannel c ((s.channel c).withoutRow n)).tryRampUp c s.wpu.highWater := by
  obtain ⟨hs, hi, k, hk, hn⟩ := h
  have hany : ((s.channel c).strokes.any fun k => k.row == n) = true := List.any_eq_true.2 ⟨k, hk, beq_iff_eq.2 hn⟩
  unfold State.withdrawFrom State.withdraw
  rw [if_pos ⟨hs, hi⟩]
  dsimp only
  rw [if_pos hany]

theorem State.withdrawFrom_of_keeps (h : ¬ s.loses st c n) : s.withdrawFrom st n c = s := by
  unfold State.withdrawFrom State.withdraw
  split
  · rename_i hs
    dsimp only
    rw [if_neg]
    intro hany
    obtain ⟨k, hk, hn⟩ := List.any_eq_true.1 hany
    exact h ⟨hs.1, hs.2, k, hk, beq_iff_eq.1 hn⟩
  · rfl

theorem State.loses_congr (hc : t.channel c = s.channel c) (hcur : t.cur = s.cur) : t.loses st c n ↔ s.loses st c n := by
  rw [State.loses, hc, State.chanStation_congr hcur, State.loses]

/-- A row withdrawn from the channels of a station, seen at one channel (R128). -/
theorem State.serving_withdraw_channel (s : State) (st : Fin 4) (c : Fin 8) (n : Word) :
    let t := s.serving st (State.withdraw n)
    (¬ s.loses st c n → t.channel c = s.channel c) ∧
    (s.loses st c n → (s.channel c).state ≠ .standing → t.channel c = (s.channel c).withoutRow n) ∧
    (s.loses st c n → (s.channel c).state = .standing →
      (t.channel c).accounts = (s.channel c).accounts ∧ (∀ k ∈ (t.channel c).strokes, k ∈ (s.channel c).strokes ∧ k.row ≠ n) ∧
        rampTaken s t c ((s.channel c).withoutRow n)) := by
  dsimp only
  rw [State.serving_withdraw]
  refine forChannels_at c
    (P := fun u => u.channel c = s.channel c ∧ u.cur = s.cur ∧ u.wpu = s.wpu ∧ u.places = s.places)
    (Q := fun t => (¬ s.loses st c n → t.channel c = s.channel c) ∧
      (s.loses st c n → (s.channel c).state ≠ .standing → t.channel c = (s.channel c).withoutRow n) ∧
      (s.loses st c n → (s.channel c).state = .standing →
        (t.channel c).accounts = (s.channel c).accounts ∧
          (∀ k ∈ (t.channel c).strokes, k ∈ (s.channel c).strokes ∧ k.row ≠ n) ∧
          rampTaken s t c ((s.channel c).withoutRow n)))
    (fun k u hk ⟨hch, hcur, hw, hp⟩ => ?_) (fun u ⟨hch, hcur, hw, hp⟩ => ?_) (fun k u hk ⟨h1, h2, h3⟩ => ?_)
    ⟨rfl, rfl, rfl, rfl⟩
  · have hacts := u.withdrawFrom_acts st n k
    exact ⟨(hacts.others c hk.symm).trans hch, hacts.cur.trans hcur, hacts.wpu.trans hw, hacts.places.trans hp⟩
  · have hloses := State.loses_congr (st := st) (n := n) hch hcur
    refine ⟨fun hno => ?_, fun hl hstand => ?_, fun hl hstand => ?_⟩
    · rw [State.withdrawFrom_of_keeps (fun h => hno (hloses.1 h)), hch]
    · have hset : (u.setChannel c ((u.channel c).withoutRow n)).channel c = (s.channel c).withoutRow n := by
        rw [State.channel_setChannel, if_pos rfl, hch]
      rw [State.withdrawFrom_of_loses (hloses.2 hl), State.tryRampUp_of_not_standing, hset]
      rw [hset]
      exact hstand
    · have hset : (u.setChannel c ((u.channel c).withoutRow n)).channel c = (s.channel c).withoutRow n := by
        rw [State.channel_setChannel, if_pos rfl, hch]
      rw [State.withdrawFrom_of_loses (hloses.2 hl)]
      have hw' : u.wpu = (u.setChannel c ((u.channel c).withoutRow n)).wpu := rfl
      have htaken := State.tryRampUp_taken (c := c) (s := u.setChannel c ((u.channel c).withoutRow n)) (old := s)
        (by rw [hset]; exact hstand) hp hcur
      have hacc := State.tryRampUp_accounts (c := c) (h := u.wpu.highWater) (s := u.setChannel c ((u.channel c).withoutRow n))
      have hcases := State.tryRampUp_cases c u.wpu.highWater (u.setChannel c ((u.channel c).withoutRow n))
      rw [← hw', hset] at htaken
      rw [hset] at hacc hcases
      refine ⟨hacc, ?_, htaken⟩
      have hsub : ∀ k ∈ ((s.channel c).withoutRow n).strokes, k ∈ (s.channel c).strokes ∧ k.row ≠ n := fun k hk => by
        obtain ⟨hmem, hne⟩ := List.mem_filter.1 hk
        exact ⟨hmem, by simpa using hne⟩
      intro k hk
      rcases hcases with he | ⟨p, -, he | he⟩
      · rw [he, hset] at hk
        exact hsub k hk
      · rw [he, State.channel_setChannel, if_pos rfl] at hk
        exact hsub k (List.mem_of_mem_erase hk)
      · rw [he] at hk
        have hlate : (((u.setChannel c ((u.channel c).withoutRow n)).setChannel c
            (((s.channel c).withoutRow n).beginRampUp p)).markLate c p.stroke.row).channel c =
            ((s.channel c).withoutRow n).beginRampUp p :=
          (State.channel_setChannel _ _ _ _).trans (if_pos rfl)
        rw [hlate] at hk
        exact hsub k (List.mem_of_mem_erase hk)
  · have hacts := u.withdrawFrom_acts st n k
    rw [hacts.others c hk.symm]
    refine ⟨h1, h2, fun hl hs => ?_⟩
    obtain ⟨ha, hsub, ht⟩ := h3 hl hs
    exact ⟨ha, hsub, ht.mono (hacts.others c hk.symm) hacts.wpu (State.withdrawFrom_has k n) fun m => State.withdrawFrom_late k n m⟩

/-! ## Rows one after another -/

theorem State.serving_withdraw_keeps (st : Fin 4) (n : Word) (s : State) :
    (s.serving st (State.withdraw n)).cur = s.cur ∧ (s.serving st (State.withdraw n)).wpu = s.wpu ∧
      (∀ a, s.attn.has a = true → (s.serving st (State.withdraw n)).attn.has a = true) ∧
      ∀ c m, s.allLate c m → (s.serving st (State.withdraw n)).allLate c m := by
  rw [State.serving_withdraw]
  refine forChannels_induct (P := fun u => u.cur = s.cur ∧ u.wpu = s.wpu ∧ (∀ a, s.attn.has a = true → u.attn.has a = true) ∧
    ∀ c m, s.allLate c m → u.allLate c m) (fun k u ⟨hcur, hw, ha, hl⟩ => ?_) ⟨rfl, rfl, fun _ => id, fun _ _ => id⟩
  have hacts := u.withdrawFrom_acts st n k
  exact ⟨hacts.cur.trans hcur, hacts.wpu.trans hw, fun a h => State.withdrawFrom_has k n (ha a h),
    fun c m h => State.withdrawFrom_late k n m (hl c m h)⟩

theorem State.withdrawRows_keeps (st : Fin 4) (l : List Word) (s : State) :
    (s.withdrawRows st l).cur = s.cur ∧ (s.withdrawRows st l).wpu = s.wpu ∧
      (∀ a, s.attn.has a = true → (s.withdrawRows st l).attn.has a = true) ∧
      ∀ c m, s.allLate c m → (s.withdrawRows st l).allLate c m := by
  induction l generalizing s with
  | nil => exact ⟨rfl, rfl, fun _ => id, fun _ _ => id⟩
  | cons n l ih =>
    obtain ⟨hcur, hw, ha, hl⟩ := ih (s.serving st (State.withdraw n))
    obtain ⟨hcur', hw', ha', hl'⟩ := s.serving_withdraw_keeps st n
    exact ⟨hcur.trans hcur', hw.trans hw', fun a h => ha a (ha' a h), fun c m h => hl c m (hl' c m h)⟩

theorem State.withdrawRows_cons (st : Fin 4) (n : Word) (l : List Word) (s : State) :
    s.withdrawRows st (n :: l) = (s.serving st (State.withdraw n)).withdrawRows st l := rfl

/-- A channel that has no stroke of the rows withdrawn stays. -/
theorem State.withdrawRows_stays {l : List Word} (h : ∀ n ∈ l, ¬ s.loses st c n) :
    (s.withdrawRows st l).channel c = s.channel c := by
  induction l generalizing s with
  | nil => rfl
  | cons n l ih =>
    have hch := (s.serving_withdraw_channel st c n).1 (h n (List.mem_cons_self ..))
    have hcur := (s.serving_withdraw_keeps st n).1
    refine (ih fun m hm hl => h m (List.mem_cons_of_mem _ hm) ?_).trans hch
    exact (State.loses_congr hch hcur).1 hl

theorem Channel.withoutRow_of_keeps (h : ∀ k ∈ x.strokes, k.row ≠ n) (hp : ∀ p, x.plan = some p → p.stroke ∈ x.strokes) :
    x.withoutRow n = x := by
  have hstrokes : x.strokes.filter (fun k => k.row != n) = x.strokes :=
    List.filter_eq_self.2 fun k hk => bne_iff_ne.2 (h k hk)
  have hplan : x.plan.filter (fun p => p.stroke.row != n) = x.plan := by
    cases hx : x.plan with
    | none => rfl
    | some p => simp [Option.filter_some, h _ (hp p hx)]
  unfold Channel.withoutRow
  rw [hstrokes, hplan]

/-- The channel without the pending strokes of the rows listed, and without a plan that names one (R128). -/
def Channel.without (x : Channel) (l : List Word) : Channel :=
  { x with strokes := x.strokes.filter fun k => !l.contains k.row
           plan := x.plan.filter fun p => !l.contains p.stroke.row }

theorem Channel.withoutRow_without (x : Channel) (n : Word) (l : List Word) :
    (x.withoutRow n).without l = x.without (n :: l) := by
  have hbool (m : Word) : (!(n :: l).contains m) = (!l.contains m && m != n) := by
    rw [List.contains_cons, Bool.not_or, Bool.and_comm, bne]
  have hplan : (x.plan.filter fun p => p.stroke.row != n).filter (fun p => !l.contains p.stroke.row) =
      x.plan.filter fun p => !(n :: l).contains p.stroke.row := by
    cases x.plan with
    | none => rfl
    | some p => by_cases h1 : p.stroke.row = n <;> simp [Option.filter_some, h1]
  have hstrokes : (x.strokes.filter fun k => k.row != n).filter (fun k => !l.contains k.row) =
      x.strokes.filter fun k => !(n :: l).contains k.row := by simp only [List.filter_filter, hbool]
  unfold Channel.without Channel.withoutRow
  dsimp only
  rw [hstrokes, hplan]

/-- A channel in motion loses the pending strokes of the rows withdrawn and a plan that names one (R128). -/
theorem State.withdrawRows_moving {l : List Word} (hs : s.chanStation c = some st) (hi : (s.channel c).state ≠ .idle)
    (hm : (s.channel c).state ≠ .standing) (hp : ∀ p, (s.channel c).plan = some p → p.stroke ∈ (s.channel c).strokes) :
    (s.withdrawRows st l).channel c = (s.channel c).without l := by
  induction l generalizing s with
  | nil =>
    have hnone (x : Channel) : x.without [] = x := by
      have hplan : x.plan.filter (fun _ => true) = x.plan := by cases x.plan <;> rfl
      simp [Channel.without, hplan]
    rw [hnone]
    rfl
  | cons n l ih =>
    obtain ⟨hstay, hmove, -⟩ := s.serving_withdraw_channel st c n
    have hch : (s.serving st (State.withdraw n)).channel c = (s.channel c).withoutRow n := by
      by_cases hl : s.loses st c n
      · exact hmove hl hm
      · rw [hstay hl, Channel.withoutRow_of_keeps (fun k hk hrow => hl ⟨hs, hi, k, hk, hrow⟩) hp]
    have hcur := (s.serving_withdraw_keeps st n).1
    have hrest := ih (s := s.serving st (State.withdraw n)) ((State.chanStation_congr hcur c).trans hs) (by rw [hch]; exact hi)
      (by rw [hch]; exact hm) (by
        rw [hch]
        intro p hplan
        obtain ⟨hplan', hne⟩ := Option.filter_eq_some_iff.1 hplan
        exact List.mem_filter.2 ⟨hp p hplan', hne⟩)
    refine hrest.trans ?_
    rw [hch, Channel.withoutRow_without]

/-- A channel that stands with strokes of one of the rows withdrawn takes the ramp up that waits after it (R116, R128). -/
theorem State.withdrawRows_standing {l : List Word} (hs : s.chanStation c = some st) (hstand : (s.channel c).state = .standing)
    (hn : n ∈ l) (hk : ∃ k ∈ (s.channel c).strokes, k.row = n) (hone : ∀ k ∈ (s.channel c).strokes, k.row ∈ l → k.row = n) :
    ((s.withdrawRows st l).channel c).accounts = (s.channel c).accounts ∧
      rampTaken s (s.withdrawRows st l) c ((s.channel c).withoutRow n) := by
  have hi : (s.channel c).state ≠ .idle := by rw [hstand]; simp
  induction l generalizing s with
  | nil => exact absurd hn (by simp)
  | cons m l ih =>
    obtain ⟨hstay, -, htake⟩ := s.serving_withdraw_channel st c m
    have hcur := (s.serving_withdraw_keeps st m).1
    have hplaces : (s.serving st (State.withdraw m)).places = s.places := State.serving_withdraw_places m
    rw [State.withdrawRows_cons]
    generalize s.serving st (State.withdraw m) = v at *
    by_cases hmn : m = n
    · rw [hmn] at htake hone
      obtain ⟨hacc, hsub, htaken⟩ := htake ⟨hs, hi, hk⟩ hstand
      have hkeep : (v.withdrawRows st l).channel c = v.channel c := by
        refine State.withdrawRows_stays fun a ha hloses => ?_
        obtain ⟨-, -, k, hk', hrow⟩ := hloses
        obtain ⟨hmem, hne⟩ := hsub k hk'
        exact hne (hone k hmem (List.mem_cons_of_mem _ (hrow ▸ ha)))
      obtain ⟨-, hw, ha, hl⟩ := v.withdrawRows_keeps st l
      rw [hkeep]
      exact ⟨hacc, htaken.mono hkeep hw (ha _) fun a => hl c a⟩
    · have hno : ¬ s.loses st c m := by
        rintro ⟨-, -, k, hmem, hrow⟩
        exact hmn (hrow.symm.trans (hone k hmem (hrow ▸ List.mem_cons_self ..)))
      have hch := hstay hno
      obtain ⟨hacc, htaken⟩ := ih (s := v) ((State.chanStation_congr hcur c).trans hs)
        (by rw [hch]; exact hstand) ((List.mem_cons.1 hn).resolve_left fun h => hmn h.symm) (by rw [hch]; exact hk)
        (by rw [hch]; exact fun k hmem hrow => hone k hmem (List.mem_cons_of_mem _ hrow)) (by rw [hch]; exact hi)
      rw [hch] at hacc htaken
      exact ⟨hacc, htaken.of_faces fun a => State.chanFace_congr hplaces hcur c a⟩

end

end Sys2Proof.Machine
end

section
/-! The zone-end event of one row. -/

namespace Sys2Proof.Machine

section
variable {s t u : State} {st : Fin 4} {c : Fin 8}

/-! ## The strokes of the strikes lost -/

/-- The rows that a departure from TRACKING hands to the channels (R77). -/
def State.lostRows (s : State) (st : Fin 4) : List Word := (s.track.filter fun r => r.unstartedStrike st).map RowCtx.row

theorem State.losesStrike_eq (s : State) (st : Fin 4) (n : Word) : s.losesStrike st n = (s.lostRows st).contains n := by
  have hrow (r : RowCtx) : ((r.stations.get st).any fun e => e.struck && !e.startTaken) = r.unstartedStrike st := by
    unfold RowCtx.unstartedStrike
    cases r.stations.get st <;> rfl
  rw [Bool.eq_iff_iff, State.losesStrike, List.any_eq_true, List.contains_iff_mem, State.lostRows, List.mem_map]
  simp only [hrow, Bool.and_eq_true, beq_iff_eq, List.mem_filter]
  exact ⟨fun ⟨r, hr, hn, hl⟩ => ⟨r, ⟨hr, hl⟩, hn⟩, fun ⟨r, ⟨hr, hl⟩, hn⟩ => ⟨r, hr, hn, hl⟩⟩

theorem strokesWithdrawn.mono {lost : Word → Bool} (h : strokesWithdrawn s t c lost) (hch : u.channel c = t.channel c)
    (hw : u.wpu = t.wpu) (ha : t.attn.has .foilLate = true → u.attn.has .foilLate = true)
    (hl : ∀ n, t.allLate c n → u.allLate c n) : strokesWithdrawn s u c lost := by
  unfold strokesWithdrawn at *
  dsimp only at *
  rw [hch]
  obtain ⟨h1, h2⟩ := h
  refine ⟨h1, fun hi hp => ⟨(h2 hi hp).1, fun hs n hn hk hone => ?_⟩⟩
  obtain ⟨hacc, htaken⟩ := (h2 hi hp).2 hs n hn hk hone
  exact ⟨hacc, htaken.mono hch hw ha hl⟩

/-- Rows handed to a channel that serves the station for withdrawal (R128). -/
theorem strokesWithdrawn_withdrawRows {l : List Word} (hs : s.chanStation c = some st) :
    strokesWithdrawn s (s.withdrawRows st l) c fun n => l.contains n := by
  refine ⟨fun h => State.withdrawRows_stays fun n hn hl => ?_, fun hi hp => ⟨fun hm => ?_, fun hstand n hn hk hone => ?_⟩⟩
  · obtain ⟨-, hi, k, hk, hrow⟩ := hl
    refine h.elim hi fun hnone => ?_
    have := hnone k hk
    dsimp only at this
    rw [hrow, List.contains_iff_mem.2 hn] at this
    exact absurd this (by simp)
  · exact State.withdrawRows_moving hs hi hm hp
  · exact State.withdrawRows_standing hs hstand (List.contains_iff_mem.1 hn) hk fun k hk hl =>
      hone k hk (List.contains_iff_mem.2 hl)

theorem entriesGo.faces (h : entriesGo st (fun _ e f => f.face = e.face) s t) (hc : t.cur = s.cur)
    (hs : s.chanStation c = some st) (n : Word) : t.chanFace c n = s.chanFace c n := by
  rw [State.chanFace, State.chanStation_congr hc, hs, State.chanFace, hs, Option.bind_some, Option.bind_some]
  have hrel := h.entry? n
  generalize s.entry? st n = a at hrel
  generalize t.entry? st n = b at hrel
  cases hrel with
  | none => rfl
  | some hf => rw [Option.map_some, Option.map_some, hf]

theorem StationEntry.rename_face (o : RowOutcome) (e : StationEntry) : (e.rename o).face = e.face := by
  unfold StationEntry.rename
  split <;> rfl

theorem strokesWithdrawn.of_start {lost : Word → Bool} (h : strokesWithdrawn u t c lost) (hch : u.channel c = s.channel c)
    (hf : ∀ n, u.chanFace c n = s.chanFace c n) : strokesWithdrawn s t c lost := by
  unfold strokesWithdrawn at *
  dsimp only at *
  rw [hch] at h
  obtain ⟨h1, h2⟩ := h
  refine ⟨h1, fun hi hp => ⟨(h2 hi hp).1, fun hs n hn hk hone => ?_⟩⟩
  obtain ⟨hacc, htaken⟩ := (h2 hi hp).2 hs n hn hk hone
  exact ⟨hacc, htaken.of_faces hf⟩

theorem withdrawRows_other {l : List Word} (hs : s.chanStation c ≠ some st) :
    (s.withdrawRows st l).channel c = s.channel c :=
  State.withdrawRows_stays fun _ _ h => hs h.1

/-- On leaving TRACKING the strikes not started are withdrawn from the channels of the station (R77, R128). -/
theorem withdrawn_leaveFor (x : StationState) (hstate : (s.station st).state = .tracking) : withdrawn s (s.leaveFor st x) st := by
  have hleave : s.leaveFor st x =
      (((s.openThrow st).setState st x).mapEntries st (StationEntry.rename x.outcome)).withdrawRows st (s.lostRows st) := by
    unfold State.leaveFor
    simp only [hstate, beq_self_eq_true, if_true]
    rfl
  have hrename : entriesGo st (fun _ e f => f = e.rename x.outcome) s
      (((s.openThrow st).setState st x).mapEntries st (StationEntry.rename x.outcome)) :=
    entriesGo.of_start (u := (s.openThrow st).setState st x) (entriesGo_mapEntries fun _ _ => rfl) (by simp)
  have hcur : (((s.openThrow st).setState st x).mapEntries st (StationEntry.rename x.outcome)).cur = s.cur := by simp
  have hchannels : (((s.openThrow st).setState st x).mapEntries st (StationEntry.rename x.outcome)).channels = s.channels := by
    simp
  rw [hleave]
  generalize ((s.openThrow st).setState st x).mapEntries st (StationEntry.rename x.outcome) = v at *
  intro c
  have hch : v.channel c = s.channel c := by rw [State.channel, hchannels, State.channel]
  refine ⟨fun hs => ?_, fun hs => ?_⟩
  · rw [withdrawRows_other (by rwa [State.chanStation_congr hcur]), hch]
  · have hlost : s.losesStrike st = fun n => (s.lostRows st).contains n := funext (s.losesStrike_eq st)
    rw [hlost]
    refine (strokesWithdrawn_withdrawRows ((State.chanStation_congr hcur c).trans hs)).of_start hch fun n => ?_
    exact (hrename.mono (R' := fun _ e f => f.face = e.face) fun _ e f h => by rw [h, StationEntry.rename_face]).faces hcur hs n

theorem withdrawn.mono (h : withdrawn s t st) (hch : u.channels = t.channels) (hw : u.wpu = t.wpu)
    (ha : t.attn.has .foilLate = true → u.attn.has .foilLate = true) (htrack : u.track = t.track) : withdrawn s u st := by
  have hchannel (c : Fin 8) : u.channel c = t.channel c := by rw [State.channel, hch, State.channel]
  refine fun c => ⟨fun hs => (hchannel c).trans ((h c).1 hs), fun hs => ((h c).2 hs).mono (hchannel c) hw ha fun n hl => ?_⟩
  rwa [State.allLate, htrack]

end

end Sys2Proof.Machine
end

section
/-! The zone-end event: what it leaves of its row, the other rows and the station. -/

namespace Sys2Proof.Machine

section
variable {s : State} {st : Fin 4} {front back : List RowCtx} {r : RowCtx} {e : StationEntry}

theorem StationEntry.rename_rest (o : RowOutcome) (e : StationEntry) :
    e.rename o = { e with outcome := if e.struck = true ∧ e.startTaken = false then some o else e.outcome } := by
  unfold StationEntry.rename
  simp only [Bool.and_eq_true, Bool.not_eq_true']
  split <;> rfl

theorem StationEntry.decided.struck {e f : StationEntry} (h : e.decided f) : f.struck = e.struck := by
  rw [StationEntry.struck, h.1, StationEntry.struck]

theorem State.zoneTrimmed_frame (s : State) (st : Fin 4) (r : RowCtx) (e : StationEntry) :
    (s.zoneTrimmed st r e).cur = s.cur ∧ (s.zoneTrimmed st r e).jobs = s.jobs ∧ (s.zoneTrimmed st r e).mark = s.mark := by
  simp [State.zoneTrimmed]

theorem State.zoneTrimmed_block (s : State) (st : Fin 4) (r : RowCtx) (e : StationEntry) :
    (s.zoneTrimmed st r e).block st = s.block st := State.block_congr (s.zoneTrimmed_frame st r e).1 st

/-- The row's registration error takes the station out of TRACKING (R66). -/
def State.leavesAtEnd (s : State) (st : Fin 4) (r : RowCtx) (e : StationEntry) : Prop := s.driftsOff st r (s.measure st r e)

theorem State.driftsOff_zoneTrimmed (error : Option Int) :
    (s.zoneTrimmed st r e).driftsOff st r error ↔ s.driftsOff st r error := by
  rw [State.driftsOff, (s.zoneTrimmed_station r e).1, s.zoneTrimmed_block, State.driftsOff]

theorem State.catches_zoneTrimmed (error : Option Int) :
    (s.zoneTrimmed st r e).catches st r error ↔ s.catches st r error := by
  rw [State.catches, (s.zoneTrimmed_station r e).1, s.zoneTrimmed_block, State.catches]

theorem State.openAtEnd_track (n : Word) : (s.openAtEnd st n).track = s.track := by
  obtain ⟨hopens, hstays⟩ := State.openAtEnd_cases (st := st) n s
  by_cases ho : s.opensAtEnd st n
  · rw [hopens ho]; rfl
  · rw [hstays ho]

/-- An entry through the zone-end event of row `r` (R63, R65, R66, R77). -/
structure State.endedAs (s : State) (st : Fin 4) (r : RowCtx) (e : StationEntry) (n : Word) (f g : StationEntry) : Prop where
  left : s.leavesAtEnd st r e →
    g.outcome = if f.struck = true ∧ f.startTaken = false then some .catching else f.outcome
  stayed : ¬ s.leavesAtEnd st r e → g.outcome = f.outcome
  committed : g.committed = f.committed
  startTaken : g.startTaken = f.startTaken
  own : n = r.row → g.error = s.measure st r e ∧ g.trim = s.decideTrim st r (s.measure st r e) ∧ g.endTaken = true ∧
    g.face = f.face
  others : n ≠ r.row → g.error = f.error ∧ g.trim = f.trim ∧ g.endTaken = f.endTaken
  moved : s.trimSmall st (s.decideTrim st r (s.measure st r e)) → n ≠ r.row →
    g.face = if f.endTaken = true then f.face else Machine.moved f.face (-(s.decideTrim st r (s.measure st r e)))

theorem entriesGo_bandChecked : entriesGo st (s.endedAs st r e) s ((s.zoneTrimmed st r e).bandCheck st r (s.measure st r e)) := by
  refine (entriesGo_zoneTrimmed r e).trans (entriesGo_bandCheck r (s.measure st r e)) fun n f g k ⟨hd, hown, hothers, hmoved⟩ hk => ?_
  rw [State.driftsOff_zoneTrimmed] at hk
  by_cases hl : s.driftsOff st r (s.measure st r e)
  · rw [if_pos hl, StationEntry.rename_rest] at hk
    rw [hk]
    refine ⟨fun _ => ?_, fun hn => absurd hl hn, hd.2.1, hd.2.2, hown, hothers, hmoved⟩
    simp only [hd.struck, hd.1, hd.2.2]
  · rw [if_neg hl] at hk
    rw [hk]
    exact ⟨fun h => absurd h hl, fun _ => hd.1, hd.2.1, hd.2.2, hown, hothers, hmoved⟩

/-- The rows through a zone-end event. -/
theorem entriesGo_zoneEndEvent (h : s.rowAt front back r) (he : r.stations.get st = some e) :
    entriesGo st (s.endedAs st r e) s (s.zoneEndEvent st r.row) := by
  rw [State.zoneEndEvent_eq h he]
  exact entriesGo_bandChecked.of_end (State.openAtEnd_track _)

/-- The opening rule asks for the throw to open, read before the zone-end event (R91). -/
theorem State.opensAtEnd_bandChecked (h : s.rowAt front back r) (he : r.stations.get st = some e)
    (hl : ¬ s.leavesAtEnd st r e) :
    ((s.zoneTrimmed st r e).bandCheck st r (s.measure st r e)).opensAtEnd st r.row ↔
      e.struck = true ∧
        ((∃ q g, back.head? = some q ∧ q.stations.get st = some g ∧ g.committed = true ∧ g.struck = false) ∨
          s.jobs.run = .draining ∧ r.row = s.mark.lastOpened) := by
  have hgo : entriesGo st (fun _ f g => g.struck = f.struck ∧ g.committed = f.committed) s
      ((s.zoneTrimmed st r e).bandCheck st r (s.measure st r e)) := entriesGo_bandChecked.mono fun n f g hg => by
    refine ⟨?_, hg.committed⟩
    rw [StationEntry.struck, hg.stayed hl, StationEntry.struck]
  have hframe : ((s.zoneTrimmed st r e).bandCheck st r (s.measure st r e)).jobs.run = s.jobs.run ∧
      ((s.zoneTrimmed st r e).bandCheck st r (s.measure st r e)).mark.lastOpened = s.mark.lastOpened := by
    simp [State.zoneTrimmed]
  rw [State.opensAtEnd_congr hgo hframe.1 hframe.2, State.opensAtEnd, h.entry?, h.after?, he]
  simp only [Option.some.injEq, exists_eq_left', Option.bind_eq_some_iff]
  refine and_congr_right fun _ => or_congr_left ⟨?_, ?_⟩
  · rintro ⟨g, ⟨q, hq, hg⟩, hc⟩
    exact ⟨q, g, hq, hg, hc⟩
  · rintro ⟨q, g, hq, hg, hc⟩
    exact ⟨g, ⟨q, hq, hg⟩, hc⟩

/-- What the zone-end event leaves of the station but its throw (R63, R65, R66). -/
theorem State.zoneEndEvent_state (h : s.rowAt front back r) (he : r.stations.get st = some e) :
    let error := s.measure st r e
    let trim := s.decideTrim st r error
    let x := s.station st
    let t := s.zoneEndEvent st r.row
    let y := t.station st
    y.lastError = (if error = none then x.lastError else error) ∧
      y.indexSeen = x.indexSeen ∧
      y.trimTotal = x.trimTotal + BitVec.ofInt 32 trim ∧
      (s.trimSmall st trim → y.drift = x.drift + trim * x.rho ∧ y.base = moved x.base (-trim)) ∧
      (s.catches st r error → y.state = .tracking ∧ t.attn.has .regCaught = true) ∧
      (s.leavesAtEnd st r e → y.state = .catching ∧ t.attn.has .regDrift = true) ∧
      (¬ s.catches st r error → ¬ s.leavesAtEnd st r e → y.state = x.state) := by
  dsimp only
  obtain ⟨hstate, hlast, hseen, htotal, -, hsmall⟩ := s.zoneTrimmed_station (st := st) r e
  obtain ⟨hy, hcatch, hdrift, hstay, -⟩ := (s.zoneTrimmed st r e).bandCheck_station (st := st) r (s.measure st r e)
  rw [State.driftsOff_zoneTrimmed] at hdrift hstay
  rw [State.catches_zoneTrimmed] at hcatch hstay
  rw [State.zoneEndEvent_eq h he]
  generalize hu : (s.zoneTrimmed st r e).bandCheck st r (s.measure st r e) = u at *
  obtain ⟨hopen, -⟩ := u.openAtEnd_station (st := st) r.row
  have hattn : (u.openAtEnd st r.row).attn = u.attn := by simp
  rw [hattn, hopen]
  dsimp only
  rw [hstate] at hstay
  refine ⟨?_, ?_, ?_, fun hs => ?_, hcatch, hdrift, hstay⟩
  · rw [hy]; exact hlast
  · rw [hy]; exact hseen
  · rw [hy]; exact htotal
  · rw [hy]; exact hsmall hs

/-- The throw at a zone-end event: it opens by the opening rule or on leaving TRACKING, and stays otherwise (R66, R91). -/
theorem State.zoneEndEvent_throw (h : s.rowAt front back r) (he : r.stations.get st = some e) :
    let trim := s.decideTrim st r (s.measure st r e)
    let x := s.station st
    let y := (s.zoneEndEvent st r.row).station st
    let opens := e.struck = true ∧
      ((∃ q g, back.head? = some q ∧ q.stations.get st = some g ∧ g.committed = true ∧ g.struck = false) ∨
        s.jobs.run = .draining ∧ r.row = s.mark.lastOpened)
    (s.leavesAtEnd st r e → y.throw ≠ .closing ∧ y.throw ≠ .on) ∧
      (x.throw = .closing ∨ x.throw = .on →
        (opens ∨ s.leavesAtEnd st r e → y.throw = .opening ∧ y.timer = (s.block st).throwOff) ∧
        (¬ opens → ¬ s.leavesAtEnd st r e → y.throw = x.throw ∧ y.timer = x.timer)) ∧
      (x.throw = .opening ∨ x.throw = .off ∧ trim = 0 → y.throw = x.throw ∧ y.timer = x.timer) := by
  dsimp only
  obtain ⟨-, -, -, -, hkeep, -⟩ := s.zoneTrimmed_station (st := st) r e
  obtain ⟨-, -, -, -, hleave, hband⟩ := (s.zoneTrimmed st r e).bandCheck_station (st := st) r (s.measure st r e)
  have hopens := State.opensAtEnd_bandChecked (st := st) h he
  have hblock : ((s.zoneTrimmed st r e).bandCheck st r (s.measure st r e)).block st = s.block st :=
    State.block_congr (by simp [State.zoneTrimmed]) st
  rw [State.driftsOff_zoneTrimmed] at hleave hband
  rw [s.zoneTrimmed_block] at hleave
  change ((s.zoneTrimmed st r e).station st).throw = _ ∨ _ → s.leavesAtEnd st r e → _ at hleave
  change _ ∨ ¬ s.leavesAtEnd st r e → _ at hband
  rw [State.zoneEndEvent_eq h he]
  generalize (s.zoneTrimmed st r e).station st = m at *
  generalize (s.zoneTrimmed st r e).bandCheck st r (s.measure st r e) = u at *
  obtain ⟨-, hopen, hstay⟩ := u.openAtEnd_station (st := st) r.row
  rw [hblock] at hopen
  generalize (u.openAtEnd st r.row).station st = y at *
  refine ⟨fun hl => ?_, fun hx => ⟨fun hc => ?_, fun ho hl => ?_⟩, fun hx => ?_⟩
  · have hu : ¬ ((u.station st).throw = .closing ∨ (u.station st).throw = .on) := by
      by_cases hm : m.throw = .closing ∨ m.throw = .on
      · rw [(hleave hm hl).1]; simp
      · rw [(hband (.inl hm)).1]; exact hm
    rw [(hstay (.inl hu)).1]
    exact not_or.1 hu
  · obtain ⟨hm, htimer⟩ := hkeep (.inl (by rcases hx with hx | hx <;> rw [hx] <;> simp))
    by_cases hl : s.leavesAtEnd st r e
    · obtain ⟨hu, hut⟩ := hleave (by rwa [hm]) hl
      obtain ⟨hy, hyt⟩ := hstay (.inl (by rw [hu]; simp))
      exact ⟨hy.trans hu, hyt.trans hut⟩
    · obtain ⟨hu, -⟩ := hband (.inr hl)
      exact hopen (by rwa [hu, hm]) ((hopens hl).2 (hc.resolve_right hl))
  · obtain ⟨hm, htimer⟩ := hkeep (.inl (by rcases hx with hx | hx <;> rw [hx] <;> simp))
    obtain ⟨hu, hut⟩ := hband (.inr hl)
    obtain ⟨hy, hyt⟩ := hstay (.inr fun hn => ho ((hopens hl).1 hn))
    exact ⟨hy.trans (hu.trans hm), hyt.trans (hut.trans htimer)⟩
  · obtain ⟨hm, htimer⟩ := hkeep (hx.imp (fun hx => by rw [hx]; simp) And.right)
    have hidle : ¬ (m.throw = .closing ∨ m.throw = .on) := by
      rw [hm]
      rcases hx with hx | ⟨hx, -⟩ <;> rw [hx] <;> simp
    obtain ⟨hu, hut⟩ := hband (.inl hidle)
    obtain ⟨hy, hyt⟩ := hstay (.inl (by rwa [hu]))
    exact ⟨hy.trans (hu.trans hm), hyt.trans (hut.trans htimer)⟩

theorem State.openAtEnd_same (n : Word) :
    (s.openAtEnd st n).channels = s.channels ∧ (s.openAtEnd st n).wpu = s.wpu ∧ (s.openAtEnd st n).attn = s.attn ∧
      (s.openAtEnd st n).cylGens = s.cylGens := by
  simp

theorem State.bandCheck_cylGens (error : Option Int) : (s.bandCheck st r error).cylGens = s.cylGens := by simp

/-- The strikes not started are withdrawn from the channels where the band check leaves TRACKING (R66, R77). -/
theorem State.zoneEndEvent_withdrawn (h : s.rowAt front back r) (he : r.stations.get st = some e)
    (hl : s.leavesAtEnd st r e) : withdrawn (s.zoneTrimmed st r e) (s.zoneEndEvent st r.row) st := by
  have hm : (s.zoneTrimmed st r e).driftsOff st r (s.measure st r e) := State.driftsOff_zoneTrimmed _ |>.2 hl
  rw [State.zoneEndEvent_eq h he, (State.bandCheck_cases r (s.measure st r e) (s.zoneTrimmed st r e)).2.1 hm]
  generalize s.zoneTrimmed st r e = m at *
  have hleave := withdrawn_leaveFor (s := m) .catching hm.2.1
  generalize m.leaveFor st .catching = v at *
  obtain ⟨hch, hw, ha, -⟩ := (v.raise .regDrift).openAtEnd_same (st := st) r.row
  refine hleave.mono hch hw (fun hf => ?_) (State.openAtEnd_track _)
  rw [ha]
  exact (Attention.raise_has _ _ _).2 (.inr hf)

theorem State.zoneEndEvent_gen (h : s.rowAt front back r) (he : r.stations.get st = some e) :
    (s.zoneEndEvent st r.row).cylGens.get st =
      { s.cylGens.get st with
        acc := (s.cylGens.get st).acc +
          BitVec.ofInt 48 (s.decideTrim st r (s.measure st r e) * ((s.cylGens.get st).ratio : Int)) } := by
  rw [State.zoneEndEvent_eq h he, State.openAtEnd_same _ |>.2.2.2, State.bandCheck_cylGens, State.zoneTrimmed_gen]

end

end Sys2Proof.Machine
end

section
/-! The error and the trim at a zone end, and the drift remainder, as numbers. -/

namespace Sys2Proof.Machine

/-- A distance reduced by whole pitches lies within half a pitch either way (R63). -/
theorem reduceBy_spec (x : Int) {p : Nat} (hp : 0 < p) :
    (∃ k : Int, x = reduceBy x p + k * p) ∧ -(p : Int) < 2 * reduceBy x p ∧ 2 * reduceBy x p ≤ p := by
  have hpos : (0 : Int) < p := by exact_mod_cast hp
  have hlo := Int.emod_nonneg x hpos.ne'
  have hhi := Int.emod_lt_of_pos x hpos
  have hdiv := Int.mul_ediv_add_emod x p
  unfold reduceBy
  dsimp only
  split
  · refine ⟨⟨x / p + 1, ?_⟩, by omega, by omega⟩
    rw [add_mul, mul_comm (x / (p : Int)), one_mul]
    omega
  · refine ⟨⟨x / p, ?_⟩, by omega, by omega⟩
    rw [mul_comm (x / (p : Int))]
    omega

/-- A value limited to a step either way: itself within it, the step with its sign beyond it (R64). -/
theorem clampInt_step (n : Nat) (d : Int) :
    (d.natAbs ≤ n → clampInt (-(n : Int)) n d = d) ∧
      (n < d.natAbs → clampInt (-(n : Int)) n d = if 0 < d then (n : Int) else -(n : Int)) := by
  unfold clampInt
  refine ⟨fun h => by omega, fun h => ?_⟩
  split <;> omega

section
variable {s : State} {st : Fin 4} {r : RowCtx} {e : StationEntry}

theorem State.measure_none (h : (s.station st).indexSeen = false ∨ (s.station st).state = .faulted) : s.measure st r e = none := by
  unfold State.measure
  rw [if_neg]
  rcases h with h | h <;> simp [h]

theorem State.measure_some (hi : (s.station st).indexSeen = true) (hf : (s.station st).state ≠ .faulted) :
    s.measure st r e = some (reduceBy (dist (s.arrival st r) e.face) (s.pitch st)) := by
  unfold State.measure
  rw [if_pos (by simp [hi, hf])]

theorem State.decideTrim_missing (h : r.status = .missing) (error : Option Int) : s.decideTrim st r error = 0 := by
  unfold State.decideTrim
  rw [h]
  cases error <;> rfl

theorem State.decideTrim_steers (h : r.status ≠ .missing) (d : Int) :
    s.decideTrim st r (some d) = (s.block st).trimFor (s.station st).state d :=
  if_pos ((MarkStatus.steers_iff _).2 h)

/-- The trim of a TRACKING station (R64). -/
theorem StationBlock.trimFor_tracking (b : StationBlock) (d : Int) :
    (d.natAbs ≤ b.deadBand → b.trimFor .tracking d = 0) ∧
      (b.deadBand < d.natAbs → d.natAbs ≤ b.trimStep → b.trimFor .tracking d = d) ∧
      (b.deadBand < d.natAbs → b.trimStep < d.natAbs →
        b.trimFor .tracking d = if 0 < d then (b.trimStep : Int) else -(b.trimStep : Int)) := by
  obtain ⟨hin, hout⟩ := clampInt_step b.trimStep d
  unfold StationBlock.trimFor
  refine ⟨fun h => if_pos h, fun h hs => ?_, fun h hs => ?_⟩
  · rw [if_neg (by omega), hin hs]
  · rw [if_neg (by omega), hout hs]

theorem State.decideTrim_idle (h : (s.station st).state = .heatWait ∨ (s.station st).state = .lifted) (error : Option Int) :
    s.decideTrim st r error = 0 := by
  unfold State.decideTrim
  cases error with
  | none => rfl
  | some d => rcases h with h | h <;> simp [h, StationBlock.trimFor]

/-- The error and the trim of a row at its zone end, in terms of the distances (R63, R64). -/
theorem State.measure_decideTrim (hp : 0 < s.pitch st) (hi : (s.station st).indexSeen = true)
    (hf : (s.station st).state ≠ .faulted) :
    let b := s.block st
    ∃ d : Int, s.measure st r e = some d ∧ -(s.pitch st : Int) < 2 * d ∧ 2 * d ≤ s.pitch st ∧
      (∃ k : Int, (e.face - moved r.lead b.distance).toInt = d + k * s.pitch st) ∧
      let t := s.decideTrim st r (some d)
      (r.status = .missing → t = 0) ∧
      (r.status ≠ .missing → (s.station st).state = .tracking →
        (d.natAbs ≤ b.deadBand → t = 0) ∧
        (b.deadBand < d.natAbs → d.natAbs ≤ b.trimStep → t = d) ∧
        (b.deadBand < d.natAbs → b.trimStep < d.natAbs →
          t = if 0 < d then (b.trimStep : Int) else -(b.trimStep : Int))) ∧
      (r.status ≠ .missing → (s.station st).state = .catching →
        (d.natAbs ≤ b.catchStep → t = d) ∧
        (b.catchStep < d.natAbs → t = if 0 < d then (b.catchStep : Int) else -(b.catchStep : Int))) ∧
      ((s.station st).state = .heatWait ∨ (s.station st).state = .lifted → t = 0) := by
  obtain ⟨hk, hlo, hhi⟩ := reduceBy_spec (dist (s.arrival st r) e.face) hp
  refine ⟨_, State.measure_some hi hf, hlo, hhi, hk, fun h => State.decideTrim_missing h _, fun hm ht => ?_, fun hm hc => ?_,
    fun h => State.decideTrim_idle h _⟩
  · rw [State.decideTrim_steers hm, ht]
    exact StationBlock.trimFor_tracking _ _
  · rw [State.decideTrim_steers hm, hc]
    exact clampInt_step _ _

/-- A source amount joins the drift remainder, which stays below 65,536 × S, and a tick of the base goes with each time
it passes it (R56). -/
theorem State.drift_remainder (amount : Int) (hS : 0 < (s.block st).steps) :
    let m : Int := 65536 * ((s.block st).steps : Int)
    let total := (s.station st).drift + amount * (s.station st).rho
    let y := (s.drift st amount).station st
    ∃ k : Int, total = y.drift + k * m ∧ y.drift.natAbs < m.natAbs ∧ 0 ≤ total * y.drift ∧
      y.base = moved (s.station st).base k := by
  obtain ⟨hy, -⟩ := s.drift_station (st := st) amount
  dsimp only
  rw [hy]
  dsimp only
  rw [State.driftTicks, State.driftModulus]
  have hm : (0 : Int) < 65536 * ((s.block st).steps : Int) := by omega
  generalize (s.station st).drift + amount * (s.station st).rho = total
  generalize 65536 * ((s.block st).steps : Int) = m at *
  have hmod : total - total.tdiv m * m = total.tmod m := by
    have := Int.mul_tdiv_add_tmod total m
    rw [mul_comm] at this
    omega
  refine ⟨total.tdiv m, by ring, ?_, ?_, rfl⟩
  · rw [hmod, Int.natAbs_tmod]
    exact Nat.mod_lt _ (by omega)
  · rw [hmod]
    rcases le_total 0 total with h | h
    · exact mul_nonneg h (Int.tmod_nonneg _ h)
    · have hneg : total.tmod m = -((-total).tmod m) := by rw [Int.neg_tmod, neg_neg]
      have hpos := Int.tmod_nonneg m (show 0 ≤ -total by omega)
      exact mul_nonneg_of_nonpos_of_nonpos h (by omega)

end

end Sys2Proof.Machine
end

section
/-! The zone events of one row. -/

namespace Sys2Proof.Machine

section
variable {s : State} {st : Fin 4} {front back : List RowCtx} {r : RowCtx} {e : StationEntry}

/-- The zone-start event of a row not committed: what its commit decides and leaves (R81, R87). -/
theorem State.zoneStartEvent_commits (h : s.rowAt front back r) (he : r.stations.get st = some e) (hc : e.committed = false) :
    ∃ (o : RowOutcome) (charges : Eight (Option ChannelEntry)),
      let t := s.zoneStartEvent st r.row
      let late := (s.station st).throw ≠ .on ∧ (o = .struck ∨ o = .struckUnskipped)
      let f := { e with startTaken := true, committed := true
                        outcome := some (if late then .struckLate else o) }
      s.decides st r e o ∧
      t.track = front ++ { r with stations := r.stations.set st (some f), channels := charges } :: back ∧
      (∀ c, handedOver s t st r.row e.face o c (r.channels.get c) (charges.get c)) ∧
      (t.attn = s.attn ∨ (o = .struck ∨ o = .struckUnskipped) ∧ t.attn = s.attn.raise .foilLate) ∧
      committedThrow s t st r.row o ∧ (∀ k, k ≠ st → t.station k = s.station k) ∧
      t.wpu = s.wpu ∧ t.mark = s.mark ∧ t.cylGens = s.cylGens ∧ t.foilGens = s.foilGens ∧
      t.jobs = s.jobs ∧ sameMemory s t ∧ t.lastRetired = s.lastRetired ∧ sameOutside s t := by
  obtain ⟨charges, ⟨htrack, -⟩, hover, hattn, hthrow⟩ := State.zoneStartEvent_overdue h he hc
  refine ⟨s.decideOutcome st r e, charges, s.decides_decideOutcome st r e, ?_, hover, hattn, hthrow, fun k hk => ?_, ?_⟩
  · rw [htrack, StationEntry.checkStart_eq]
    simp only [Option.some.injEq]
    split <;> rfl
  · exact congrArg Prod.fst (State.atStation_zoneStartEvent (s := s) hk r.row)
  · simp [sameMemory, sameOutside]

/-- What the zone-end event of a row does to the row and the other rows (R62, R63, R65). -/
theorem State.zoneEndEvent_registers (h : s.rowAt front back r) (he : r.stations.get st = some e) :
    let error := s.measure st r e
    let trim := s.decideTrim st r error
    let t := s.zoneEndEvent st r.row
    ((t.entry? st r.row).map fun f => (f.error, f.trim, f.endTaken, f.face)) = some (error, trim, true, e.face) ∧
      (s.trimSmall st trim → ∀ q ∈ front ++ back, ∀ f, q.stations.get st = some f →
        ∃ g ∈ t.track, g.row = q.row ∧ (g.stations.get st).map StationEntry.face =
          some (if f.endTaken = true then f.face else moved f.face (-trim))) := by
  have hgo := entriesGo_zoneEndEvent h he
  dsimp only
  constructor
  · obtain ⟨g, hg, hend⟩ := hgo.entry?_some ((h.entry? st).trans he)
    obtain ⟨herror, htrim, htaken, hface⟩ := hend.own rfl
    rw [hg, Option.map_some, herror, htrim, htaken, hface]
  · intro hsmall q hq f hf
    have hmem : q ∈ s.track := by
      rw [h.1, List.mem_append, List.mem_cons]
      exact (List.mem_append.1 hq).imp id .inr
    obtain ⟨g, hg, hfixed, hrel⟩ := hgo.mem hmem
    refine ⟨g, hg, RowCtx.row_of_fixed hfixed, ?_⟩
    rw [hf] at hrel
    generalize g.stations.get st = y at hrel
    cases hrel with
    | some hend => rw [Option.map_some, hend.moved hsmall (h.2 q hq)]

/-- The outcomes of the rows through a zone-end event (R66, R77). -/
theorem State.zoneEndEvent_outcomes (h : s.rowAt front back r) (he : r.stations.get st = some e) :
    let t := s.zoneEndEvent st r.row
    let outcomes (u : State) (f : StationEntry → Option RowOutcome) := u.track.map fun q => (q.row, (q.stations.get st).map f)
    (s.leavesAtEnd st r e → outcomes t StationEntry.outcome = outcomes s (fun f =>
        if f.struck = true ∧ f.startTaken = false then some .catching else f.outcome)) ∧
      (¬ s.leavesAtEnd st r e → outcomes t StationEntry.outcome = outcomes s StationEntry.outcome) := by
  have hgo := entriesGo_zoneEndEvent h he
  exact ⟨fun hl => hgo.map_eq (G := fun _ f => if f.struck = true ∧ f.startTaken = false then some .catching else f.outcome)
      fun n f g hend => hend.left hl,
    fun hl => hgo.map_eq (G := fun _ => StationEntry.outcome) fun n f g hend => hend.stayed hl⟩

/-- The zone-end event of a row (R63 to R66, R77, R91). -/
theorem State.zoneEndEvent_clause (h : s.rowAt front back r) (he : r.stations.get st = some e) :
    let error := s.measure st r e
    let trim := s.decideTrim st r error
    let x := s.station st
    let t := s.zoneEndEvent st r.row
    let y := t.station st
    let near := ∃ d, error = some d ∧ d.natAbs ≤ (s.block st).catchBand
    let far := ∃ d, error = some d ∧ 2 * (s.block st).catchBand < d.natAbs
    let leaves := r.status ≠ .missing ∧ x.state = .tracking ∧ far
    let opens := e.struck = true ∧
      ((∃ q g, back.head? = some q ∧ q.stations.get st = some g ∧ g.committed = true ∧
          g.struck = false) ∨
        s.jobs.run = .draining ∧ r.row = s.mark.lastOpened)
    let outcomes (u : State) (f : StationEntry → Option RowOutcome) :=
      u.track.map fun q => (q.row, (q.stations.get st).map f)
    ((t.entry? st r.row).map fun f => (f.error, f.trim, f.endTaken, f.face)) =
      some (error, trim, true, e.face) ∧
    y.lastError = (if error = none then x.lastError else error) ∧
    y.trimTotal = x.trimTotal + BitVec.ofInt 32 trim ∧
    t.cylGens.get st =
      { s.cylGens.get st with
        acc := (s.cylGens.get st).acc +
          BitVec.ofInt 48 (trim * ((s.cylGens.get st).ratio : Int)) } ∧
    ((x.drift + trim * x.rho).natAbs < 65536 * (s.block st).steps →
      y.drift = x.drift + trim * x.rho ∧ y.base = moved x.base (-trim) ∧
      ∀ q ∈ front ++ back, ∀ f, q.stations.get st = some f →
        ∃ g ∈ t.track, g.row = q.row ∧ (g.stations.get st).map StationEntry.face =
          some (if f.endTaken = true then f.face else moved f.face (-trim))) ∧
    (r.status ≠ .missing → x.state = .catching → near →
      y.state = .tracking ∧ t.attn.has .regCaught = true) ∧
    (leaves →
      y.state = .catching ∧ t.attn.has .regDrift = true ∧ y.throw ≠ .closing ∧ y.throw ≠ .on ∧
      outcomes t StationEntry.outcome = outcomes s (fun f =>
        if f.struck = true ∧ f.startTaken = false then some .catching else f.outcome) ∧
      withdrawn ((s.writeRegistration st r.row error trim).applyTrim st trim) t st) ∧
    (¬ leaves → outcomes t StationEntry.outcome = outcomes s StationEntry.outcome) ∧
    (r.status = .missing ∨ ¬ (x.state = .catching ∧ near ∨ x.state = .tracking ∧ far) →
      y.state = x.state) ∧
    (x.throw = .closing ∨ x.throw = .on →
      (opens ∨ leaves → y.throw = .opening ∧ y.timer = (s.block st).throwOff) ∧
      (¬ opens → ¬ leaves → y.throw = x.throw ∧ y.timer = x.timer)) ∧
    (x.throw = .opening ∨ x.throw = .off ∧ trim = 0 → y.throw = x.throw ∧ y.timer = x.timer) := by
  obtain ⟨hrow, hfaces⟩ := State.zoneEndEvent_registers h he
  obtain ⟨hleft, hstayed⟩ := State.zoneEndEvent_outcomes h he
  obtain ⟨hlast, -, htotal, hsmall, hcatch, hleave, hstay⟩ := State.zoneEndEvent_state h he
  obtain ⟨hoff, hthrow, hidle⟩ := State.zoneEndEvent_throw h he
  refine ⟨hrow, hlast, htotal, State.zoneEndEvent_gen h he, fun hs => ?_, fun hm hx hn => hcatch ⟨hm, hx, hn⟩,
    fun hl => ?_, hstayed, fun hno => hstay (fun hc => ?_) (fun hl => ?_), hthrow, hidle⟩
  · obtain ⟨hdrift, hbase⟩ := hsmall hs
    exact ⟨hdrift, hbase, hfaces hs⟩
  · obtain ⟨hstate, hattn⟩ := hleave hl
    obtain ⟨hclosing, hon⟩ := hoff hl
    exact ⟨hstate, hattn, hclosing, hon, hleft hl, State.zoneEndEvent_withdrawn h he hl⟩
  · obtain ⟨hm, hx, hn⟩ := hc
    exact hno.elim hm fun hno => hno (.inl ⟨hx, hn⟩)
  · obtain ⟨hm, hx, hn⟩ := hl
    exact hno.elim hm fun hno => hno (.inr ⟨hx, hn⟩)

end

end Sys2Proof.Machine
end

section
/-! The zone events due at a station, one after another: what each takes, and that none is left due. -/

namespace Sys2Proof.Machine

section
variable {s t u : State} {st : Fin 4} {front back : List RowCtx} {r q : RowCtx} {e f : StationEntry} {n : Word}

/-! ## Rows of their own numbers -/

/-- The rows of the track have numbers of their own. -/
def State.apart (s : State) : Prop := s.track.Pairwise fun r q => r.row ≠ q.row

theorem State.apart.congr (h : s.apart) (ht : t.rows = s.rows) : t.apart := by
  have hmap : t.track.map RowCtx.row = s.track.map RowCtx.row := by
    have := congrArg (List.map Prod.fst) ht
    rwa [State.rows, State.rows, List.map_map, List.map_map] at this
  rw [State.apart, ← List.pairwise_map (f := RowCtx.row) (R := fun a b => a ≠ b), hmap, List.pairwise_map]
  exact h

theorem State.apart.rowAt (h : s.apart) (hr : r ∈ s.track) : ∃ front back, s.rowAt front back r := by
  obtain ⟨front, back, htrack⟩ := List.mem_iff_append.1 hr
  rw [State.apart, htrack, List.pairwise_append, List.pairwise_cons] at h
  obtain ⟨-, ⟨hback, -⟩, hfront⟩ := h
  refine ⟨front, back, htrack, fun q hq => ?_⟩
  rcases List.mem_append.1 hq with hq | hq
  · exact hfront q hq r (List.mem_cons_self ..)
  · exact (hback q hq).symm

/-- The entry of a row on the track, read by its number. -/
theorem State.apart.entry? (h : s.apart) (hr : r ∈ s.track) (st : Fin 4) : s.entry? st r.row = r.stations.get st := by
  obtain ⟨front, back, hrow⟩ := h.rowAt hr
  exact hrow.entry? st

/-! ## One event -/

theorem State.rowAt.own (h : s.rowAt front back r) (hq : q ∈ s.track) (hn : q.row = r.row) : q = r := by
  rw [h.1, List.mem_append, List.mem_cons] at hq
  rcases hq with hq | hq | hq
  · exact absurd hn (h.2 _ (List.mem_append_left _ hq))
  · exact hq
  · exact absurd hn (h.2 _ (List.mem_append_right _ hq))

theorem entriesGo.and {R R' : Word → StationEntry → StationEntry → Prop} (h : entriesGo st R s t) (h' : entriesGo st R' s t) :
    entriesGo st (fun n e f => R n e f ∧ R' n e f) s t := by
  refine List.forall₂_iff_get.2 ⟨h.length_eq, fun i h₁ h₂ => ?_⟩
  obtain ⟨hf, ho⟩ := h.get h₁ h₂
  obtain ⟨-, ho'⟩ := h'.get h₁ h₂
  refine ⟨hf, ?_⟩
  generalize (s.track.get ⟨i, h₁⟩).stations.get st = a at *
  generalize (t.track.get ⟨i, h₂⟩).stations.get st = b at *
  cases ho with
  | none => exact .none
  | some hR => cases ho' with | some hR' => exact .some ⟨hR, hR'⟩

/-- Two tracks that agree but at one row, seen at a station. -/
theorem entriesGo.of_rowAt {R : Word → StationEntry → StationEntry → Prop} (h : s.rowAt front back r)
    (h' : t.rowAt front back q) (hq : q.fixed = r.fixed) (hR : Option.Rel (R r.row) (r.stations.get st) (q.stations.get st))
    (hother : ∀ n, n ≠ r.row → ∀ e, R n e e) : entriesGo st R s t := by
  have hsame : ∀ l : List RowCtx, (∀ p ∈ l, p.row ≠ r.row) →
      List.Forall₂ (fun r q => q.fixed = r.fixed ∧ Option.Rel (R r.row) (r.stations.get st) (q.stations.get st)) l l :=
    fun l hl => List.forall₂_same.2 fun p hp => ⟨rfl, option_rel_refl (hother _ (hl p hp)) _⟩
  rw [entriesGo, h.1, h'.1]
  refine List.rel_append (hsame front fun p hp => h.2 p (List.mem_append_left _ hp)) (.cons ⟨hq, hR⟩ ?_)
  exact hsame back fun p hp => h.2 p (List.mem_append_right _ hp)

/-- An entry whose zone-start event was taken: its geometry, its dues and its registration stand (R81, R87). -/
structure StationEntry.begun (e f : StationEntry) : Prop where
  taken : f.startTaken = true
  endTaken : f.endTaken = e.endTaken
  startDue : f.startDue = e.startDue
  endDue : f.endDue = e.endDue
  face : f.face = e.face

theorem StationEntry.begun_checkStart (throw : Throw) (o : Option RowOutcome) (c : Bool) :
    e.begun (({ e.started with committed := c, outcome := o } : StationEntry).checkStart throw) := by
  rw [StationEntry.checkStart_eq]
  exact ⟨rfl, rfl, rfl, rfl, rfl⟩

/-- The rows through a zone-start event. -/
theorem entriesGo_zoneStartEvent (h : s.rowAt front back r) (he : r.stations.get st = some e) :
    entriesGo st (fun n f g => if n = r.row then f.begun g else g = f) s (s.zoneStartEvent st r.row) := by
  have hgo {q : RowCtx} {f : StationEntry} (h' : (s.zoneStartEvent st r.row).rowAt front back q) (hq : q.fixed = r.fixed)
      (hf : q.stations.get st = some f) (hb : e.begun f) :
      entriesGo st (fun n f g => if n = r.row then f.begun g else g = f) s (s.zoneStartEvent st r.row) := by
    refine entriesGo.of_rowAt h h' hq ?_ fun n hn e => (if_neg hn).symm ▸ rfl
    rw [he, hf]
    exact .some ((if_pos rfl).symm ▸ hb)
  by_cases hc : e.committed = true
  · have htrack := State.zoneStartEvent_committed h he hc
    have hrow : (s.zoneStartEvent st r.row).rowAt front back (r.withEntry st (e.started.checkStart (s.station st).throw)) :=
      ⟨by rw [htrack], h.2⟩
    refine hgo hrow rfl (r.withEntry_get st _) ?_
    have := StationEntry.begun_checkStart (e := e) (s.station st).throw e.outcome e.committed
    exact this
  · obtain ⟨charges, hrow, -⟩ := State.zoneStartEvent_overdue h he (by simpa using hc)
    exact hgo hrow rfl (r.withEntry_get st _) (StationEntry.begun_checkStart _ _ _)

/-- An entry later in the events: what is due stays due and what is taken stays taken. -/
structure StationEntry.later (e f : StationEntry) : Prop where
  startDue : e.startDue = true → f.startDue = true
  endDue : e.endDue = true → f.endDue = true
  startTaken : e.startTaken = true → f.startTaken = true
  endTaken : e.endTaken = true → f.endTaken = true

theorem StationEntry.later.refl (e : StationEntry) : e.later e := ⟨id, id, id, id⟩

theorem StationEntry.later.trans {g : StationEntry} (h : e.later f) (h' : f.later g) : e.later g :=
  ⟨h'.startDue ∘ h.startDue, h'.endDue ∘ h.endDue, h'.startTaken ∘ h.startTaken, h'.endTaken ∘ h.endTaken⟩

theorem StationEntry.driven.later (h : e.driven f) : e.later f :=
  ⟨h.startDue, h.endDue, fun ht => by rw [h.rest]; exact ht, fun ht => h.endTaken.trans ht⟩

theorem StationEntry.rename_later (o : RowOutcome) : e.later (e.rename o) := by
  rw [StationEntry.rename_rest]
  exact ⟨id, id, id, id⟩

/-- What is due stays due through a zone-end event. -/
theorem entriesGo_zoneEndEvent_later (h : s.rowAt front back r) (he : r.stations.get st = some e) :
    entriesGo st (fun _ f g => f.later g) s (s.zoneEndEvent st r.row) := by
  rw [State.zoneEndEvent_eq h he]
  unfold State.zoneTrimmed
  generalize s.measure st r e = error
  generalize s.decideTrim st r error = trim
  refine (((entriesGo_writeRegistration r.row error trim).trans (entriesGo_applyTrim trim)
    (R'' := fun _ f g => f.later g) fun n f g k hg hk => ?_).trans (entriesGo_bandCheck r error)
    (R'' := fun _ f g => f.later g) fun n f g k hg hk => ?_).of_end (State.openAtEnd_track _)
  · refine StationEntry.later.trans ?_ hk.1.later
    rw [hg]
    split
    · exact ⟨id, id, id, fun _ => rfl⟩
    · exact .refl f
  · refine hg.trans ?_
    rw [hk]
    split
    · exact StationEntry.rename_later _
    · exact .refl g

/-- The event whose turn it is at the station: of its row the next flag is set, and no other row has a flag set. -/
theorem entriesGo_zoneEvent (h : s.rowAt front back r) (he : r.stations.get st = some e) :
    entriesGo st (fun n f g => f.later g ∧
      (n ≠ r.row → g.startTaken = f.startTaken ∧ g.endTaken = f.endTaken) ∧
      (n = r.row → g.startTaken = true ∧ (g.endTaken = true ↔ f.endTaken = true ∨ f.startTaken = true))) s
      (s.zoneEvent st r) := by
  have hstarted : r.startedAt st = e.startTaken := by rw [RowCtx.startedAt, he]
  unfold State.zoneEvent
  rw [hstarted]
  by_cases hs : e.startTaken = true
  · rw [if_pos hs]
    refine ((entriesGo_zoneEndEvent h he).and (entriesGo_zoneEndEvent_later h he)).mono_mem fun p hp f g hf ⟨hended, hl⟩ => ?_
    refine ⟨hl, fun hn => ⟨hended.startTaken, (hended.others hn).2.2⟩, fun hn => ?_⟩
    rw [h.own hp hn] at hf
    have heq := Option.some.inj (hf.symm.trans he)
    rw [hended.startTaken, (hended.own hn).2.2.1, heq]
    exact ⟨hs, by simp [hs]⟩
  · rw [if_neg hs]
    have hbegun := entriesGo_zoneStartEvent h he
    refine hbegun.mono_mem fun p hp f g hf hg => ?_
    by_cases hn : p.row = r.row
    · rw [if_pos hn] at hg
      rw [h.own hp hn] at hf
      have heq := Option.some.inj (hf.symm.trans he)
      refine ⟨⟨fun hd => hg.startDue.trans hd, fun hd => hg.endDue.trans hd, fun _ => hg.taken, fun ht => hg.endTaken.trans ht⟩,
        fun hne => absurd hn hne, fun _ => ⟨hg.taken, ?_⟩⟩
      rw [hg.endTaken, heq]
      simp [hs]
    · rw [if_neg hn] at hg
      rw [hg]
      exact ⟨.refl f, fun _ => ⟨rfl, rfl⟩, fun h => absurd h hn⟩

end

end Sys2Proof.Machine
end

section
/-! The loop of zone events: none is left due, and the registration of a row that alone has its events. -/

namespace Sys2Proof.Machine

section
variable {s t u : State} {st : Fin 4} {front back : List RowCtx} {r q : RowCtx} {e f : StationEntry} {n : Word} {k : Nat}

/-! ## None is left due -/

/-- No zone event is due at the station. -/
def State.noneDue (s : State) (st : Fin 4) : Prop := ∀ r ∈ s.track, r.eventDueAt st = false

theorem eventDueAt_iff : r.eventDueAt st = true ↔ ∃ e, r.stations.get st = some e ∧ e.eventDue = true := by
  unfold RowCtx.eventDueAt
  cases r.stations.get st <;> simp

theorem StationEntry.eventDue_iff :
    e.eventDue = true ↔ e.startDue = true ∧ e.startTaken = false ∨ e.endDue = true ∧ e.endTaken = false := by
  simp [StationEntry.eventDue]

/-- The events of an entry that are not taken yet. -/
def StationEntry.untaken (e : StationEntry) : Nat := (!e.startTaken).toNat + (!e.endTaken).toNat

/-- The events of a row at a station that are not taken yet. -/
def RowCtx.untaken (st : Fin 4) (r : RowCtx) : Nat :=
  match r.stations.get st with
  | some e => e.untaken
  | none => 0

/-- The events at a station that are not taken yet. -/
def State.untaken (s : State) (st : Fin 4) : Nat := (s.track.map (RowCtx.untaken st)).sum

theorem StationEntry.untaken_le_two (e : StationEntry) : e.untaken ≤ 2 := by
  unfold StationEntry.untaken
  cases e.startTaken <;> cases e.endTaken <;> decide

theorem State.untaken_le (s : State) (st : Fin 4) : s.untaken st ≤ 2 * s.track.length := by
  have h := List.sum_le_card_nsmul (s.track.map (RowCtx.untaken st)) 2 fun x hx => by
    obtain ⟨r, -, rfl⟩ := List.mem_map.1 hx
    unfold RowCtx.untaken
    cases r.stations.get st with
    | none => exact Nat.zero_le _
    | some e => exact e.untaken_le_two
  rw [List.length_map, smul_eq_mul, mul_comm] at h
  exact h

theorem StationEntry.later.untaken_le (h : e.later f) : f.untaken ≤ e.untaken := by
  obtain ⟨-, -, hs, he⟩ := h
  unfold StationEntry.untaken
  have hle {a b : Bool} (hab : a = true → b = true) : (!b).toNat ≤ (!a).toNat := by
    cases a with
    | false => cases b <;> decide
    | true => rw [hab rfl]
  exact Nat.add_le_add (hle hs) (hle he)

/-- An entry of which the event due is taken has fewer to take. -/
theorem StationEntry.later.untaken_lt (h : e.later f) (hs : f.startTaken = true)
    (hend : f.endTaken = true ↔ e.endTaken = true ∨ e.startTaken = true) (hdue : e.eventDue = true) : f.untaken < e.untaken := by
  have hkept := h.endTaken
  rw [StationEntry.eventDue_iff] at hdue
  unfold StationEntry.untaken
  rw [hs]
  generalize f.endTaken = b at *
  rcases hse : e.startTaken with _ | _
  · rcases hee : e.endTaken with _ | _
    · cases b <;> decide
    · rw [hkept hee]
      decide
  · rw [hse] at hdue hend
    rw [hend.2 (.inr rfl), (hdue.resolve_left (by simp)).2]
    decide

theorem sum_lt_of_forall₂ {w : RowCtx → Nat} {p : RowCtx → Prop} {l l' : List RowCtx}
    (h : List.Forall₂ (fun r q => w q ≤ w r ∧ (p r → w q < w r)) l l') (hp : ∃ r ∈ l, p r) : (l'.map w).sum < (l.map w).sum := by
  have hle {a b : List RowCtx} (hab : List.Forall₂ (fun r q => w q ≤ w r ∧ (p r → w q < w r)) a b) :
      (b.map w).sum ≤ (a.map w).sum := by
    induction hab with
    | nil => exact le_rfl
    | cons hrq _ ih => exact Nat.add_le_add hrq.1 ih
  induction h with
  | nil => simp at hp
  | cons hrq hrest ih =>
    rw [List.map_cons, List.map_cons, List.sum_cons, List.sum_cons]
    obtain ⟨r, hr, hpr⟩ := hp
    rcases List.mem_cons.1 hr with rfl | hr
    · exact Nat.add_lt_add_of_lt_of_le (hrq.2 hpr) (hle hrest)
    · exact Nat.add_lt_add_of_le_of_lt hrq.1 (ih ⟨r, hr, hpr⟩)

theorem State.findDue (hf : s.track.find? (fun r => r.eventDueAt st) = some r) :
    r ∈ s.track ∧ ∃ e, r.stations.get st = some e ∧ e.eventDue = true :=
  ⟨List.mem_of_find?_eq_some hf, eventDueAt_iff.1 (List.find?_some (p := fun r : RowCtx => r.eventDueAt st) hf)⟩

/-- The event whose turn it is leaves fewer to take. -/
theorem State.untaken_zoneEvent (h : s.apart) (hf : s.track.find? (fun r => r.eventDueAt st) = some r) :
    (s.zoneEvent st r).untaken st < s.untaken st := by
  obtain ⟨hr, e, he, hdue⟩ := State.findDue hf
  obtain ⟨front, back, hrow⟩ := h.rowAt hr
  have hgo := entriesGo_zoneEvent hrow he
  refine sum_lt_of_forall₂ (p := fun q => q = r) ?_ ⟨r, hr, rfl⟩
  refine List.Forall₂.imp (fun q q' ⟨_, ho⟩ => ?_) hgo
  unfold RowCtx.untaken
  refine ⟨?_, fun hq => ?_⟩
  · generalize q.stations.get st = a at *
    generalize q'.stations.get st = b at *
    cases ho with
    | none => exact le_rfl
    | some hfg => exact hfg.1.untaken_le
  · rw [hq, he] at ho ⊢
    generalize q'.stations.get st = b at *
    cases ho with
    | some hfg =>
      obtain ⟨hl, -, hown⟩ := hfg
      exact hl.untaken_lt (hown rfl).1 (hown rfl).2 hdue

@[simp] theorem State.zoneEvent_rows (st : Fin 4) (r : RowCtx) (s : State) : (s.zoneEvent st r).rows = s.rows := by
  unfold State.zoneEvent
  split <;> simp

/-- As many events as there are to take leave none due (R5, R80). -/
theorem State.noneDue_zoneEvents (h : s.apart) (hk : s.untaken st ≤ k) : (s.zoneEvents st k).noneDue st := by
  induction k generalizing s with
  | zero =>
    cases hf : s.track.find? fun r => r.eventDueAt st with
    | none =>
      rw [State.zoneEvents_none hf]
      exact fun r hr => by simpa using List.find?_eq_none.1 hf r hr
    | some r =>
      have := State.untaken_zoneEvent h hf
      omega
  | succ k ih =>
    cases hf : s.track.find? fun r => r.eventDueAt st with
    | none =>
      rw [State.zoneEvents_none hf]
      exact fun r hr => by simpa using List.find?_eq_none.1 hf r hr
    | some r =>
      have hless := State.untaken_zoneEvent h hf
      rw [State.zoneEvents_some hf]
      exact ih (h.congr (by simp)) (by omega)

theorem State.noneDue_runZoneEvents (h : s.apart) : (s.runZoneEvents st).noneDue st :=
  State.noneDue_zoneEvents h (s.untaken_le st)

/-- Through the events what is due stays due and what is taken stays taken. -/
theorem entriesGo_zoneEvents (h : s.apart) : entriesGo st (fun _ e f => e.later f) s (s.zoneEvents st k) := by
  induction k generalizing s with
  | zero => exact entriesGo.of_rows rfl fun _ => .refl
  | succ k ih =>
    cases hf : s.track.find? fun r => r.eventDueAt st with
    | none =>
      rw [State.zoneEvents_none hf]
      exact entriesGo.of_rows rfl fun _ => .refl
    | some r =>
      obtain ⟨hr, e, he, -⟩ := State.findDue hf
      obtain ⟨front, back, hrow⟩ := h.rowAt hr
      rw [State.zoneEvents_some hf]
      exact (entriesGo_zoneEvent hrow he).trans (ih (h.congr (by simp))) fun _ _ _ _ h₁ h₂ => h₁.1.trans h₂

/-! ## A row that alone has its events -/

/-- The events taken of row `n` at the station. -/
def State.takenAt (s : State) (st : Fin 4) (n : Word) : Option (Bool × Bool) :=
  (s.entry? st n).map fun e => (e.startTaken, e.endTaken)

/-- An event of a row shows in the events taken of it. -/
theorem State.takenAt_zoneEvents (h : s.apart) (hf : s.track.find? (fun r => r.eventDueAt st) = some r) :
    (s.zoneEvents st (k + 1)).takenAt st r.row ≠ s.takenAt st r.row := by
  obtain ⟨hr, e, he, hdue⟩ := State.findDue hf
  obtain ⟨front, back, hrow⟩ := h.rowAt hr
  have hentry : s.entry? st r.row = some e := (hrow.entry? st).trans he
  obtain ⟨f, hfirst, -, -, hown⟩ := (entriesGo_zoneEvent hrow he).entry?_some hentry
  obtain ⟨g, hg, hl⟩ := (entriesGo_zoneEvents (k := k) (st := st) (h.congr (t := s.zoneEvent st r) (by simp))).entry?_some hfirst
  obtain ⟨hstart, hend⟩ := hown rfl
  rw [State.zoneEvents_some hf, State.takenAt, hg, State.takenAt, hentry]
  intro heq
  simp only [Option.map_some, Option.some.injEq, Prod.mk.injEq] at heq
  obtain ⟨hse, hee⟩ := heq
  have hst := hl.startTaken hstart
  rw [hst] at hse
  rw [StationEntry.eventDue_iff, ← hse] at hdue
  obtain ⟨-, hne⟩ := hdue.resolve_left (by simp)
  rw [hl.endTaken (hend.2 (.inr hse.symm)), hne] at hee
  exact absurd hee (by simp)

/-- The row of number `n` alone has events: the next due is its own. -/
theorem State.findDue_alone (h : s.apart) (hf : s.track.find? (fun r => r.eventDueAt st) = some q)
    (halone : ∀ m, m ≠ n → (s.zoneEvents st (k + 1)).takenAt st m = s.takenAt st m) : q.row = n :=
  by_contra fun hn => State.takenAt_zoneEvents h hf (halone _ hn)

/-- No event follows where every event of the one row that has any is taken. -/
theorem State.zoneEvents_done (h : s.apart) (he : s.entry? st n = some e) (hs : e.startTaken = true) (hend : e.endTaken = true)
    (halone : ∀ m, m ≠ n → (s.zoneEvents st k).takenAt st m = s.takenAt st m) : s.zoneEvents st k = s := by
  cases k with
  | zero => rfl
  | succ k =>
    cases hf : s.track.find? fun r => r.eventDueAt st with
    | none => exact State.zoneEvents_none hf
    | some q =>
      have hq := State.findDue_alone h hf halone
      obtain ⟨hmem, f, hget, hdue⟩ := State.findDue hf
      have hentry := h.entry? hmem st
      rw [hq, he, hget] at hentry
      rw [← Option.some.inj hentry, StationEntry.eventDue_iff, hs, hend] at hdue
      simp at hdue

/-- The event of a row leaves the events taken of the others. -/
theorem State.takenAt_zoneEvent (hrow : s.rowAt front back r) (he : r.stations.get st = some e) (hn : n ≠ r.row) :
    (s.zoneEvent st r).takenAt st n = s.takenAt st n := by
  have hrel := (entriesGo_zoneEvent hrow he).entry? n
  unfold State.takenAt
  generalize s.entry? st n = a at *
  generalize (s.zoneEvent st r).entry? st n = b at *
  cases hrel with
  | none => rfl
  | some hfg =>
    obtain ⟨hs, hend⟩ := hfg.2.1 hn
    rw [Option.map_some, Option.map_some, hs, hend]

/-- What a row's registration is read from: its face, its arrival and the station (R63, R64). -/
theorem State.measure_congr (hc : t.cur = s.cur) (hst : (t.station st).state = (s.station st).state)
    (hi : (t.station st).indexSeen = (s.station st).indexSeen) (hl : q.lead = r.lead) (hf : f.face = e.face) :
    t.measure st q f = s.measure st r e := by
  have harrival : t.arrival st q = s.arrival st r := by rw [State.arrival, State.block_congr hc, hl, State.arrival]
  have hpitch : t.pitch st = s.pitch st := by rw [State.pitch, State.plate_congr hc, State.pitch]
  rw [State.measure, hst, hi, harrival, hf, hpitch, State.measure]

theorem State.decideTrim_congr (hc : t.cur = s.cur) (hst : (t.station st).state = (s.station st).state)
    (hq : q.status = r.status) (error : Option Int) : t.decideTrim st q error = s.decideTrim st r error := by
  cases error with
  | none => rfl
  | some d => simp only [State.decideTrim, hq, State.block_congr hc, hst]

theorem committedThrow.state {o : RowOutcome} (h : committedThrow s t st n o) :
    (t.station st).state = (s.station st).state ∧ (t.station st).indexSeen = (s.station st).indexSeen := by
  obtain ⟨-, hcloses, hopens, hstays⟩ := h
  by_cases hc : (o = .struck ∨ o = .struckUnskipped) ∧ (s.jobs.run = .running ∨ s.jobs.run = .draining) ∧
      (s.station st).throw = .off ∧ t.closePointReached st = true
  · rw [hcloses hc]
    exact ⟨rfl, rfl⟩
  · by_cases ho : ¬ (o = .struck ∨ o = .struckUnskipped) ∧ (∃ p, s.previous? n = some p ∧ p.endedStrike st = true) ∧
        ((s.station st).throw = .closing ∨ (s.station st).throw = .on)
    · rw [hopens ho]
      exact ⟨rfl, rfl⟩
    · rw [hstays hc ho]
      exact ⟨rfl, rfl⟩

/-- A zone-start event keeps the station's state and the index seen. -/
theorem State.zoneStartEvent_state (h : s.rowAt front back r) (he : r.stations.get st = some e) :
    ((s.zoneStartEvent st r.row).station st).state = (s.station st).state ∧
      ((s.zoneStartEvent st r.row).station st).indexSeen = (s.station st).indexSeen := by
  by_cases hc : e.committed = true
  · rw [State.zoneStartEvent_committed h he hc]
    exact ⟨rfl, rfl⟩
  · obtain ⟨-, -, -, -, hthrow⟩ := State.zoneStartEvent_overdue h he (by simpa using hc)
    exact hthrow.state

/-- A row's registration as its zone-end event leaves it, measured in `s` (R63, R64). -/
def State.registers (s : State) (st : Fin 4) (r : RowCtx) (e f : StationEntry) : Prop :=
  f.face = e.face ∧ f.error = s.measure st r e ∧ f.trim = s.decideTrim st r f.error

/-- Where a row alone has events, its registration is the one its zone-end event measures: the start taken already. -/
theorem State.zoneEvents_alone_started (h : s.apart) (hr : r ∈ s.track) (he : r.stations.get st = some e)
    (hs : e.startTaken = true) (hdue : e.endDue = true) (hend : e.endTaken = false) 
    (halone : ∀ m, m ≠ r.row → (s.zoneEvents st (k + 1)).takenAt st m = s.takenAt st m) :
    ∃ f, (s.zoneEvents st (k + 1)).entry? st r.row = some f ∧ s.registers st r e f := by
  cases hf : s.track.find? fun q => q.eventDueAt st with
  | none =>
    have := List.find?_eq_none.1 hf r hr
    exact absurd (eventDueAt_iff.2 ⟨e, he, StationEntry.eventDue_iff.2 (.inr ⟨hdue, hend⟩)⟩) this
  | some q =>
    obtain ⟨front, back, hrow⟩ := h.rowAt hr
    have hq := hrow.own (State.findDue hf).1 (State.findDue_alone h hf halone)
    rw [hq] at hf
    rw [State.zoneEvents_some hf] at halone ⊢
    have hevent : s.zoneEvent st r = s.zoneEndEvent st r.row := if_pos (by rw [RowCtx.startedAt, he]; exact hs)
    obtain ⟨f, hentry, hended⟩ := (entriesGo_zoneEndEvent hrow he).entry?_some ((hrow.entry? st).trans he)
    obtain ⟨herror, htrim, htaken, hface⟩ := hended.own rfl
    rw [← hevent] at hentry
    rw [State.zoneEvents_done (h.congr (by simp)) hentry (hended.startTaken.trans hs) htaken fun m hm => ?_]
    · exact ⟨f, hentry, hface, herror, by rw [htrim, herror]⟩
    · rw [halone m hm, State.takenAt_zoneEvent hrow he hm]

/-- Where a row alone has events, its registration is the one its zone-end event measures (R5, R63, R64). -/
theorem State.zoneEvents_alone (h : s.apart) (hr : r ∈ s.track) (he : r.stations.get st = some e)
    (hdue : e.endDue = true) (hend : e.endTaken = false)
    (halone : ∀ m, m ≠ r.row → (s.zoneEvents st (k + 2)).takenAt st m = s.takenAt st m) :
    ∃ f, (s.zoneEvents st (k + 2)).entry? st r.row = some f ∧ s.registers st r e f := by
  by_cases hs : e.startTaken = true
  · exact State.zoneEvents_alone_started h hr he hs hdue hend halone
  · cases hf : s.track.find? fun q => q.eventDueAt st with
    | none =>
      have := List.find?_eq_none.1 hf r hr
      exact absurd (eventDueAt_iff.2 ⟨e, he, StationEntry.eventDue_iff.2 (.inr ⟨hdue, hend⟩)⟩) this
    | some q =>
      obtain ⟨front, back, hrow⟩ := h.rowAt hr
      have hq := hrow.own (State.findDue hf).1 (State.findDue_alone h hf halone)
      rw [hq] at hf
      rw [State.zoneEvents_some hf] at halone ⊢
      have hothers : ∀ m, m ≠ r.row → (s.zoneEvent st r).takenAt st m = s.takenAt st m :=
        fun m hm => State.takenAt_zoneEvent hrow he hm
      have hevent : s.zoneEvent st r = s.zoneStartEvent st r.row :=
        if_neg (by rw [RowCtx.startedAt, he]; exact hs)
      have hapart : (s.zoneEvent st r).apart := h.congr (by simp)
      rw [hevent] at halone hothers hapart ⊢
      have hgo := entriesGo_zoneStartEvent hrow he
      obtain ⟨r', hr', hfixed, hrel⟩ := hgo.mem hr
      have hrow' := RowCtx.row_of_fixed hfixed
      rw [he] at hrel
      cases hget : r'.stations.get st with
      | none => rw [hget] at hrel; cases hrel
      | some f =>
        rw [hget] at hrel
        cases hrel with
        | some hbegun =>
          rw [if_pos rfl] at hbegun
          have hstation := State.zoneStartEvent_state hrow he
          have hcur : (s.zoneStartEvent st r.row).cur = s.cur := by simp
          generalize s.zoneStartEvent st r.row = v at *
          rw [← hrow'] at halone hothers ⊢
          obtain ⟨g, hg, hface, herror, htrim⟩ := State.zoneEvents_alone_started hapart hr' hget hbegun.taken
            (hbegun.endDue.trans hdue) (hbegun.endTaken.trans hend) fun m hm => by rw [halone m hm, hothers m hm]
          have hlead : r'.lead = r.lead := congrArg (fun x => x.2.2.1) hfixed
          have hstatus : r'.status = r.status := congrArg (fun x => x.2.2.2.1) hfixed
          refine ⟨g, hg, hface.trans hbegun.face, ?_, ?_⟩
          · rw [herror]
            exact State.measure_congr hcur hstation.1 hstation.2 hlead hbegun.face
          · rw [htrim]
            exact State.decideTrim_congr hcur hstation.1 hstatus _

end

end Sys2Proof.Machine
end

section
/-! The station's part in a web position change: the zone events it takes and the registration of a row that alone has them. -/

namespace Sys2Proof.Machine

section
variable {s t u : State} {st : Fin 4} {r q : RowCtx} {e f : StationEntry} {n m : Word} {p : Pos} {delta : Int}

theorem State.entry?_mem (h : s.entry? st n = some e) : ∃ r ∈ s.track, r.row = n ∧ r.stations.get st = some e := by
  obtain ⟨r, hr, he⟩ := Option.bind_eq_some_iff.1 h
  exact ⟨r, List.mem_of_find?_eq_some hr, by simpa using List.find?_some hr, he⟩

/-- Where no event is due, what is due of an entry is taken. -/
theorem State.noneDue.entry (h : s.noneDue st) (he : s.entry? st n = some e) :
    (e.startDue = true → e.startTaken = true) ∧ (e.endDue = true → e.endTaken = true) := by
  obtain ⟨r, hr, -, hget⟩ := State.entry?_mem he
  have hdue : ¬ e.eventDue = true := fun hd => by
    have := eventDueAt_iff.2 ⟨e, hget, hd⟩
    rw [h r hr] at this
    exact absurd this (by simp)
  rw [StationEntry.eventDue_iff, not_or] at hdue
  obtain ⟨hs, hend⟩ := hdue
  exact ⟨fun hd => by simpa [hd] using hs, fun hd => by simpa [hd] using hend⟩

/-! ## Up to the zone events -/

/-- The station's part in a web position change before its zone events: what the web reaches is due, the cylinder turns
and the boundaries drift (R5, R15, R56). -/
def State.webDriven (p : Pos) (delta : Int) (st : Fin 4) (s : State) : State :=
  (((s.mapEntries st fun e => e.advance p s.web e.face).latchCommits st).deliverCylinder st delta).drift st delta

theorem State.stationWeb_of_active (h : s.activeAt st = true) :
    s.stationWeb p delta st = ((s.webDriven p delta st).runZoneEvents st).closeTest st := if_pos h

theorem State.webDriven_frame (p : Pos) (delta : Int) (st : Fin 4) (s : State) :
    (s.webDriven p delta st).cur = s.cur ∧ (s.webDriven p delta st).rows = s.rows := by
  simp [State.webDriven]

theorem State.webDriven_station (p : Pos) (delta : Int) (st : Fin 4) (s : State) :
    ((s.webDriven p delta st).station st).state = (s.station st).state ∧
      ((s.webDriven p delta st).station st).indexSeen = (s.station st).indexSeen := by
  unfold State.webDriven
  have hbefore : (((s.mapEntries st fun e => e.advance p s.web e.face).latchCommits st).deliverCylinder st delta).station st =
      s.station st := by simp [State.station]
  generalize ((s.mapEntries st fun e => e.advance p s.web e.face).latchCommits st).deliverCylinder st delta = v at *
  obtain ⟨hy, -⟩ := v.drift_station (st := st) delta
  rw [hy, hbefore]
  exact ⟨rfl, rfl⟩

/-- An entry up to the zone events: what the web reaches of it is due, and its face goes with the drift (R5, R56). -/
structure State.reached (s : State) (st : Fin 4) (p : Pos) (delta : Int) (e f : StationEntry) : Prop where
  startTaken : f.startTaken = e.startTaken
  endTaken : f.endTaken = e.endTaken
  startDue : e.startTaken = false → reaches p e.zoneStart s.web e.zoneStart = true → f.startDue = true
  endDue : e.endTaken = false → reaches p e.zoneEnd s.web e.zoneEnd = true →
    f.endDue = true ∧ f.face = moved e.face (s.driftTicks st delta)

theorem entriesGo_webDriven : entriesGo st (fun _ e f => s.reached st p delta e f) s (s.webDriven p delta st) := by
  unfold State.webDriven
  have hfirst := (entriesGo_mapEntries (s := s) (st := st) (R := fun _ e f => f = e.advance p s.web e.face) fun _ _ => rfl).trans
    entriesGo_latchCommits (R'' := fun _ e f => (e.advance p s.web e.face).sameButOwed f) fun _ e f g h hg => h ▸ hg
  have hticks : (((s.mapEntries st fun e => e.advance p s.web e.face).latchCommits st).deliverCylinder st delta).driftTicks st
      delta = s.driftTicks st delta := by
    have hcur : (((s.mapEntries st fun e => e.advance p s.web e.face).latchCommits st).deliverCylinder st delta).cur = s.cur := by
      simp
    have hstation : (((s.mapEntries st fun e => e.advance p s.web e.face).latchCommits st).deliverCylinder st delta).station st =
        s.station st := by simp [State.station]
    rw [State.driftTicks, State.driftModulus, hstation, State.block_congr hcur, State.driftTicks, State.driftModulus]
  have hsecond := hfirst.of_end (t := (((s.mapEntries st fun e => e.advance p s.web e.face).latchCommits st).deliverCylinder st
    delta)) (by simp)
  generalize ((s.mapEntries st fun e => e.advance p s.web e.face).latchCommits st).deliverCylinder st delta = v at *
  refine hsecond.trans (entriesGo_drift delta) fun _ e f g hf ⟨hd, hface⟩ => ?_
  rw [hticks] at hface
  have hrest := hd.rest
  rw [hf] at hrest hface hd
  refine ⟨?_, ?_, fun hs hr => hd.startDue ?_, fun hend hr => ?_⟩
  · rw [hrest]; rfl
  · rw [hrest]; rfl
  · simp [StationEntry.advance, hs]
    exact .inr hr
  · have hdue : (e.advance p s.web e.face).endDue = true := by
      simp [StationEntry.advance, hend]
      exact .inr hr
    exact ⟨hd.endDue hdue, hface hend hdue⟩

/-! ## The whole part -/

/-- The entries at a station, with the numbers of their rows. -/
def State.entriesAt (s : State) (st : Fin 4) : List (Word × Option StationEntry) := s.track.map fun r => (r.row, r.stations.get st)

theorem State.entriesAt_of_places (h : t.places = s.places) (st : Fin 4) : t.entriesAt st = s.entriesAt st := by
  have hread (u : State) : u.entriesAt st = u.places.map fun x => (x.1, x.2.get st) := by
    rw [State.places, List.map_map]
    rfl
  rw [hread, h, ← hread]

theorem State.entriesAt_of_atStation (h : t.atStation st = s.atStation st) : t.entriesAt st = s.entriesAt st :=
  congrArg (fun x => x.2.2) h

theorem State.entry?_eq_find (s : State) (st : Fin 4) (n : Word) :
    s.entry? st n = ((s.entriesAt st).find? fun x => x.1 == n).bind Prod.snd := by
  unfold State.entry? State.row? State.entriesAt
  induction s.track with
  | nil => rfl
  | cons r l ih =>
    rw [List.map_cons, List.find?_cons, List.find?_cons]
    cases r.row == n with
    | true => rfl
    | false => exact ih

theorem State.entry?_of_entriesAt (h : t.entriesAt st = s.entriesAt st) (n : Word) : t.entry? st n = s.entry? st n := by
  rw [State.entry?_eq_find, h, ← State.entry?_eq_find]

theorem State.noneDue_iff : s.noneDue st ↔ ∀ x ∈ s.entriesAt st, ∀ e, x.2 = some e → e.eventDue = false := by
  unfold State.noneDue State.entriesAt
  rw [List.forall_mem_map]
  refine forall₂_congr fun r _ => ?_
  unfold RowCtx.eventDueAt
  cases r.stations.get st <;> simp

theorem State.noneDue_of_entriesAt (h : t.entriesAt st = s.entriesAt st) (hs : s.noneDue st) : t.noneDue st := by
  rw [State.noneDue_iff, h, ← State.noneDue_iff]
  exact hs

/-- The flags of row `r`, and its registration where it alone has events, as a web position change from `p` leaves them in
`v`: read against `s`, where it was (R5, R63, R64, R80). -/
structure State.webTakes (s : State) (st : Fin 4) (p w : Pos) (ticks : Int) (r : RowCtx) (e : StationEntry) (alone : Prop)
    (f : StationEntry) : Prop where
  start : reaches p e.zoneStart w e.zoneStart = true → f.startTaken = true
  ended : reaches p e.zoneEnd w e.zoneEnd = true → f.endTaken = true
  registered : reaches p e.zoneEnd w e.zoneEnd = true → e.endTaken = false → alone →
    f.face = moved e.face ticks ∧ f.error = s.measure st r { e with face := f.face } ∧ f.trim = s.decideTrim st r f.error

theorem State.stationWeb_takes (h : s.apart) (hactive : s.activeAt st = true) :
    (s.stationWeb p delta st).noneDue st ∧
      ∀ r ∈ s.track, ∀ e, r.stations.get st = some e →
        ∃ f, (s.stationWeb p delta st).entry? st r.row = some f ∧
          s.webTakes st p s.web (s.driftTicks st delta) r e
            (∀ m, m ≠ r.row → (s.stationWeb p delta st).takenAt st m = s.takenAt st m) f := by
  rw [State.stationWeb_of_active hactive]
  have hgo := entriesGo_webDriven (s := s) (st := st) (p := p) (delta := delta)
  obtain ⟨hcur, hrows⟩ := s.webDriven_frame p delta st
  obtain ⟨hstate, hseen⟩ := s.webDriven_station p delta st
  generalize s.webDriven p delta st = d at *
  have hd : d.apart := h.congr hrows
  have hplaces : ((d.runZoneEvents st).closeTest st).places = (d.runZoneEvents st).places := by simp
  have hat := State.entriesAt_of_places hplaces st
  have hentry := State.entry?_of_entriesAt hat
  have hnone := State.noneDue_runZoneEvents (st := st) hd
  refine ⟨State.noneDue_of_entriesAt hat hnone, fun r hr e he => ?_⟩
  have hlater := entriesGo_zoneEvents (st := st) (k := 2 * d.track.length) hd
  change entriesGo st _ d (d.runZoneEvents st) at hlater
  obtain ⟨g, hg, hreached⟩ := hgo.entry?_some ((h.entry? hr st).trans he)
  obtain ⟨f, hf, hl⟩ := hlater.entry?_some hg
  obtain ⟨hsdue, hedue⟩ := hnone.entry hf
  refine ⟨f, (hentry _).trans hf, fun hs => ?_, fun hs => ?_, fun hs hend halone => ?_⟩
  · rcases htaken : e.startTaken with _ | _
    · exact hsdue (hl.startDue (hreached.startDue htaken hs))
    · exact hl.startTaken (hreached.startTaken.trans htaken)
  · rcases htaken : e.endTaken with _ | _
    · exact hedue (hl.endDue (hreached.endDue htaken hs).1)
    · exact hl.endTaken (hreached.endTaken.trans htaken)
  · obtain ⟨hdue, hface⟩ := hreached.endDue hend hs
    obtain ⟨q, hq, hfixed, hrel⟩ := hgo.mem hr
    have hrow := RowCtx.row_of_fixed hfixed
    have hget : q.stations.get st = some g := by rw [← hd.entry? hq st, hrow, hg]
    have hflags (m : Word) : d.takenAt st m = s.takenAt st m := by
      have hrel := hgo.entry? m
      unfold State.takenAt
      generalize s.entry? st m = a at *
      generalize d.entry? st m = b at *
      cases hrel with
      | none => rfl
      | some hab => rw [Option.map_some, Option.map_some, hab.startTaken, hab.endTaken]
    have hlen : ∃ k, 2 * d.track.length = k + 2 := by
      obtain ⟨x, l, hl⟩ := List.exists_cons_of_ne_nil (List.ne_nil_of_mem hq)
      exact ⟨2 * l.length, by rw [hl, List.length_cons]; omega⟩
    obtain ⟨k, hk⟩ := hlen
    have hrun : d.runZoneEvents st = d.zoneEvents st (k + 2) := by rw [State.runZoneEvents, hk]
    have halone' : ∀ m, m ≠ q.row → (d.zoneEvents st (k + 2)).takenAt st m = d.takenAt st m := fun m hm => by
      rw [hflags, ← halone m (hrow ▸ hm), State.takenAt, State.takenAt, hentry, hrun]
    obtain ⟨f', hf', hface', herror, htrim⟩ :=
      State.zoneEvents_alone hd hq hget hdue (hreached.endTaken.trans hend) halone'
    rw [← hrun, hrow, hf] at hf'
    rw [Option.some.inj hf']
    have hlead : q.lead = r.lead := congrArg (fun x => x.2.2.1) hfixed
    have hstatus : q.status = r.status := congrArg (fun x => x.2.2.2.1) hfixed
    refine ⟨hface'.trans hface, ?_, ?_⟩
    · rw [herror]
      exact State.measure_congr hcur hstate hseen hlead hface'.symm
    · rw [htrim]
      exact State.decideTrim_congr hcur hstate hstatus _

end

end Sys2Proof.Machine
end

section
/-! What the mark unit's part in a count leaves of the entries at a station. -/

namespace Sys2Proof.Machine

section
variable {s t u : State} {st : Fin 4} {r q : RowCtx} {e f : StationEntry} {n : Word} {p : Pos}

/-- The entry is the same but for its outcome. -/
def StationEntry.sameButOutcome (e f : StationEntry) : Prop := f = { e with outcome := f.outcome }

theorem StationEntry.sameButOutcome.refl (e : StationEntry) : e.sameButOutcome e := rfl

/-- From `s` to `t` every row stays on the track with its entry at the station, but for its outcome, and no event became
due. -/
structure State.entriesStay (st : Fin 4) (s t : State) : Prop where
  rows : ∀ r ∈ s.track, ∃ q ∈ t.track, q.row = r.row
  entries : ∀ r ∈ s.track, Option.Rel StationEntry.sameButOutcome (s.entry? st r.row) (t.entry? st r.row)
  due : s.noneDue st → t.noneDue st

theorem State.entriesStay.trans (h : s.entriesStay st t) (h' : t.entriesStay st u) : s.entriesStay st u := by
  refine ⟨fun r hr => ?_, fun r hr => ?_, h'.due ∘ h.due⟩
  · obtain ⟨q, hq, hrow⟩ := h.rows r hr
    obtain ⟨p, hp, hrow'⟩ := h'.rows q hq
    exact ⟨p, hp, hrow'.trans hrow⟩
  · obtain ⟨q, hq, hrow⟩ := h.rows r hr
    have hsecond := h'.entries q hq
    rw [hrow] at hsecond
    exact option_rel_trans (fun e f g hf hg => by rw [StationEntry.sameButOutcome, hg, hf]) (h.entries r hr) hsecond

theorem State.entriesStay.of_entriesAt (h : t.entriesAt st = s.entriesAt st) : s.entriesStay st t := by
  refine ⟨fun r hr => ?_, fun r _ => ?_, State.noneDue_of_entriesAt h⟩
  · have hmem : (r.row, r.stations.get st) ∈ t.entriesAt st := h ▸ List.mem_map_of_mem hr
    obtain ⟨q, hq, heq⟩ := List.mem_map.1 hmem
    exact ⟨q, hq, congrArg Prod.fst heq⟩
  · rw [State.entry?_of_entriesAt h]
    exact option_rel_refl StationEntry.sameButOutcome.refl _

theorem State.entriesStay.of_places (h : t.places = s.places) : s.entriesStay st t :=
  .of_entriesAt (State.entriesAt_of_places h st)

theorem State.entriesStay.of_track (h : t.track = s.track) : s.entriesStay st t :=
  .of_entriesAt (by rw [State.entriesAt, h, State.entriesAt])

theorem StationEntry.eventDue_outcome (h : e.sameButOutcome f) : f.eventDue = e.eventDue := by rw [h]; rfl

theorem State.entriesStay.of_entriesGo (h : entriesGo st (fun _ e f => e.sameButOutcome f) s t) :
    s.entriesStay st t := by
  refine ⟨fun r hr => ?_, fun r _ => h.entry? r.row, fun hnone q hq => ?_⟩
  · obtain ⟨q, hq, hfixed, -⟩ := h.mem hr
    exact ⟨q, hq, RowCtx.row_of_fixed hfixed⟩
  · obtain ⟨i, hi, rfl⟩ := List.mem_iff_getElem.1 hq
    have hi' : i < s.track.length := h.length_eq ▸ hi
    obtain ⟨-, hrel⟩ := List.Forall₂.get h hi' hi
    have hdue := hnone _ (List.getElem_mem hi')
    rw [List.get_eq_getElem, List.get_eq_getElem] at hrel
    dsimp only at hrel
    unfold RowCtx.eventDueAt at *
    generalize s.track[i].stations.get st = a at *
    generalize t.track[i].stations.get st = b at *
    cases hrel with
    | none => rfl
    | some hf => exact (StationEntry.eventDue_outcome hf).trans hdue

/-! ## The lanes -/

@[simp] theorem State.places_mapRow (n : Word) {f : RowCtx → RowCtx} (hr : ∀ r, (f r).row = r.row)
    (hs : ∀ r, (f r).stations = r.stations) : (s.mapRow n f).places = s.places := by
  have htrack : (s.mapRow n f).track = s.track.map fun r => if r.row = n then f r else r := rfl
  rw [State.places, htrack, List.map_map, State.places]
  refine List.map_congr_left fun r _ => ?_
  simp only [Function.comp_apply]
  split
  · rw [hr, hs]
  · rfl

@[simp] theorem State.places_withMark (x : MarkUnit) : (s.withMark x).places = s.places := rfl

@[simp] theorem State.places_setLane (l : Fin 4) (n : Word) (x : LaneEntry) : (s.setLane l n x).places = s.places :=
  State.places_mapRow n (fun _ => rfl) fun _ => rfl

theorem State.places_closeLane (l : Fin 4) : (s.closeLane p l).places = s.places := by
  unfold State.closeLane State.laneMissing
  split
  · split
    · exact State.places_setLane _ _ _
    · rfl
  · rfl

theorem State.places_closeLanes : (forLanes (State.closeLane p) s).places = s.places :=
  forLanes_induct (P := fun u => u.places = s.places) (fun l u hu => (u.places_closeLane l).trans hu) rfl

theorem State.places_openLane (lead : Pos) (l : Fin 4) : (s.openLane n lead l).places = s.places := by
  unfold State.openLane State.laneFound State.laneMissing
  cases s.mark.held.get l <;> dsimp only <;> split_ifs <;> simp [State.setWindow, State.setHeld]

/-! ## A row open -/

theorem State.serving_withdraw_stay (n : Word) : s.entriesStay st (s.serving st (State.withdraw n)) :=
  .of_places (State.serving_withdraw_places n)

theorem State.sacrifice_stay (n : Word) : s.entriesStay st (s.sacrifice st n) := by
  unfold State.sacrifice
  dsimp only
  have hfirst : s.entriesStay st (s.mapEntry st n fun e => { e with outcome := some .sacrificed }) :=
    .of_entriesGo (entriesGo_mapEntry n (fun _ => rfl) fun _ _ _ => .refl _)
  have hsecond := hfirst.trans (State.serving_withdraw_stay n)
  generalize (s.mapEntry st n fun e => { e with outcome := some .sacrificed }).serving st (State.withdraw n) = v at *
  split
  · split
    · exact hsecond
    · exact hsecond.trans (.of_track rfl)
  · exact hsecond.trans (.of_track rfl)

theorem State.giveUp_stay (splice : Word) (l : List Word) : s.entriesStay st (s.giveUp st splice l) := by
  induction l generalizing s with
  | nil => exact .of_track rfl
  | cons n l ih =>
    refine State.entriesStay.trans ?_ ih
    split
    · split
      · unfold State.addRisk
        split
        · exact .of_track rfl
        · exact .of_track rfl
      · exact State.sacrifice_stay n
    · exact .of_track rfl

theorem State.spliceTest_stay (r : RowCtx) : s.entriesStay st (s.spliceTest st r) := by
  unfold State.spliceTest
  split
  · exact State.giveUp_stay r.row _
  · exact .of_track rfl

theorem State.entry?_mapRow (hn : n ≠ r.row) {g : RowCtx → RowCtx} (hg : ∀ q, (g q).row = q.row) :
    (s.mapRow r.row g).entry? st n = s.entry? st n := by
  have htrack : (s.mapRow r.row g).track = s.track.map fun q => if q.row = r.row then g q else q := rfl
  unfold State.entry? State.row?
  rw [htrack]
  induction s.track with
  | nil => rfl
  | cons q l ih =>
    rw [List.map_cons, List.find?_cons, List.find?_cons]
    by_cases hq : q.row = r.row
    · have hne : (q.row == n) = false := by rw [hq]; exact beq_false_of_ne hn.symm
      rw [if_pos hq, hg, hne]
      exact ih
    · rw [if_neg hq]
      cases q.row == n with
      | true => rfl
      | false => exact ih

/-- Another row placed at the station. -/
theorem State.entriesStay.placeRow (h : s.entriesStay st u) (hn : ∀ q ∈ s.track, q.row ≠ r.row) :
    s.entriesStay st (u.placeRow st r) := by
  have htrack : (u.placeRow st r).track = u.track.map fun q =>
      if q.row = r.row then { q with stations := q.stations.set st (some (u.newEntry st r)) } else q := rfl
  refine ⟨fun q hq => ?_, fun q hq => ?_, fun hnone q hq => ?_⟩
  · obtain ⟨x, hx, hxr⟩ := h.rows q hq
    refine ⟨_, htrack ▸ List.mem_map_of_mem hx, ?_⟩
    split <;> exact hxr
  · have hentry : (u.placeRow st r).entry? st q.row = u.entry? st q.row := State.entry?_mapRow (hn q hq) fun _ => rfl
    rw [hentry]
    exact h.entries q hq
  · rw [htrack] at hq
    obtain ⟨x, hx, rfl⟩ := List.mem_map.1 hq
    split
    · simp [RowCtx.eventDueAt, State.newEntry, StationEntry.eventDue]
    · exact h.due hnone x hx

theorem State.entriesStay.stationOpen (h : s.entriesStay st u) (hn : ∀ q ∈ s.track, q.row ≠ r.row) (k : Fin 4) :
    s.entriesStay st (u.stationOpen r k) := by
  by_cases hk : st = k
  · rw [← hk]
    unfold State.stationOpen
    split
    · exact (h.placeRow hn).trans (State.spliceTest_stay r)
    · exact h
  · exact h.trans (.of_entriesAt (State.entriesAt_of_atStation (State.atStation_stationOpen hk r)))

theorem State.appendRow_stay (hr : r.stations = .all none) : s.entriesStay st (s.appendRow r) := by
  have htrack := s.appendRow_track r
  refine ⟨fun q hq => ⟨q, ?_, rfl⟩, fun q hq => ?_, fun hnone q hq => ?_⟩
  · rw [htrack]
    exact List.mem_append_left _ hq
  · have hentry : (s.appendRow r).entry? st q.row = s.entry? st q.row := by
      have hfound : (s.track.find? fun x => x.row == q.row).isSome := by
        rw [List.find?_isSome]
        exact ⟨q, hq, beq_self_eq_true _⟩
      obtain ⟨x, hx⟩ := Option.isSome_iff_exists.1 hfound
      unfold State.entry? State.row?
      rw [htrack, List.find?_append, hx]
      rfl
    rw [hentry]
    exact option_rel_refl StationEntry.sameButOutcome.refl _
  · rw [htrack] at hq
    rcases List.mem_append.1 hq with hq | hq
    · exact hnone q hq
    · rw [List.mem_singleton.1 hq, RowCtx.eventDueAt, hr]
      simp

theorem State.rowBegun_stay (status : MarkStatus) (lead : Pos) : s.entriesStay st (s.rowBegun status lead) := by
  have hfirst : s.entriesStay st (s.appendRow (s.newRow status lead)) := State.appendRow_stay rfl
  unfold State.rowBegun
  dsimp only
  generalize s.appendRow (s.newRow status lead) = v at *
  have hlanes : (forLanes (State.openLane (s.newRow status lead).row lead) v).places = v.places :=
    forLanes_induct (P := fun u => u.places = v.places) (fun l u hu => (u.places_openLane lead l).trans hu) rfl
  have hsecond := hfirst.trans (State.entriesStay.of_places (st := st) hlanes)
  generalize forLanes (State.openLane (s.newRow status lead).row lead) v = w at *
  exact hsecond.trans (.of_track (by simp))

/-- A row open with room leaves the older rows' entries but their outcomes (R28, R85). -/
theorem State.openRow_stay (status : MarkStatus) (lead : Pos) (hroom : s.track.length < 32)
    (hn : ∀ q ∈ s.track, q.row ≠ s.mark.nextRow) : s.entriesStay st (s.openRow status lead) := by
  rw [State.openRow_of_room _ _ _ hroom]
  exact forStations_induct (P := fun u => s.entriesStay st u) (fun k u hu => hu.stationOpen hn k) (s.rowBegun_stay status lead)

/-! ## The count -/

/-- The run is held by the reverse check, or the check changes nothing (R8, R149). -/
theorem State.reverseCheck_held (u : State) :
    u.reverseCheck = u ∨ u.jobs.run.holdable = true ∧ u.reverseCheck.jobs.run = .held := by
  unfold State.reverseCheck
  split
  · rename_i h
    exact .inr ⟨(Bool.and_eq_true_iff.1 h).1, State.hold_run _⟩
  · exact .inl rfl

theorem State.openRow_missing_run (lead : Pos) (hroom : s.track.length < 32) :
    (s.openRow .missing lead).jobs.run = s.jobs.run := by
  rw [State.openRow_of_room _ _ _ hroom]
  simp [forStations, State.rowBegun, State.noteFirst, forLanes]

/-- A web position change that holds no run: the leading window closes into a row that has room, or no row opens (R5, R20,
R33). -/
theorem State.webChange_kept (hheld : (s.webChange p).jobs.run ≠ .held ∨ s.jobs.run = .held) :
    ∃ w, s.webChange p = forLanes (State.closeLane p) w ∧ (w = s.lanesClosed p ∨
      ∃ e, (s.lanesClosed p).leadingCloses p e ∧ (s.lanesClosed p).track.length < 32 ∧
        w = (s.lanesClosed p).openRow .missing e) := by
  rw [State.webChange_eq_closes] at *
  have hrun : (s.lanesClosed p).jobs.run = s.jobs.run := by simp
  generalize s.lanesClosed p = v at *
  rw [← hrun] at hheld
  have hrest : (v.closeLeading p).jobs.run = v.jobs.run → (forLanes (State.closeLane p) (v.closeLeading p)).reverseCheck =
      forLanes (State.closeLane p) (v.closeLeading p) := fun hsame => by
    have hjobs : (forLanes (State.closeLane p) (v.closeLeading p)).jobs.run = (v.closeLeading p).jobs.run := by simp
    generalize forLanes (State.closeLane p) (v.closeLeading p) = x at *
    refine x.reverseCheck_held.resolve_right fun ⟨hholds, hr⟩ => ?_
    rw [hjobs, hsame, hheld.resolve_left fun h => h hr] at hholds
    exact absurd hholds (by decide)
  by_cases h : ∃ e, v.leadingCloses p e
  · obtain ⟨e, he⟩ := h
    have hopen := State.closeLeading_of_closes he
    rcases Nat.lt_or_ge v.track.length 32 with hroom | hfull
    · have hsame : (v.closeLeading p).jobs.run = v.jobs.run := by
        rw [hopen]
        exact State.openRow_missing_run e hroom
      exact ⟨v.closeLeading p, hrest hsame, .inr ⟨e, he, hroom, hopen⟩⟩
    · rw [State.openRow_of_full _ _ _ hfull, State.handHold_of_holdable _ (by rw [he.1]; rfl)] at hopen
      have hjobs : (forLanes (State.closeLane p) (v.closeLeading p)).jobs.run = .held := by
        rw [hopen]
        simp [State.hold_run]
      generalize forLanes (State.closeLane p) (v.closeLeading p) = x at *
      have hheldx : x.reverseCheck.jobs.run = .held := by
        rcases x.reverseCheck_held with hr | ⟨-, hr⟩
        · rw [hr, hjobs]
        · exact hr
      have := hheld.resolve_left fun h => h hheldx
      exact absurd (he.1.symm.trans this) (by simp)
  · have hstands := State.closeLeading_of_stands (not_exists.1 h)
    exact ⟨v.closeLeading p, hrest (by rw [hstands]), .inl hstands⟩

/-- The mark unit's part in a count leaves the entries at a station but their outcomes, where the count holds no run (R20,
R28). -/
theorem State.webChange_stay (hn : ∀ q ∈ s.track, q.row ≠ s.mark.nextRow)
    (hheld : (s.webChange p).jobs.run ≠ .held ∨ s.jobs.run = .held) : (s.webMoved p).entriesStay st (s.webChange p) := by
  obtain ⟨w, hw, hcases⟩ := State.webChange_kept hheld
  have hfirst : (s.webMoved p).entriesStay st (s.lanesClosed p) := by
    unfold State.lanesClosed
    exact .of_places State.places_closeLanes
  have hlast : w.entriesStay st (s.webChange p) := by
    rw [hw]
    exact .of_places State.places_closeLanes
  have hrows : (s.lanesClosed p).rows = s.rows := by simp
  have hnext : (s.lanesClosed p).mark.nextRow = s.mark.nextRow := by rw [State.lanesClosed_mark]
  generalize s.lanesClosed p = v at *
  have hn' : ∀ q ∈ v.track, q.row ≠ v.mark.nextRow := by
    intro q hq
    have hmem : q.fixed ∈ s.rows := hrows ▸ List.mem_map_of_mem hq
    obtain ⟨x, hx, hfixed⟩ := List.mem_map.1 hmem
    rw [hnext, RowCtx.row_of_fixed hfixed.symm]
    exact hn x hx
  have hmid : v.entriesStay st w := by
    rcases hcases with heq | ⟨e, -, hroom, heq⟩
    · exact .of_track (by rw [heq])
    · rw [heq]
      exact State.openRow_stay .missing e hroom hn'
  exact (hfirst.trans hmid).trans hlast

end

end Sys2Proof.Machine
end

section
/-! The zone events of a count, and the statement about errors, trims and zone events. -/

namespace Sys2Proof.Machine

section
variable {s t u v : State} {st : Fin 4} {r q : RowCtx} {e f : StationEntry} {n m : Word} {p : Pos}

/-! ## The stations' part of a count -/

/-- The next row number is ahead of every row on the track (R27). -/
theorem numbered_next {last next : Word} {r : RowCtx} {rest : List RowCtx} (h : numbered last next (r :: rest))
    (hlen : rest.length < 32) : 1 ≤ (next - r.row).toNat ∧ (next - r.row).toNat ≤ 2 * (rest.length + 1) := by
  induction rest generalizing r with
  | nil =>
    obtain ⟨-, -, hnext⟩ := h
    rcases rowSucc_sub_toNat r.row with hs | hs <;> rw [hnext, hs] <;> simp
  | cons q rest ih =>
    obtain ⟨-, hq, hrest⟩ := h
    have hstep := rowSucc_sub_toNat r.row
    rw [← hq] at hstep
    rw [List.length_cons] at hlen ⊢
    obtain ⟨hlo, hhi⟩ := ih hrest (by omega)
    have hsum : next - r.row = (next - q.row) + (q.row - r.row) := by bv_omega
    rw [hsum, BitVec.toNat_add]
    omega

theorem State.trackOk.ne_next (h : s.trackOk) : ∀ q ∈ s.track, q.row ≠ s.mark.nextRow := by
  obtain ⟨hlen, -, hnum⟩ := h
  unfold trackCapacity at hlen
  generalize s.track = l at hlen hnum
  generalize s.mark.nextRow = next at *
  induction l with
  | nil => simp
  | cons r rest ih =>
    rw [List.length_cons] at hlen
    obtain ⟨hlo, -⟩ := numbered_next hnum (by omega)
    refine List.forall_mem_cons.2 ⟨fun heq => ?_, ih (by omega) (numbered_tail hnum)⟩
    rw [heq, BitVec.sub_self] at hlo
    simp at hlo

/-- What the stations' part of a count from `p` takes at station `st` (R5, R80). -/
def State.stationTakes (s : State) (st : Fin 4) (p : Pos) (v : State) : Prop :=
  v.noneDue st ∧ ∀ r ∈ s.track, ∀ e, r.stations.get st = some e →
    ∃ f, v.entry? st r.row = some f ∧
      s.webTakes st p s.web (s.driftTicks st (dist p s.web)) r e (∀ m, m ≠ r.row → v.takenAt st m = s.takenAt st m) f

theorem State.takenAt_of_entriesAt (h : t.entriesAt st = s.entriesAt st) (m : Word) : t.takenAt st m = s.takenAt st m := by
  rw [State.takenAt, State.entry?_of_entriesAt h, State.takenAt]

theorem State.stationTakes.of_entriesAt (h : s.stationTakes st p v) (hw : u.entriesAt st = v.entriesAt st) :
    s.stationTakes st p u := by
  obtain ⟨hnone, htakes⟩ := h
  refine ⟨State.noneDue_of_entriesAt hw hnone, fun r hr e he => ?_⟩
  obtain ⟨f, hf, htake⟩ := htakes r hr e he
  refine ⟨f, (State.entry?_of_entriesAt hw _).trans hf, htake.start, htake.ended, fun hs hend halone => ?_⟩
  exact htake.registered hs hend fun m hm => (State.takenAt_of_entriesAt hw m).symm.trans (halone m hm)

/-- Stations that took their turn before leave it to station `st` as it was (R15, R56). -/
theorem State.stationTakes.of_start (h : u.stationTakes st p v) (hs : s.apart) (hat : u.atStation st = s.atStation st)
    (hcur : u.cur = s.cur) (hweb : u.web = s.web) (hrows : u.rows = s.rows) : s.stationTakes st p v := by
  obtain ⟨hnone, htakes⟩ := h
  have hentries := State.entriesAt_of_atStation hat
  have hstation : u.station st = s.station st := congrArg Prod.fst hat
  have hticks : u.driftTicks st (dist p u.web) = s.driftTicks st (dist p s.web) := by
    rw [State.driftTicks, State.driftModulus, hstation, hweb, State.block_congr hcur, State.driftTicks, State.driftModulus]
  refine ⟨hnone, fun r hr e he => ?_⟩
  have hmem : r.fixed ∈ u.rows := hrows ▸ List.mem_map_of_mem hr
  obtain ⟨q, hq, hfixed⟩ := List.mem_map.1 hmem
  have hrow := RowCtx.row_of_fixed hfixed
  have hget : q.stations.get st = some e := by
    rw [← (hs.congr hrows).entry? hq st, hrow, State.entry?_of_entriesAt hentries, hs.entry? hr st, he]
  obtain ⟨f, hf, htake⟩ := htakes q hq e hget
  rw [hrow] at hf htake
  rw [hticks, hweb] at htake
  refine ⟨f, hf, htake.start, htake.ended, fun hreach hend halone => ?_⟩
  obtain ⟨hface, herror, htrim⟩ := htake.registered hreach hend
    fun m hm => (halone m hm).trans (State.takenAt_of_entriesAt hentries m).symm
  have hlead : q.lead = r.lead := congrArg (fun x => x.2.2.1) hfixed
  have hstatus : q.status = r.status := congrArg (fun x => x.2.2.2.1) hfixed
  refine ⟨hface, ?_, ?_⟩
  · rw [herror]
    exact State.measure_congr hcur (by rw [hstation]) (by rw [hstation]) hlead rfl
  · rw [htrim]
    exact State.decideTrim_congr hcur (by rw [hstation]) hstatus _

theorem State.activeAt_congr (h : u.station st = s.station st) : u.activeAt st = s.activeAt st := by
  rw [State.activeAt, h, State.activeAt]

theorem State.foilAdvances_keep (h : Pos) (k : Nat) :
    (forChannels (State.foilAdvance h k) s).atStation st = s.atStation st ∧
      (forChannels (State.foilAdvance h k) s).cur = s.cur ∧ (forChannels (State.foilAdvance h k) s).web = s.web ∧
      (forChannels (State.foilAdvance h k) s).rows = s.rows :=
  ⟨forChannels_induct (P := fun u => u.atStation st = s.atStation st)
      (fun c u hu => (State.atStation_foilAdvance h k c).trans hu) rfl, by simp [forChannels], by simp [forChannels],
    by simp [forChannels]⟩

theorem State.webMoved_takes (hs : s.apart) (hactive : s.activeAt st = true) (p : Pos) :
    s.stationTakes st p (s.webMoved p) := by
  unfold State.webMoved
  have hwpu : (s.withWpu s.wpu.advanceHighWater).web = s.web := by
    rw [State.web, State.withWpu_wpu, Wpu.advanceHighWater_position, State.web]
  obtain ⟨hat, hcur, hweb, hrows⟩ := State.foilAdvances_keep (s := s.withWpu s.wpu.advanceHighWater) (st := st)
    s.wpu.highWater (dist s.wpu.highWater s.wpu.advanceHighWater.highWater).toNat
  refine forStations_at st
    (P := fun u => u.atStation st = s.atStation st ∧ u.cur = s.cur ∧ u.web = s.web ∧ u.rows = s.rows)
    (Q := s.stationTakes st p) (fun k u hk ⟨hat, hcur, hweb, hrows⟩ => ?_) (fun u ⟨hat, hcur, hweb, hrows⟩ => ?_)
    (fun k u hk h => ?_) ⟨hat, hcur, hweb.trans hwpu, hrows⟩
  · exact ⟨(State.atStation_stationWeb hk.symm p _).trans hat, by simp [hcur], by simp [hweb], by simp [hrows]⟩
  · have hst : u.station st = s.station st := congrArg Prod.fst hat
    have htakes := State.stationWeb_takes (p := p) (delta := dist p s.web) (hs.congr hrows)
      ((State.activeAt_congr hst).trans hactive)
    rw [← hweb] at htakes ⊢
    exact State.stationTakes.of_start (u := u) htakes hs hat hcur hweb hrows
  · exact h.of_entriesAt (State.entriesAt_of_atStation (State.atStation_stationWeb hk.symm p _))

/-! ## The whole count -/

theorem State.webTakes.of_start {w : Pos} {ticks : Int} {alone : Prop} (h : u.webTakes st p w ticks r e alone f)
    (hcur : u.cur = s.cur) (hst : u.stations = s.stations) : s.webTakes st p w ticks r e alone f := by
  have hstation : u.station st = s.station st := by rw [State.station, hst, State.station]
  refine ⟨h.start, h.ended, fun hreach hend halone => ?_⟩
  obtain ⟨hface, herror, htrim⟩ := h.registered hreach hend halone
  refine ⟨hface, ?_, ?_⟩
  · rw [herror]
    exact State.measure_congr hcur (by rw [hstation]) (by rw [hstation]) rfl rfl
  · rw [htrim]
    exact State.decideTrim_congr hcur (by rw [hstation]) rfl _

/-- A row alone in having zone events, read at the stations' part of the count. -/
theorem takenAt_of_alone (hs : s.apart) (hrows : v.rows = s.rows) (hstay : v.entriesStay st t)
    (halone : zonesTakenAlone s t st n) (hm : m ≠ n) : v.takenAt st m = s.takenAt st m := by
  by_cases hmem : ∃ q ∈ s.track, q.row = m
  · obtain ⟨q, hq, rfl⟩ := hmem
    have hsame := halone q hq hm
    have hfixed : q.fixed ∈ v.rows := hrows ▸ List.mem_map_of_mem hq
    obtain ⟨x, hx, hfx⟩ := List.mem_map.1 hfixed
    have hrel := hstay.entries x hx
    rw [RowCtx.row_of_fixed hfx] at hrel
    rw [State.takenAt, State.takenAt, hs.entry? hq st, ← hsame]
    generalize v.entry? st q.row = a at *
    generalize t.entry? st q.row = b at *
    cases hrel with
    | none => rfl
    | some hab => rw [Option.map_some, Option.map_some, hab]
  · have hnone {w : State} (hw : w.rows = s.rows) : w.entry? st m = none := by
      by_contra hsome
      obtain ⟨e, he⟩ := Option.ne_none_iff_exists'.1 hsome
      obtain ⟨x, hx, hrow, -⟩ := State.entry?_mem he
      have hxf : x.fixed ∈ s.rows := hw ▸ List.mem_map_of_mem hx
      obtain ⟨q, hq, hfixed⟩ := List.mem_map.1 hxf
      exact hmem ⟨q, hq, (RowCtx.row_of_fixed hfixed).trans hrow⟩
    rw [State.takenAt, State.takenAt, hnone hrows, hnone rfl]

theorem State.webChange_web (p : Pos) (s : State) : (s.webChange p).web = s.web := by
  rw [State.web, (s.webChange_accounts p).2.2, State.withWpu_wpu, Wpu.advanceHighWater_position, State.web]

/-- What a web position change takes at a station that is not INACTIVE, where it holds no run (R5, R63, R64, R80). -/
theorem State.webChange_takes (h : s.trackOk) (hactive : s.activeAt st = true)
    (hheld : (s.webChange p).jobs.run ≠ .held ∨ s.jobs.run = .held) :
    (s.webChange p).noneDue st ∧ ∀ r ∈ s.track, ∀ e, r.stations.get st = some e →
      ∃ f, (s.webChange p).entry? st r.row = some f ∧
        s.webTakes st p s.web (s.driftTicks st (dist p s.web)) r e (zonesTakenAlone s (s.webChange p) st r.row) f := by
  have hs : s.apart := h.pairwise_rows
  have hstay := State.webChange_stay (st := st) (p := p) h.ne_next hheld
  have hrows : (s.webMoved p).rows = s.rows := by simp
  obtain ⟨hnone, htakes⟩ := State.webMoved_takes (st := st) hs hactive p
  generalize s.webMoved p = v at *
  generalize s.webChange p = t at *
  refine ⟨hstay.due hnone, fun r hr e he => ?_⟩
  obtain ⟨f, hf, htake⟩ := htakes r hr e he
  have hfixed : r.fixed ∈ v.rows := hrows ▸ List.mem_map_of_mem hr
  obtain ⟨x, hx, hfx⟩ := List.mem_map.1 hfixed
  have hrel := hstay.entries x hx
  rw [RowCtx.row_of_fixed hfx, hf] at hrel
  cases hentry : t.entry? st r.row with
  | none => rw [hentry] at hrel; cases hrel
  | some g =>
    rw [hentry] at hrel
    cases hrel with
    | some hg =>
      refine ⟨g, rfl, fun hreach => ?_, fun hreach => ?_, fun hreach hend halone => ?_⟩
      · rw [hg]; exact htake.start hreach
      · rw [hg]; exact htake.ended hreach
      · rw [hg]
        exact htake.registered hreach hend fun m hm => takenAt_of_alone hs hrows hstay halone hm

/-- The zone events of a count (R5, R63, R64, R80). -/
theorem encoderCount_takes {a b : Bool} (h : s.trackOk) (he : exec (.encoderCount a b) s = .next t) (hweb : t.web ≠ s.web)
    (hheld : t.jobs.run ≠ .held ∨ s.jobs.run = .held) (hactive : (s.station st).state ≠ .inactive) :
    t.noneDue st ∧ ∀ r ∈ s.track, ∀ e, r.stations.get st = some e →
      ∃ f, t.entry? st r.row = some f ∧
        s.webTakes st s.web t.web (s.driftTicks st (dist s.web t.web)) r e (zonesTakenAlone s t st r.row) f := by
  rcases exec_encoderCount_cases he with rfl | rfl | ⟨d, rfl⟩
  · exact absurd rfl hweb
  · exact absurd rfl hweb
  · by_cases hmoves : (s.counted a b d).web = s.web
    · rw [State.count_setPair_of_stays hmoves] at hweb
      exact absurd hmoves hweb
    · rw [State.count_setPair_of_moves hmoves] at hheld ⊢
      rw [State.webChange_web]
      obtain ⟨hnone, htakes⟩ := State.webChange_takes (s := s.counted a b d) h (bne_iff_ne.2 hactive) hheld
      refine ⟨hnone, fun r hr e he => ?_⟩
      obtain ⟨f, hf, htake⟩ := htakes r hr e he
      exact ⟨f, hf, htake.of_start rfl rfl⟩

end

/-- Settles O41: the zone events of one row from the parts of an event, and a count's by the loop that takes them. -/
theorem errorAndTrimAtAZoneEnd : Obligations.ErrorAndTrimAtAZoneEnd := by
  refine ⟨fun s st r e hp => ⟨fun h => ?_, fun hi hf => State.measure_decideTrim hp hi hf⟩,
    fun s st amount hS => s.drift_remainder amount hS, fun s st k => State.shiftRows_station k _,
    fun s st front back r e htrack hothers he => ?_, fun s t a b h hexec hweb hheld st hactive => ?_⟩
  · rw [State.measure_none h]
    exact ⟨rfl, rfl⟩
  · have hrow : s.rowAt front back r := ⟨htrack, hothers⟩
    refine ⟨fun hc => ?_, fun hc => State.zoneStartEvent_commits hrow he hc, State.zoneEndEvent_clause hrow he⟩
    rw [State.zoneStartEvent_committed hrow he hc, StationEntry.checkStart_eq]
    rfl
  · obtain ⟨hnone, htakes⟩ := encoderCount_takes h hexec hweb hheld hactive
    refine ⟨fun r hr f hf => ?_, fun r hr e he => ?_⟩
    · have hdue := hnone r hr
      rw [RowCtx.eventDueAt, hf] at hdue
      simpa [StationEntry.eventDue] using hdue
    · obtain ⟨f, hf, htake⟩ := htakes r hr e he
      exact ⟨f, hf, fun hlo hhi => htake.start ((reaches_iff ..).2 ⟨hlo, hhi⟩),
        fun hlo hhi => htake.ended ((reaches_iff ..).2 ⟨hlo, hhi⟩),
        fun hlo hhi => htake.registered ((reaches_iff ..).2 ⟨hlo, hhi⟩)⟩

end Sys2Proof.Machine
end

section
/-! A count under a reverse tolerance no web can exceed: every action of the count but the reverse check goes the same way
(R8). -/

namespace Sys2Proof.Machine

/-- CURRENT's content with a reverse tolerance beyond every distance. -/
def Current.lenient (k : Current) : Current := { k with job := { k.job with reverseTol := 2 ^ 32 } }

/-- The state with CURRENT's reverse tolerance beyond every distance. -/
def State.lenient (s : State) : State := s.withJobs { s.jobs with current := s.jobs.current.map Current.lenient }

section
variable {s : State} {st : Fin 4} {c : Fin 8} {l : Fin 4}

/-! ## What is read -/

@[simp] theorem State.lenient_same (s : State) :
    s.lenient.wpu = s.wpu ∧ s.lenient.cylGens = s.cylGens ∧ s.lenient.foilGens = s.foilGens ∧ s.lenient.mark = s.mark ∧
      s.lenient.track = s.track ∧ s.lenient.lastRetired = s.lastRetired ∧ s.lenient.stations = s.stations ∧
      s.lenient.channels = s.channels ∧ s.lenient.mem = s.mem ∧ s.lenient.attn = s.attn ∧ s.lenient.records = s.records ∧
      s.lenient.jobs.run = s.jobs.run ∧ s.lenient.web = s.web := by
  refine ⟨rfl, rfl, rfl, rfl, rfl, rfl, rfl, rfl, rfl, rfl, rfl, rfl, rfl⟩

@[simp] theorem State.lenient_plates (s : State) : s.lenient.cur.plates = s.cur.plates := by
  unfold State.cur State.lenient
  cases h : s.jobs.current <;> simp [Current.lenient]

/-- What the job says but for its reverse tolerance. -/
@[simp] theorem State.lenient_job (s : State) :
    s.lenient.job.tag = s.job.tag ∧ s.lenient.job.laneSet = s.job.laneSet ∧ s.lenient.job.leadingLane = s.job.leadingLane ∧
      s.lenient.job.missingLimit = s.job.missingLimit ∧ s.lenient.job.defaultVerdict = s.job.defaultVerdict ∧
      s.lenient.job.laneOffsets = s.job.laneOffsets ∧ s.lenient.job.window = s.job.window ∧
      s.lenient.job.stations = s.job.stations ∧ s.lenient.job.channels = s.job.channels ∧
      s.lenient.job.tallyCode = s.job.tallyCode := by
  unfold State.job State.cur State.lenient
  cases h : s.jobs.current <;> simp [Current.lenient]

@[simp] theorem State.lenient_block (st : Fin 4) : s.lenient.block st = s.block st := by simp [State.block]

@[simp] theorem State.lenient_chanBlock (c : Fin 8) : s.lenient.chanBlock c = s.chanBlock c := by simp [State.chanBlock]

@[simp] theorem State.lenient_plate (st : Fin 4) : s.lenient.plate st = s.plate st := by simp [State.plate]

@[simp] theorem State.lenient_pitch (st : Fin 4) : s.lenient.pitch st = s.pitch st := by simp [State.pitch]

@[simp] theorem State.lenient_jobPitch : s.lenient.jobPitch = s.jobPitch := by simp [State.jobPitch]

@[simp] theorem State.lenient_chanStation (c : Fin 8) : s.lenient.chanStation c = s.chanStation c := by simp [State.chanStation]

@[simp] theorem State.lenient_chanImages (c : Fin 8) : s.lenient.chanImages c = s.chanImages c := by simp [State.chanImages]

@[simp] theorem State.lenient_selection (s : State) : s.lenient.jobs.selection = s.jobs.selection := by
  unfold JobControl.selection State.lenient
  cases h : s.jobs.current <;> simp [Current.lenient]

/-- What is read of the stations, the channels and the track. -/
@[simp] theorem State.lenient_reads (s : State) :
    (∀ st, s.lenient.station st = s.station st) ∧ (∀ c, s.lenient.channel c = s.channel c) ∧
      (∀ n, s.lenient.row? n = s.row? n) ∧ (∀ st n, s.lenient.entry? st n = s.entry? st n) ∧
      (∀ n, s.lenient.before? n = s.before? n) ∧ (∀ n, s.lenient.after? n = s.after? n) ∧
      (∀ n, s.lenient.previous? n = s.previous? n) ∧ (∀ t, s.lenient.planned t = s.planned t) ∧
      (∀ st, s.lenient.activeAt st = s.activeAt st) ∧ s.lenient.moving = s.moving ∧
      (∀ c, s.lenient.rampNow c = s.rampNow c) ∧ (∀ st, s.lenient.nextStrike st = s.nextStrike st) ∧
      (∀ st n, s.lenient.previousEnded st n = s.previousEnded st n) ∧ ∀ c, s.lenient.watched c = s.watched c := by
  refine ⟨fun _ => rfl, fun _ => rfl, fun _ => rfl, fun _ _ => rfl, fun _ => rfl, fun _ => rfl, fun _ => rfl, fun _ => rfl,
    fun _ => rfl, rfl, fun _ => rfl, fun _ => rfl, fun _ _ => rfl, fun _ => rfl⟩

/-! ## What is written -/

@[simp] theorem State.lenient_with (s : State) :
    (∀ x, s.lenient.withWpu x = (s.withWpu x).lenient) ∧ (∀ x, s.lenient.withMark x = (s.withMark x).lenient) ∧
      (∀ x, s.lenient.withTrack x = (s.withTrack x).lenient) ∧ (∀ a, s.lenient.raise a = (s.raise a).lenient) ∧
      (∀ st x, s.lenient.setStation st x = (s.setStation st x).lenient) ∧
      (∀ c x, s.lenient.setChannel c x = (s.setChannel c x).lenient) ∧
      (∀ st f, s.lenient.mapEntries st f = (s.mapEntries st f).lenient) ∧
      (∀ st n f, s.lenient.mapEntry st n f = (s.mapEntry st n f).lenient) ∧
      (∀ c n f, s.lenient.mapCharge c n f = (s.mapCharge c n f).lenient) ∧
      (∀ n f, s.lenient.mapRow n f = (s.mapRow n f).lenient) ∧
      (∀ a w, s.lenient.writeWord a w = (s.writeWord a w).lenient) := by
  refine ⟨fun _ => rfl, fun _ => rfl, fun _ => rfl, fun _ => rfl, fun _ _ => rfl, fun _ _ => rfl, fun _ _ => rfl, fun _ _ _ => rfl,
    fun _ _ _ => rfl, fun _ _ => rfl, fun _ _ => rfl⟩

@[simp] theorem State.lenient_setGen (i : GenId) (g : StepGen) : s.lenient.setGen i g = (s.setGen i g).lenient := by
  cases i <;> rfl

@[simp] theorem State.lenient_handStop (x : StopCause) : s.lenient.handStop x = (s.handStop x).lenient := by
  have hjobs : s.lenient.jobs.handStop x = { s.jobs.handStop x with current := s.lenient.jobs.current } := by
    unfold JobControl.handStop JobControl.selects
    rw [State.lenient_selection]
    rfl
  unfold State.handStop
  rw [hjobs]
  rfl

@[simp] theorem State.lenient_raiseStop (a : AttnCause) (x : StopCause) : s.lenient.raiseStop a x = (s.raiseStop a x).lenient := by
  simp [State.raiseStop]

end

/-! ## An action for each -/

/-- An action goes the same way under the lenient reverse tolerance. -/
def State.indifferent (f : State → State) : Prop := ∀ s : State, f s.lenient = (f s).lenient

theorem forStations_indifferent {f : Fin 4 → State → State} (h : ∀ st, State.indifferent (f st)) :
    State.indifferent (forStations f) := fun s => by simp only [forStations, h _ _]

theorem forChannels_indifferent {f : Fin 8 → State → State} (h : ∀ c, State.indifferent (f c)) :
    State.indifferent (forChannels f) := fun s => by simp only [forChannels, h _ _]

theorem forLanes_indifferent {f : Fin 4 → State → State} (h : ∀ l, State.indifferent (f l)) :
    State.indifferent (forLanes f) := fun s => by simp only [forLanes, h _ _]

section
variable {s : State} {st : Fin 4} {c : Fin 8} {l : Fin 4}

/-! ## The channels -/

@[simp] theorem State.lenient_chanFace (c : Fin 8) (n : Word) : s.lenient.chanFace c n = s.chanFace c n := by
  simp [State.chanFace]

@[simp] theorem State.lenient_syncStart (c : Fin 8) (k : Stroke) : s.lenient.syncStart c k = s.syncStart c k := by
  simp [State.syncStart]

@[simp] theorem State.lenient_syncEnd (c : Fin 8) (k : Stroke) : s.lenient.syncEnd c k = s.syncEnd c k := by
  simp [State.syncEnd]

@[simp] theorem State.lenient_gap (c : Fin 8) (x y : Stroke) : s.lenient.gap c x y = s.gap c x y := by simp [State.gap]

@[simp] theorem State.lenient_startPoint (c : Fin 8) (p : Plan) : s.lenient.startPoint c p = s.startPoint c p := by
  simp [State.startPoint]

@[simp] theorem State.lenient_formStrokes (c : Fin 8) (n : Word) : s.lenient.formStrokes c n = s.formStrokes c n := by
  simp [State.formStrokes]

theorem State.indifferent_noteFoil (x : Channel) : State.indifferent (State.noteFoil x) := fun s => by
  have hlow : (if x.crossesLow = true then s.lenient.raise .foilLow else s.lenient) =
      (if x.crossesLow = true then s.raise .foilLow else s).lenient := by
    split <;> rfl
  unfold State.noteFoil
  dsimp only
  rw [hlow]
  split
  · exact State.lenient_raiseStop _ _
  · rfl

theorem State.indifferent_foilTick (c : Fin 8) : State.indifferent (State.foilTick c) := fun s => by
  have hcharge (u : State) (row : Option Word) : u.lenient.chargeTo c row = (u.chargeTo c row).lenient := by
    cases row <;> rfl
  have hdeliver : s.lenient.deliverTick c = (s.deliverTick c).lenient := rfl
  rw [State.foilTick_eq, hdeliver, hcharge]
  exact State.indifferent_noteFoil _ _

theorem State.indifferent_foilMotion (c : Fin 8) : State.indifferent (State.foilMotion c) := fun s => by
  unfold State.foilMotion
  simp only [State.lenient_reads, State.indifferent_foilTick c _]
  split <;> rfl

theorem State.indifferent_markLate (c : Fin 8) (n : Word) : State.indifferent (State.markLate c n) := fun s => by
  simp [State.markLate]

theorem State.indifferent_tryRampUp (c : Fin 8) (h : Pos) : State.indifferent (State.tryRampUp c h) := fun s => by
  unfold State.tryRampUp
  simp only [State.lenient_reads, State.lenient_startPoint]
  split
  · split
    · split
      · split
        · exact State.indifferent_markLate c _ (s.setChannel c _)
        · rfl
      · rfl
    · rfl
  · rfl

theorem State.indifferent_strokeEnd (c : Fin 8) (h : Pos) (x : Stroke) : State.indifferent (State.strokeEnd c h x) := fun s => by
  unfold State.strokeEnd
  simp only [State.lenient_reads, State.lenient_gap]
  split
  · rfl
  · split
    · rfl
    · simp [State.merge]

theorem State.indifferent_strokeEnds (c : Fin 8) (h : Pos) (k : Nat) : State.indifferent (State.strokeEnds c h k) := fun s => by
  induction k generalizing s with
  | zero => rfl
  | succ k ih =>
    unfold State.strokeEnds
    simp only [State.lenient_reads, State.lenient_syncEnd, State.indifferent_strokeEnd c h _ s]
    split
    · split
      · exact ih _
      · rfl
    · rfl

theorem State.indifferent_syncActions (c : Fin 8) (h : Pos) : State.indifferent (State.syncActions c h) := fun s => by
  have hgap : s.lenient.mergeGapEnd c h = (s.mergeGapEnd c h).lenient := by
    unfold State.mergeGapEnd
    simp only [State.lenient_reads, State.lenient_syncStart]
    split
    · split <;> rfl
    · rfl
  unfold State.syncActions
  rw [hgap]
  exact State.indifferent_strokeEnds c h _ _

theorem State.indifferent_webTick (c : Fin 8) (h : Pos) : State.indifferent (State.webTick c h) := fun s => by
  unfold State.webTick
  rw [State.indifferent_foilMotion]
  generalize s.foilMotion c = s
  unfold State.foilActions
  simp only [State.lenient_reads]
  split
  · rfl
  · exact State.indifferent_tryRampUp c h s
  · split
    · exact State.indifferent_syncActions c h (s.setChannel c _)
    · rfl
  · exact State.indifferent_syncActions c h s
  · split
    · exact State.indifferent_tryRampUp c h (s.setChannel c _)
    · rfl

theorem State.indifferent_webTicks (c : Fin 8) (k : Nat) (h : Pos) : State.indifferent (State.webTicks c k h) := fun s => by
  induction k generalizing s h with
  | zero => rfl
  | succ k ih =>
    unfold State.webTicks
    rw [State.indifferent_webTick]
    exact ih _ _

theorem State.indifferent_foilAdvance (h : Pos) (k : Nat) (c : Fin 8) : State.indifferent (State.foilAdvance h k c) := fun s => by
  unfold State.foilAdvance
  simp only [State.lenient_reads]
  split
  · rfl
  · exact State.indifferent_webTicks c k h s

theorem State.indifferent_foilRecheck (c : Fin 8) : State.indifferent (State.foilRecheck c) := fun s => by
  unfold State.foilRecheck
  simp only [State.lenient_reads, State.lenient_same]
  split
  · exact State.indifferent_tryRampUp c _ s
  · exact State.indifferent_syncActions c _ s
  · rfl

theorem State.indifferent_withdraw (n : Word) (c : Fin 8) : State.indifferent (State.withdraw n c) := fun s => by
  unfold State.withdraw
  simp only [State.lenient_reads, State.lenient_same]
  split
  · exact State.indifferent_tryRampUp c _ (s.setChannel c _)
  · rfl

theorem State.indifferent_handover (n : Word) (c : Fin 8) : State.indifferent (State.handover n c) := fun s => by
  unfold State.handover
  simp only [State.lenient_reads, State.lenient_formStrokes, State.lenient_with]
  generalize s.setChannel c _ = u
  have hmark (b : Prop) [Decidable b] :
      (if b then u.lenient.markLate c n else u.lenient) = (if b then u.markLate c n else u).lenient := by
    split
    · exact State.indifferent_markLate c n u
    · rfl
  rw [hmark]
  split
  · exact State.indifferent_tryRampUp c _ _
  · rfl

theorem State.indifferent_serving {f : Fin 8 → State → State} (st : Fin 4) (h : ∀ c, State.indifferent (f c)) :
    State.indifferent (State.serving st f) := by
  have hturn (c : Fin 8) : State.indifferent fun s => if s.chanStation c = some st ∧ (s.channel c).state ≠ .idle then f c s else s :=
    fun s => by
      simp only [State.lenient_reads, State.lenient_chanStation, h c s]
      split <;> rfl
  intro s
  have hall := forChannels_indifferent hturn s
  unfold State.serving
  exact hall

end

end Sys2Proof.Machine
end

section
/-! The stations' and the mark unit's part of a count under the lenient reverse tolerance. -/

namespace Sys2Proof.Machine

section
variable {s : State} {st : Fin 4} {c : Fin 8} {l : Fin 4}

/-! ## The throw and the shifts -/

theorem State.indifferent_openThrow (st : Fin 4) : State.indifferent (State.openThrow st) := fun s => by
  simp [State.openThrow]

@[simp] theorem State.lenient_distances (st : Fin 4) :
    s.lenient.closeDistance st = s.closeDistance st ∧ s.lenient.openDistance st = s.openDistance st ∧
      s.lenient.travelDistance st = s.travelDistance st := by
  simp [State.closeDistance, State.openDistance, State.travelDistance]

@[simp] theorem State.lenient_closePointReached (st : Fin 4) : s.lenient.closePointReached st = s.closePointReached st := by
  simp [State.closePointReached]

theorem State.indifferent_closeTest (st : Fin 4) : State.indifferent (State.closeTest st) := fun s => by
  unfold State.closeTest State.closeDue
  simp only [State.lenient_reads, State.lenient_closePointReached, State.lenient_block]
  split <;> rfl

theorem State.indifferent_latchCommits (st : Fin 4) : State.indifferent (State.latchCommits st) := fun s => by
  have hcommit (e : StationEntry) : s.lenient.commitPoint st e = s.commitPoint st e := by simp [State.commitPoint]
  unfold State.latchCommits
  simp only [State.lenient_reads, State.lenient_same, hcommit]
  split <;> rfl

theorem State.indifferent_shiftRows (st : Fin 4) (k : Int) (moves : RowCtx → Bool) :
    State.indifferent (State.shiftRows st k moves) := fun s => by
  have hshifted : s.lenient.shifted st k moves = (s.shifted st k moves).lenient := rfl
  rw [State.shiftRows_eq, hshifted, State.indifferent_latchCommits,
    State.indifferent_serving st State.indifferent_foilRecheck, State.indifferent_closeTest, State.shiftRows_eq]

theorem State.indifferent_tickShifts (st : Fin 4) (dir : Int) (waiting : List Word) (k : Nat) :
    State.indifferent (State.tickShifts st dir waiting k) := fun s => by
  induction k generalizing s with
  | zero => rfl
  | succ k ih =>
    unfold State.tickShifts
    rw [State.indifferent_shiftRows]
    exact ih _

theorem State.indifferent_drift (st : Fin 4) (amount : Int) : State.indifferent (State.drift st amount) := fun s => by
  have hticks : s.lenient.driftTicks st amount = s.driftTicks st amount := by
    simp [State.driftTicks, State.driftModulus]
  have hmodulus : s.lenient.driftModulus st = s.driftModulus st := by simp [State.driftModulus]
  rw [State.drift_eq, State.drift_eq, hticks, hmodulus]
  exact State.indifferent_tickShifts st _ _ _ (s.setStation st _)

theorem State.indifferent_deliverCylinder (st : Fin 4) (amount : Int) :
    State.indifferent (State.deliverCylinder st amount) := fun _ => rfl

/-! ## Commits and zone events -/

@[simp] theorem State.lenient_arrival (st : Fin 4) (r : RowCtx) : s.lenient.arrival st r = s.arrival st r := by
  simp [State.arrival]

@[simp] theorem State.lenient_clears (st : Fin 4) (e : StationEntry) (r : RowCtx) :
    s.lenient.clearsBefore st e r = s.clearsBefore st e r ∧ s.lenient.clearsAfter st e r = s.clearsAfter st e r := by
  simp [State.clearsBefore, State.clearsAfter, State.spanStart, State.spanEnd]

@[simp] theorem State.lenient_decideOutcome (st : Fin 4) (r : RowCtx) (e : StationEntry) :
    s.lenient.decideOutcome st r e = s.decideOutcome st r e := by
  simp [State.decideOutcome, State.skipFeasible, State.roomBetween, State.clearsSplices]

theorem State.indifferent_commit (st : Fin 4) (r : RowCtx) : State.indifferent (State.commit st r) := fun s => by
  cases he : r.stations.get st with
  | none => simp [State.commit, he]
  | some e =>
    have hmark : s.lenient.markCommitted st r.row (s.decideOutcome st r e) =
        (s.markCommitted st r.row (s.decideOutcome st r e)).lenient := rfl
    rw [State.commit_eq _ he, State.commit_eq _ he, State.lenient_decideOutcome]
    dsimp only
    rw [hmark]
    generalize s.markCommitted st r.row (s.decideOutcome st r e) = u
    rw [State.indifferent_serving st (State.indifferent_handover r.row), State.indifferent_closeTest,
      State.indifferent_openThrow]
    simp only [State.lenient_reads]
    split
    · rfl
    · split <;> rfl

theorem State.indifferent_zoneStartEvent (st : Fin 4) (n : Word) : State.indifferent (State.zoneStartEvent st n) := fun s => by
  have hoverdue (u : State) : u.lenient.overdueCommit st n = (u.overdueCommit st n).lenient := by
    unfold State.overdueCommit
    simp only [State.lenient_reads]
    split
    · split
      · rfl
      · exact State.indifferent_commit st _ u
    · rfl
  have hstart : s.lenient.mapEntry st n StationEntry.started = (s.mapEntry st n StationEntry.started).lenient := rfl
  rw [State.zoneStartEvent_eq, State.zoneStartEvent_eq]
  change (let t := (s.lenient.mapEntry st n StationEntry.started).overdueCommit st n
    t.mapEntry st n (StationEntry.checkStart (t.station st).throw)) = _
  rw [hstart, hoverdue]
  rfl

@[simp] theorem State.lenient_measure (st : Fin 4) (r : RowCtx) (e : StationEntry) :
    s.lenient.measure st r e = s.measure st r e := by
  simp [State.measure]

@[simp] theorem State.lenient_decideTrim (st : Fin 4) (r : RowCtx) (error : Option Int) :
    s.lenient.decideTrim st r error = s.decideTrim st r error := by
  simp [State.decideTrim]

theorem State.indifferent_writeRegistration (st : Fin 4) (n : Word) (error : Option Int) (trim : Int) :
    State.indifferent (State.writeRegistration st n error trim) := fun s => by
  cases error <;> rfl

theorem State.indifferent_applyTrim (st : Fin 4) (trim : Int) : State.indifferent (State.applyTrim st trim) := fun s => by
  have hdelivered : s.lenient.trimDelivered st trim = (s.trimDelivered st trim).lenient := rfl
  have hshift (u : State) : u.lenient.shift st (-trim) = (u.shift st (-trim)).lenient :=
    State.indifferent_shiftRows st _ _ u
  rw [State.applyTrim_eq, hdelivered, hshift, State.indifferent_drift, State.applyTrim_eq]
  split <;> rfl

theorem State.indifferent_withdrawRows (st : Fin 4) (rows : List Word) : State.indifferent (State.withdrawRows st rows) := fun s => by
  induction rows generalizing s with
  | nil => rfl
  | cons n rows ih =>
    rw [State.withdrawRows_cons, State.indifferent_serving st (State.indifferent_withdraw n), State.withdrawRows_cons]
    exact ih _

theorem State.indifferent_leaveFor (st : Fin 4) (x : StationState) : State.indifferent (State.leaveFor st x) := fun s => by
  have hset : (s.openThrow st).lenient.setState st x = ((s.openThrow st).setState st x).lenient := rfl
  have hdeparture (u : State) : u.lenient.departure st x = (u.departure st x).lenient := by
    have hrename : u.lenient.mapEntries st (StationEntry.rename x.outcome) =
        (u.mapEntries st (StationEntry.rename x.outcome)).lenient := rfl
    rw [State.departure_eq, hrename, State.indifferent_withdrawRows, State.departure_eq]
    rfl
  unfold State.leaveFor
  dsimp only
  rw [State.indifferent_openThrow, hset, hdeparture]
  simp only [State.lenient_reads]
  split <;> rfl

theorem State.indifferent_bandCheck (st : Fin 4) (r : RowCtx) (error : Option Int) :
    State.indifferent (State.bandCheck st r error) := fun s => by
  unfold State.bandCheck
  simp only [State.lenient_reads, State.lenient_block, State.indifferent_leaveFor st _ s]
  split
  · rfl
  · split
    · split
      · split <;> rfl
      · split <;> rfl
      · rfl
    · rfl

theorem State.indifferent_openAtEnd (st : Fin 4) (n : Word) : State.indifferent (State.openAtEnd st n) := fun s => by
  unfold State.openAtEnd
  simp only [State.lenient_reads, State.lenient_same, State.indifferent_openThrow st s]
  split
  · split <;> rfl
  · rfl

theorem State.indifferent_zoneEndEvent (st : Fin 4) (n : Word) : State.indifferent (State.zoneEndEvent st n) := fun s => by
  unfold State.zoneEndEvent
  simp only [State.lenient_reads, State.lenient_measure, State.lenient_decideTrim]
  split
  · rfl
  · split
    · rfl
    · rw [State.indifferent_writeRegistration, State.indifferent_applyTrim, State.indifferent_bandCheck,
        State.indifferent_openAtEnd]

theorem State.indifferent_zoneEvents (st : Fin 4) (k : Nat) : State.indifferent (State.zoneEvents st k) := fun s => by
  induction k generalizing s with
  | zero => rfl
  | succ k ih =>
    cases hf : s.track.find? fun r => r.eventDueAt st with
    | none => rw [State.zoneEvents_none hf, State.zoneEvents_none (s := s.lenient) hf]
    | some r =>
      have hevent : s.lenient.zoneEvent st r = (s.zoneEvent st r).lenient := by
        unfold State.zoneEvent
        rw [State.indifferent_zoneEndEvent, State.indifferent_zoneStartEvent]
        split <;> rfl
      rw [State.zoneEvents_some hf, State.zoneEvents_some (s := s.lenient) hf, hevent]
      exact ih _

theorem State.indifferent_stationWeb (p : Pos) (delta : Int) (st : Fin 4) :
    State.indifferent (State.stationWeb p delta st) := fun s => by
  by_cases h : s.activeAt st = true
  · have hfirst : s.lenient.webDriven p delta st = (s.webDriven p delta st).lenient := by
      unfold State.webDriven
      simp only [State.lenient_with, State.lenient_same, State.indifferent_latchCommits st _,
        State.indifferent_deliverCylinder st delta _, State.indifferent_drift st delta _]
    have hrun (u : State) : u.lenient.runZoneEvents st = (u.runZoneEvents st).lenient := State.indifferent_zoneEvents st _ u
    rw [State.stationWeb_of_active h, State.stationWeb_of_active (s := s.lenient) h, hfirst, hrun,
      State.indifferent_closeTest]
  · unfold State.stationWeb
    rw [if_neg h, if_neg (show ¬ s.lenient.activeAt st = true from h)]

/-- The stations' and the channels' part of a count goes the same way (R8). -/
theorem State.indifferent_webMoved (p : Pos) : State.indifferent (State.webMoved p) := fun s => by
  unfold State.webMoved
  simp only [State.lenient_same, State.lenient_with]
  rw [forChannels_indifferent fun c => State.indifferent_foilAdvance _ _ c,
    forStations_indifferent fun st => State.indifferent_stationWeb p _ st]

/-! ## The mark unit -/

@[simp] theorem State.lenient_laneActive (l : Nat) : s.lenient.job.laneActive l = s.job.laneActive l := by
  simp [Job.laneActive]

@[simp] theorem State.lenient_lanes (s : State) :
    (∀ l, s.lenient.followsLane l = s.followsLane l) ∧ (∀ l lead, s.lenient.laneCentre l lead = s.laneCentre l lead) ∧
      (∀ w, s.lenient.laneEnd w = s.laneEnd w) ∧ (∀ x p, s.lenient.inLaneWindow x p = s.inLaneWindow x p) ∧
      ∀ l, s.lenient.firstLane l = s.firstLane l := by
  simp [State.followsLane, State.laneCentre, State.laneEnd, State.inLaneWindow, State.firstLane, State.leadingOffset]

theorem State.indifferent_closeLane (p : Pos) (l : Fin 4) : State.indifferent (State.closeLane p l) := fun s => by
  unfold State.closeLane
  simp only [State.lenient_reads, State.lenient_same, State.lenient_lanes]
  split
  · split <;> rfl
  · rfl

theorem State.indifferent_openLane (n : Word) (lead : Pos) (l : Fin 4) :
    State.indifferent (State.openLane n lead l) := fun s => by
  have hset (w : Option LaneWindow) : (s.lenient.setWindow l w).setHeld l none = ((s.setWindow l w).setHeld l none).lenient := rfl
  unfold State.openLane
  simp only [State.lenient_lanes, State.lenient_same, hset]
  split
  · split
    · split
      · rfl
      · split <;> rfl
    · split <;> rfl
  · rfl

theorem State.lenient_newRow (status : MarkStatus) (lead : Pos) : s.lenient.newRow status lead = s.newRow status lead := by
  have hcharge (c : Fin 8) : s.lenient.firstCharge c = s.firstCharge c := by simp [State.firstCharge]
  have hverdict (n : Word) : s.lenient.readVerdict n = s.readVerdict n := by
    simp [State.readVerdict, Job.default]
  simp only [State.newRow, hcharge, hverdict, State.lenient_lanes, State.lenient_same, State.lenient_job]

theorem State.indifferent_noteStatus (status : MarkStatus) : State.indifferent (State.noteStatus status) := fun s => by
  cases status with
  | first => rfl
  | found => rfl
  | recaptured => rfl
  | missing =>
    unfold State.noteStatus
    simp only [State.lenient_same, State.lenient_with, State.lenient_job]
    split
    · exact State.lenient_raiseStop (s := (s.withMark _).withMark _) _ _
    · rfl

theorem State.indifferent_appendRow (r : RowCtx) : State.indifferent (State.appendRow r) := fun s => by
  unfold State.appendRow
  split <;> rfl

theorem State.indifferent_placeRow (st : Fin 4) (r : RowCtx) : State.indifferent (State.placeRow st r) := fun s => by
  have hzones : s.lenient.zoneImages st = s.zoneImages st := by simp [State.zoneImages]
  have hentry : s.lenient.newEntry st r = s.newEntry st r := by
    simp [State.newEntry, State.zoneStartOffset, State.zoneEndOffset, hzones]
  unfold State.placeRow
  rw [hentry]
  simp only [State.lenient_with, State.lenient_reads, State.lenient_arrival, State.lenient_plate]

theorem State.indifferent_sacrifice (st : Fin 4) (n : Word) : State.indifferent (State.sacrifice st n) := fun s => by
  unfold State.sacrifice
  simp only [State.lenient_with, State.indifferent_serving st (State.indifferent_withdraw n) _]
  generalize (s.mapEntry st n _).serving st (State.withdraw n) = u
  simp only [State.lenient_reads, State.indifferent_openThrow st u]
  split
  · split <;> rfl
  · rfl

theorem State.indifferent_giveUp (st : Fin 4) (splice : Word) (rows : List Word) :
    State.indifferent (State.giveUp st splice rows) := fun s => by
  induction rows generalizing s with
  | nil => rfl
  | cons n rows ih =>
    have hrow : s.lenient.giveUpRow st splice n = (s.giveUpRow st splice n).lenient := by
      unfold State.giveUpRow State.addRisk
      simp only [State.lenient_reads, State.indifferent_sacrifice st n s, State.lenient_with, State.lenient_raiseStop]
      split
      · split
        · split <;> rfl
        · rfl
      · rfl
    rw [State.giveUp_cons, hrow, State.giveUp_cons]
    exact ih _

theorem State.indifferent_stationOpen (r : RowCtx) (st : Fin 4) : State.indifferent (State.stationOpen r st) := fun s => by
  have hsplice (u : State) : u.lenient.spliceTest st r = (u.spliceTest st r).lenient := by
    have hrows : u.lenient.splicedStrikes st r = u.splicedStrikes st r := by
      simp [State.splicedStrikes]
    unfold State.spliceTest
    rw [hrows, State.indifferent_giveUp]
    simp only [State.lenient_reads]
    split <;> rfl
  unfold State.stationOpen
  rw [State.indifferent_placeRow, hsplice]
  simp only [State.lenient_reads]
  split <;> rfl

theorem State.lenient_rowBegun (lead : Pos) : s.lenient.rowBegun .missing lead = (s.rowBegun .missing lead).lenient := by
  have hexpected (u : State) :
      u.lenient.withMark { u.lenient.mark with expected := some (moved lead u.lenient.jobPitch) } =
        (u.withMark { u.mark with expected := some (moved lead u.jobPitch) }).lenient := by simp
  unfold State.rowBegun
  dsimp only
  rw [State.lenient_newRow, State.indifferent_appendRow, forLanes_indifferent fun l => State.indifferent_openLane _ lead l,
    hexpected, State.indifferent_noteStatus]
  rfl

/-- The opening of a MISSING row with room goes the same way. -/
theorem State.lenient_openRow (lead : Pos) (h : s.track.length < 32) :
    s.lenient.openRow .missing lead = (s.openRow .missing lead).lenient := by
  rw [State.openRow_of_room _ _ _ h, State.openRow_of_room s.lenient _ _ h, State.lenient_newRow, State.lenient_rowBegun,
    forStations_indifferent fun st => State.indifferent_stationOpen _ st]

/-- The mark unit's part of a count goes the same way, where the track has room (R8). -/
theorem State.lenient_markWeb (p : Pos) (h : s.jobs.run = .running → s.track.length < 32) :
    s.lenient.markWeb p = (s.markWeb p).lenient := by
  have hlanes := forLanes_indifferent fun l => State.indifferent_closeLane p l
  have hrun : (forLanes (State.closeLane p) s).jobs = s.jobs := by simp
  have hlen : (forLanes (State.closeLane p) s).track.length = s.track.length := State.track_length_congr (by simp)
  have hleading : (forLanes (State.closeLane p) s).lenient.closeLeading p =
      ((forLanes (State.closeLane p) s).closeLeading p).lenient := by
    generalize forLanes (State.closeLane p) s = u at *
    have hcloses (e : Pos) : u.lenient.leadingCloses p e ↔ u.leadingCloses p e := by
      have hend : u.lenient.windowEnd e = u.windowEnd e := by simp [State.windowEnd]
      rw [State.leadingCloses, hend, State.leadingCloses]
      rfl
    by_cases hc : ∃ e, u.leadingCloses p e
    · obtain ⟨e, he⟩ := hc
      rw [State.closeLeading_of_closes he, State.closeLeading_of_closes ((hcloses e).2 he)]
      exact State.lenient_openRow e (hlen ▸ h (hrun ▸ he.1))
    · rw [State.closeLeading_of_stands (not_exists.1 hc),
        State.closeLeading_of_stands fun e he => not_exists.1 hc e ((hcloses e).1 he)]
  unfold State.markWeb
  rw [hlanes, hleading, hlanes]

end

end Sys2Proof.Machine
end

section
/-! The reverse check at the end of a count, and the hold it makes. -/

namespace Sys2Proof.Machine

section
variable {s t u : State} {p : Pos}

/-! ## The check -/

theorem State.reverseCheck_of_beyond (hrun : u.jobs.run.holdable = true)
    (h : (u.job.reverseTol : Int) < dist u.web u.wpu.highWater) : u.reverseCheck = u.hold .reverse :=
  if_pos (by simp [hrun, h])

theorem dist_lt (a b : BitVec 32) : dist a b < 2 ^ 31 := by
  have := BitVec.two_mul_toInt_lt (x := b - a)
  unfold dist
  omega

/-- The lenient tolerance holds no run (R8). -/
theorem State.lenient_reverseCheck (h : s.jobs.current.isSome) : s.lenient.reverseCheck = s.lenient := by
  obtain ⟨k, hk⟩ := Option.isSome_iff_exists.1 h
  refine State.reverseCheck_of_within ?_
  have htol : s.lenient.job.reverseTol = 2 ^ 32 := by
    simp [State.job, State.cur, State.lenient, hk, Current.lenient]
  have := dist_lt s.lenient.web s.lenient.wpu.highWater
  rw [htol]
  push_cast
  omega

/-! ## The mark unit's part, where the track has room -/

/-- A running run has room for the row that a window's close opens. -/
def State.roomFor (s : State) : Prop := s.jobs.run = .running → s.track.length < 32

theorem State.openRow_missing_cause (lead : Pos) (hroom : s.track.length < 32) :
    (s.openRow .missing lead).jobs.holdCause = s.jobs.holdCause := by
  rw [State.openRow_of_room _ _ _ hroom]
  simp [forStations, State.rowBegun, State.noteFirst, forLanes]

/-- The mark unit's part in a count keeps the run state, where the track has room (R33, R145). -/
theorem State.markWeb_run (p : Pos) (h : s.roomFor) :
    (s.markWeb p).jobs.run = s.jobs.run ∧ (s.markWeb p).jobs.holdCause = s.jobs.holdCause := by
  have hlanes (u : State) : (forLanes (State.closeLane p) u).jobs = u.jobs := by simp
  have hlen : (forLanes (State.closeLane p) s).track.length = s.track.length := State.track_length_congr (by simp)
  unfold State.markWeb
  rw [hlanes]
  rw [← hlanes s]
  have hroom : (forLanes (State.closeLane p) s).roomFor := by
    rw [State.roomFor, hlanes, hlen]
    exact h
  generalize forLanes (State.closeLane p) s = v at *
  by_cases hc : ∃ e, v.leadingCloses p e
  · obtain ⟨e, he⟩ := hc
    rw [State.closeLeading_of_closes he]
    exact ⟨State.openRow_missing_run e (hroom he.1), State.openRow_missing_cause e (hroom he.1)⟩
  · rw [State.closeLeading_of_stands (not_exists.1 hc)]
    exact ⟨rfl, rfl⟩

theorem State.roomFor.webMoved (h : s.roomFor) (p : Pos) : (s.webMoved p).roomFor := by
  rw [State.roomFor, (s.webMoved_frame p).2.2.2.1, State.track_length_congr (s.webMoved_frame p).2.2.2.2.2.2.2.2]
  exact h

/-- The state that the reverse check of a web position change finds (R5). -/
def State.webMarked (p : Pos) (s : State) : State := (s.webMoved p).markWeb p

theorem State.webChange_eq_checked (p : Pos) (s : State) : s.webChange p = (s.webMarked p).reverseCheck := rfl

theorem State.webMarked_frame (p : Pos) (s : State) :
    (s.webMarked p).wpu = s.wpu.advanceHighWater ∧ (s.webMarked p).cur = s.cur ∧ (s.webMarked p).web = s.web := by
  simp [State.webMarked]

theorem State.webMarked_run (p : Pos) (h : s.roomFor) :
    (s.webMarked p).jobs.run = s.jobs.run ∧ (s.webMarked p).jobs.holdCause = s.jobs.holdCause := by
  unfold State.webMarked
  obtain ⟨hrun, hcause⟩ := State.markWeb_run p (h.webMoved p)
  rw [hrun, hcause]
  simp

theorem State.webMarked_current (p : Pos) (s : State) : (s.webMarked p).jobs.current = s.jobs.current := by
  simp [State.webMarked, State.webMoved, forStations, forChannels]

theorem State.lenient_webMarked (h : s.roomFor) : s.lenient.webMarked p = (s.webMarked p).lenient := by
  unfold State.webMarked
  rw [State.indifferent_webMoved, State.lenient_markWeb p (h.webMoved p)]

/-! ## The hold, read from the lenient state -/

theorem State.lenient_recordsOfAHold : recordsOfAHold s.lenient t ↔ recordsOfAHold s t := by
  have habandoned (r : RowCtx) : s.lenient.abandoned r = s.abandoned r := rfl
  have hlate (r : RowCtx) (c : Fin 8) (e : ChannelEntry) :
      (s.lenient.showsLate r c e ↔ s.showsLate r c e) ∧ s.lenient.lateShown r c e = s.lateShown r c e := by
    simp [State.showsLate, State.lateShown]
  have hshown (m : Memory) (r : RowCtx) : s.lenient.recordShown m r ↔ s.recordShown m r := by
    simp only [State.recordShown, State.channelShown, State.lenient_block, (hlate _ _ _).1]
  have hbytes (r : RowCtx) (n : Nat) : s.lenient.recordBytes r n = s.recordBytes r n := by
    simp only [State.recordBytes, State.stationEntryBytes, State.channelEntryBytes, State.lenient_arrival, (hlate _ _ _).2]
  unfold recordsOfAHold
  simp only [habandoned, hshown, hbytes]
  rfl

theorem State.lenient_holdSets : s.lenient.holdSets = s.holdSets := by
  funext k
  have htallied (n : Word) : s.lenient.tallied n ↔ s.tallied n := by
    have hrows : s.lenient.job.tallyRows = s.job.tallyRows := by simp [Job.tallyRows]
    rw [State.tallied, hrows]
    rfl
  unfold State.holdSets
  simp only [htallied]
  rfl

theorem State.lenient_blocksHeld : blocksHeld s.lenient t ↔ blocksHeld s t := by
  have hstations : stationsHeld s.lenient t ↔ stationsHeld s t := by simp [stationsHeld]
  have hchannels : channelsHeld s.lenient t ↔ channelsHeld s t := Iff.rfl
  unfold blocksHeld
  rw [hstations, hchannels, State.lenient_recordsOfAHold]
  rfl

/-- The hold of the reverse check acts on all as the count under the lenient tolerance leaves it (R149, R150). -/
theorem State.hold_lenient {k : Current} (hk : s.jobs.current = some k) :
    blocksHeld s.lenient (s.hold .reverse) ∧ causesSet s.lenient (s.hold .reverse) s.lenient.holdSets ∧
      (s.hold .reverse).jobs = { s.lenient.jobs with
        current := some k, run := .held, holdCause := .reverse
        stopRequest := s.lenient.jobs.stopRequest || s.lenient.jobs.selection.getLsbD 1
        stopCauses := s.lenient.jobs.stopCauses ||| 2 } := by
  refine ⟨State.lenient_blocksHeld.2 (State.hold_blocksHeld .reverse s), ?_, ?_⟩
  · rw [State.lenient_holdSets]
    exact State.hold_causes .reverse s
  · rw [State.hold_jobs, State.lenient_selection]
    unfold JobControl.handStop JobControl.selects
    rw [← hk]
    rfl

end

end Sys2Proof.Machine
end

section
/-! The loop of zone events where rows may share a number: its trims, and that it does nothing where it takes nothing. -/

namespace Sys2Proof.Machine

section
variable {s t u : State} {st : Fin 4} {r q : RowCtx} {e f : StationEntry} {n : Word} {k : Nat}

/-! ## The events taken -/

/-- The events taken of an entry stay taken. -/
def StationEntry.keepsTaken (e f : StationEntry) : Prop :=
  (e.startTaken = true → f.startTaken = true) ∧ (e.endTaken = true → f.endTaken = true)

theorem StationEntry.keepsTaken.refl (e : StationEntry) : e.keepsTaken e := ⟨id, id⟩

theorem StationEntry.keepsTaken.trans {g : StationEntry} (h : e.keepsTaken f) (h' : f.keepsTaken g) : e.keepsTaken g :=
  ⟨h'.1 ∘ h.1, h'.2 ∘ h.2⟩

/-- The events taken of each row at a station, in track order. -/
def State.flagsAt (s : State) (st : Fin 4) : List (Option (Bool × Bool)) :=
  s.track.map fun r => (r.stations.get st).map fun e => (e.startTaken, e.endTaken)

/-- A row whose event shows has that event taken already, where no flag changed. -/
theorem entriesGo.taken_before {F : StationEntry → Bool} {G : Bool × Bool → Bool} (hF : ∀ e, F e = G (e.startTaken, e.endTaken))
    (h : entriesGo st (fun m _ f => m = n → F f = true) s t) (hflags : t.flagsAt st = s.flagsAt st) (hr : r ∈ s.track)
    (hn : r.row = n) (he : r.stations.get st = some e) : F e = true := by
  have hpair := forall₂_of_map_eq hflags
  obtain ⟨i, hi, rfl⟩ := List.mem_iff_getElem.1 hr
  have hi' : i < t.track.length := h.length_eq ▸ hi
  obtain ⟨-, hrel⟩ := List.Forall₂.get h hi hi'
  have hsame := List.Forall₂.get hpair hi hi'
  simp only [List.get_eq_getElem] at hrel hsame
  rw [he] at hrel hsame
  generalize t.track[i].stations.get st = b at hrel hsame
  cases hrel with
  | some hf =>
    have hf' := hf hn
    simp only [Option.map_some, Option.some.injEq] at hsame
    rw [hF, ← hsame, ← hF]
    exact hf'

/-! ## One event -/

theorem entriesGo_commit (r : RowCtx) :
    entriesGo st (fun _ e f => f.startTaken = e.startTaken ∧ f.endTaken = e.endTaken) s (s.commit st r) := by
  cases he : r.stations.get st with
  | none =>
    have hnone : s.commit st r = s := by simp [State.commit, he]
    rw [hnone]
    exact entriesGo.of_rows rfl fun _ _ => ⟨rfl, rfl⟩
  | some e =>
    rw [State.commit_eq s he]
    dsimp only
    have hmark : entriesGo st (fun _ e f => f.startTaken = e.startTaken ∧ f.endTaken = e.endTaken) s
        (s.markCommitted st r.row (s.decideOutcome st r e)) :=
      (entriesGo_mapEntry r.row (f := fun x => { x with committed := true, outcome := some (s.decideOutcome st r e) })
        (fun _ => ⟨rfl, rfl⟩) fun _ _ _ => ⟨rfl, rfl⟩).of_end rfl
    generalize s.markCommitted st r.row (s.decideOutcome st r e) = m at *
    have hserving : entriesGo st (fun _ e f => f = e) m ((m.serving st (State.handover r.row)).closeTest st) :=
      entriesGo.of_places (by rw [State.closeTest_places, State.serving_handover_places]) (by simp) fun _ _ => rfl
    split
    · exact hmark.trans hserving fun _ e f g hf hg => by rw [hg]; exact hf
    · split
      · exact hmark.of_end rfl
      · exact hmark

/-- The zone-start event of the rows numbered `n`. -/
theorem entriesGo_zoneStart (n : Word) :
    entriesGo st (fun m e f => e.keepsTaken f ∧ f.endTaken = e.endTaken ∧ (m = n → f.startTaken = true)) s
      (s.zoneStartEvent st n) := by
  have hstart := entriesGo_mapEntry (s := s) (st := st) n (f := StationEntry.started)
    (R := fun m e f => e.keepsTaken f ∧ f.endTaken = e.endTaken ∧ (m = n → f.startTaken = true))
    (fun e => ⟨⟨fun _ => rfl, id⟩, rfl, fun _ => rfl⟩) fun m e hm => ⟨.refl e, rfl, fun h => absurd h hm⟩
  rw [State.zoneStartEvent_eq]
  change entriesGo st _ s (let t := (s.mapEntry st n StationEntry.started).overdueCommit st n
    t.mapEntry st n (StationEntry.checkStart (t.station st).throw))
  generalize s.mapEntry st n StationEntry.started = v at *
  have hcommit : entriesGo st (fun _ e f => f.startTaken = e.startTaken ∧ f.endTaken = e.endTaken) v (v.overdueCommit st n) := by
    unfold State.overdueCommit
    split
    · split
      · exact entriesGo.of_rows rfl fun _ _ => ⟨rfl, rfl⟩
      · exact entriesGo_commit _
    · exact entriesGo.of_rows rfl fun _ _ => ⟨rfl, rfl⟩
  generalize v.overdueCommit st n = w at *
  have hcheck : entriesGo st (fun _ e f => f.startTaken = e.startTaken ∧ f.endTaken = e.endTaken) w
      (w.mapEntry st n (StationEntry.checkStart (w.station st).throw)) := by
    refine entriesGo_mapEntry n (fun e => ?_) fun _ _ _ => ⟨rfl, rfl⟩
    rw [StationEntry.checkStart_eq]
    exact ⟨rfl, rfl⟩
  have hrest := hcommit.trans hcheck (R'' := fun _ e f => f.startTaken = e.startTaken ∧ f.endTaken = e.endTaken)
    fun _ e f g hf hg => ⟨hg.1.trans hf.1, hg.2.trans hf.2⟩
  refine hstart.trans hrest fun m e f g hf hg => ?_
  obtain ⟨hkeep, hend, hown⟩ := hf
  rw [StationEntry.keepsTaken, hg.1, hg.2]
  exact ⟨hkeep, hend, hown⟩

theorem State.zoneEndEvent_of_row? (hr : s.row? n = some r) (he : r.stations.get st = some e) :
    r.row = n ∧ s.zoneEndEvent st n = ((s.zoneTrimmed st r e).bandCheck st r (s.measure st r e)).openAtEnd st n := by
  have hn : r.row = n := by simpa using List.find?_some hr
  refine ⟨hn, ?_⟩
  unfold State.zoneEndEvent
  rw [hr]
  dsimp only
  rw [he]
  dsimp only
  rw [State.zoneTrimmed, hn]

/-- A zone-end event by number: nothing where no row has that number with an entry at the station. -/
theorem State.zoneEndEvent_cases (st : Fin 4) (n : Word) (s : State) :
    s.zoneEndEvent st n = s ∨ ∃ r e, s.row? n = some r ∧ r.stations.get st = some e := by
  unfold State.zoneEndEvent
  cases hr : s.row? n with
  | none => exact .inl rfl
  | some r =>
    cases he : r.stations.get st with
    | none =>
      refine .inl ?_
      dsimp only
      rw [he]
    | some e => exact .inr ⟨r, e, rfl, he⟩

/-- The zone-end event of the rows numbered `n`. -/
theorem entriesGo_zoneEnd (hr : s.row? n = some r) (he : r.stations.get st = some e) :
    entriesGo st (fun m e f => e.keepsTaken f ∧ (m = n → f.endTaken = true)) s (s.zoneEndEvent st n) := by
  obtain ⟨hn, hevent⟩ := State.zoneEndEvent_of_row? hr he
  rw [hevent]
  refine (entriesGo_bandChecked.of_end (State.openAtEnd_track n)).mono fun m f g hg => ?_
  rw [StationEntry.keepsTaken, hg.startTaken]
  by_cases hm : m = r.row
  · exact ⟨⟨id, fun _ => (hg.own hm).2.2.1⟩, fun _ => (hg.own hm).2.2.1⟩
  · refine ⟨⟨id, fun h => ((hg.others hm).2.2).trans h⟩, fun h => absurd (h.trans hn.symm) hm⟩

theorem entriesGo_event (st : Fin 4) (r : RowCtx) :
    entriesGo st (fun _ e f => e.keepsTaken f) s (s.zoneEvent st r) := by
  unfold State.zoneEvent
  split
  · rcases State.zoneEndEvent_cases st r.row s with h | ⟨q, e, hq, he⟩
    · rw [h]
      exact entriesGo.of_rows rfl fun _ => .refl
    · exact (entriesGo_zoneEnd hq he).mono fun _ _ _ h => h.1
  · exact (entriesGo_zoneStart r.row).mono fun _ _ _ h => h.1

theorem entriesGo_events (st : Fin 4) (k : Nat) : entriesGo st (fun _ e f => e.keepsTaken f) s (s.zoneEvents st k) := by
  induction k generalizing s with
  | zero => exact entriesGo.of_rows rfl fun _ => .refl
  | succ k ih =>
    cases hf : s.track.find? fun r => r.eventDueAt st with
    | none =>
      rw [State.zoneEvents_none hf]
      exact entriesGo.of_rows rfl fun _ => .refl
    | some r =>
      rw [State.zoneEvents_some hf]
      exact (entriesGo_event st r).trans ih fun _ _ _ _ h h' => h.trans h'

/-- The zone events of a station do nothing where no event is taken. -/
theorem State.zoneEvents_of_flags (h : (s.zoneEvents st k).flagsAt st = s.flagsAt st) : s.zoneEvents st k = s := by
  induction k with
  | zero => rfl
  | succ k ih =>
    cases hf : s.track.find? fun r => r.eventDueAt st with
    | none => exact State.zoneEvents_none hf
    | some r =>
      obtain ⟨hr, e, he, hdue⟩ := State.findDue hf
      rw [StationEntry.eventDue_iff] at hdue
      rw [State.zoneEvents_some hf] at h ⊢
      unfold State.zoneEvent at h ⊢
      have hstarted : r.startedAt st = e.startTaken := by rw [RowCtx.startedAt, he]
      rw [hstarted] at h ⊢
      by_cases hs : e.startTaken = true
      · rw [if_pos hs] at h ⊢
        rcases State.zoneEndEvent_cases st r.row s with hend | ⟨q, x, hq, hx⟩
        · rw [hend] at h ⊢
          exact ih h
        · have htaken := ((entriesGo_zoneEnd hq hx).trans (entriesGo_events st k)
            (R'' := fun m _ f => m = r.row → f.endTaken = true) fun m e f g hf hg hm => hg.2 (hf.2 hm)).taken_before
            (F := StationEntry.endTaken) (G := Prod.snd) (fun _ => rfl) h hr rfl he
          rcases hdue with ⟨-, hd⟩ | ⟨-, hd⟩
          · exact absurd (hs.symm.trans hd) (by simp)
          · exact absurd (htaken.symm.trans hd) (by simp)
      · rw [if_neg hs] at h
        have htaken := ((entriesGo_zoneStart r.row).trans (entriesGo_events st k)
          (R'' := fun m _ f => m = r.row → f.startTaken = true) fun m e f g hf hg hm => hg.1 (hf.2.2 hm)).taken_before
          (F := StationEntry.startTaken) (G := Prod.fst) (fun _ => rfl) h hr rfl he
        exact absurd htaken hs

/-! ## The trims -/

/-- From `s` to `t` the trims of station `st` come to `trim` in all (R65). -/
def State.trims (st : Fin 4) (trim : Int) (s t : State) : Prop :=
  (t.station st).trimTotal = (s.station st).trimTotal + BitVec.ofInt 32 trim ∧
    t.cylGens.get st =
      { s.cylGens.get st with
        acc := (s.cylGens.get st).acc + BitVec.ofInt 48 (trim * ((s.cylGens.get st).ratio : Int)) }

theorem State.trims_zero (htotal : (t.station st).trimTotal = (s.station st).trimTotal)
    (hgen : t.cylGens.get st = s.cylGens.get st) : s.trims st 0 t := by
  rw [State.trims, htotal, hgen]
  simp

theorem State.trims.trans {a b : Int} (h : s.trims st a t) (h' : t.trims st b u) : s.trims st (a + b) u := by
  obtain ⟨htotal, hgen⟩ := h
  obtain ⟨htotal', hgen'⟩ := h'
  refine ⟨?_, ?_⟩
  · rw [htotal', htotal, BitVec.ofInt_add, BitVec.add_assoc]
  · rw [hgen', hgen]
    dsimp only
    rw [add_mul, BitVec.ofInt_add, BitVec.add_assoc]

/-- Every zone-end event at the station has been taken. -/
def State.allEnded (s : State) (st : Fin 4) : Prop := ∀ r ∈ s.track, ∀ e, r.stations.get st = some e → e.endTaken = true

theorem State.allEnded.go (h : s.allEnded st) (hgo : entriesGo st (fun _ e f => f.endTaken = e.endTaken) s t) : t.allEnded st := by
  intro q hq f hf
  obtain ⟨i, hi, rfl⟩ := List.mem_iff_getElem.1 hq
  have hi' : i < s.track.length := hgo.length_eq ▸ hi
  obtain ⟨-, hrel⟩ := List.Forall₂.get hgo hi' hi
  simp only [List.get_eq_getElem] at hrel
  rw [hf] at hrel
  have hmem := h _ (List.getElem_mem hi')
  generalize s.track[i].stations.get st = a at hrel hmem
  cases hrel with
  | some hef => exact hef.trans (hmem _ rfl)

/-- A zone-start event keeps the station's trim total and its generator. -/
theorem State.zoneStartEvent_trims (n : Word) : s.trims st 0 (s.zoneStartEvent st n) := by
  have hcommit (v : State) (r : RowCtx) : ((v.commit st r).station st).trimTotal = (v.station st).trimTotal := by
    cases he : r.stations.get st with
    | none => simp [State.commit, he]
    | some e =>
      have hmark := v.markCommitted_station st st r.row (v.decideOutcome st r e)
      rw [if_pos rfl] at hmark
      have hmark' : ((v.markCommitted st r.row (v.decideOutcome st r e)).station st).trimTotal = (v.station st).trimTotal := by
        rw [hmark]
      rw [State.commit_eq v he, ← hmark']
      dsimp only
      generalize v.markCommitted st r.row (v.decideOutcome st r e) = m
      have hserving : ((m.serving st (State.handover r.row)).station st).trimTotal = (m.station st).trimTotal := by
        simp [State.station]
      split
      · rw [State.closeTest_station, if_pos rfl]
        exact hserving
      · split
        · rw [State.openThrow_station, if_pos rfl, Station.openThrow_eq]
          split <;> rfl
        · rfl
  refine State.trims_zero ?_ (by simp)
  rw [State.zoneStartEvent_eq]
  change ((((s.mapEntry st n StationEntry.started).overdueCommit st n).station st).trimTotal) = _
  unfold State.overdueCommit
  split
  · split
    · rfl
    · exact hcommit _ _
  · rfl

theorem State.zoneEndEvent_trims (hr : s.row? n = some r) (he : r.stations.get st = some e) :
    s.trims st (s.decideTrim st r (s.measure st r e)) (s.zoneEndEvent st n) := by
  obtain ⟨-, hevent⟩ := State.zoneEndEvent_of_row? hr he
  obtain ⟨-, -, -, htotal, -⟩ := s.zoneTrimmed_station (st := st) r e
  have hgen := s.zoneTrimmed_gen (st := st) r e
  rw [hevent]
  generalize s.zoneTrimmed st r e = m at *
  obtain ⟨hband, -⟩ := m.bandCheck_station (st := st) r (s.measure st r e)
  have hbandgen : (m.bandCheck st r (s.measure st r e)).cylGens = m.cylGens := State.bandCheck_cylGens _
  generalize m.bandCheck st r (s.measure st r e) = b at *
  obtain ⟨hopen, -⟩ := b.openAtEnd_station (st := st) n
  refine ⟨?_, ?_⟩
  · rw [hopen]
    dsimp only
    rw [hband]
    exact htotal
  · rw [(b.openAtEnd_same n).2.2.2, hbandgen, hgen]

/-- The zone events of a station bring its trims, none where every zone end has been taken (R65). -/
theorem State.zoneEvents_trims (st : Fin 4) (k : Nat) (s : State) :
    ∃ trim, (s.allEnded st → trim = 0) ∧ s.trims st trim (s.zoneEvents st k) := by
  induction k generalizing s with
  | zero => exact ⟨0, fun _ => rfl, State.trims_zero rfl rfl⟩
  | succ k ih =>
    cases hf : s.track.find? fun r => r.eventDueAt st with
    | none =>
      rw [State.zoneEvents_none hf]
      exact ⟨0, fun _ => rfl, State.trims_zero rfl rfl⟩
    | some r =>
      obtain ⟨hr, e, he, hdue⟩ := State.findDue hf
      rw [StationEntry.eventDue_iff] at hdue
      rw [State.zoneEvents_some hf]
      unfold State.zoneEvent
      have hstarted : r.startedAt st = e.startTaken := by rw [RowCtx.startedAt, he]
      rw [hstarted]
      by_cases hs : e.startTaken = true
      · rw [if_pos hs]
        have hnot : ¬ s.allEnded st := fun h => by
          rcases hdue with ⟨-, hd⟩ | ⟨-, hd⟩
          · exact absurd (hs.symm.trans hd) (by simp)
          · exact absurd ((h r hr e he).symm.trans hd) (by simp)
        rcases State.zoneEndEvent_cases st r.row s with hend | ⟨q, x, hq, hx⟩
        · rw [hend]
          exact ih s
        · obtain ⟨trim, -, htrims⟩ := ih (s.zoneEndEvent st r.row)
          exact ⟨_, fun h => absurd h hnot, (State.zoneEndEvent_trims hq hx).trans htrims⟩
      · rw [if_neg hs]
        obtain ⟨trim, hzero, htrims⟩ := ih (s.zoneStartEvent st r.row)
        refine ⟨trim, fun h => hzero (h.go ((entriesGo_zoneStart r.row).mono fun _ _ _ h => h.2.1)), ?_⟩
        have := (State.zoneStartEvent_trims (s := s) (st := st) r.row).trans htrims
        rwa [zero_add] at this

end

end Sys2Proof.Machine
end

section
/-! A station's part in a web position change: its trims, its throw, and what it does where nothing is due. -/

namespace Sys2Proof.Machine

section
variable {s t u v : State} {st : Fin 4} {p : Pos} {delta : Int} {n : Word}

/-! ## What is read of the entries -/

theorem State.flagsAt_of_entriesAt (h : t.entriesAt st = s.entriesAt st) : t.flagsAt st = s.flagsAt st := by
  have hread (u : State) : u.flagsAt st = (u.entriesAt st).map fun x => x.2.map fun e => (e.startTaken, e.endTaken) := by
    rw [State.entriesAt, List.map_map]
    rfl
  rw [hread, h, ← hread]

theorem State.allEnded_of_entriesAt (h : t.entriesAt st = s.entriesAt st) (hs : s.allEnded st) : t.allEnded st := by
  have hread (u : State) : u.allEnded st ↔ ∀ x ∈ u.entriesAt st, ∀ e, x.2 = some e → e.endTaken = true := by
    rw [State.entriesAt, List.forall_mem_map]
    rfl
  rw [hread, h, ← hread]
  exact hs

theorem State.closePointReached_of_entriesAt (h : t.entriesAt st = s.entriesAt st) (hw : t.wpu = s.wpu) (hc : t.cur = s.cur) :
    t.closePointReached st = s.closePointReached st := by
  have hread (u : State) : u.strikes st =
      (u.entriesAt st).filterMap fun x => x.2.map fun e => (e.struck && !e.endTaken, e.zoneStart) := by
    rw [State.entriesAt, List.filterMap_map]
    rfl
  exact State.closePointReached_of_strikes (by rw [hread, h, ← hread]) hw hc

/-! ## The part of one station -/

/-- From `s` to `t` the cylinder of station `st` turned by `delta` and by trims of `trim` in all (R15, R65). -/
def State.webTrims (st : Fin 4) (delta trim : Int) (s t : State) : Prop :=
  (t.station st).trimTotal = (s.station st).trimTotal + BitVec.ofInt 32 trim ∧
    t.cylGens.get st =
      { s.cylGens.get st with
        acc := (s.cylGens.get st).acc + BitVec.ofInt 48 ((delta + trim) * ((s.cylGens.get st).ratio : Int)) }

theorem State.webDriven_gen (p : Pos) (delta : Int) (st : Fin 4) (s : State) :
    ((s.webDriven p delta st).station st).trimTotal = (s.station st).trimTotal ∧
      (s.webDriven p delta st).cylGens.get st =
        { s.cylGens.get st with
          acc := (s.cylGens.get st).acc + BitVec.ofInt 48 (delta * ((s.cylGens.get st).ratio : Int)) } := by
  have hbefore : ((s.mapEntries st fun e => e.advance p s.web e.face).latchCommits st).station st = s.station st ∧
      ((s.mapEntries st fun e => e.advance p s.web e.face).latchCommits st).cylGens = s.cylGens := by
    simp [State.station]
  unfold State.webDriven
  generalize (s.mapEntries st fun e => e.advance p s.web e.face).latchCommits st = v at *
  obtain ⟨hstation, hgens⟩ := hbefore
  obtain ⟨hy, -⟩ := (v.deliverCylinder st delta).drift_station (st := st) delta
  refine ⟨?_, ?_⟩
  · rw [hy, ← hstation]
    rfl
  · have hdrift : ((v.deliverCylinder st delta).drift st delta).cylGens = (v.deliverCylinder st delta).cylGens := by simp
    rw [hdrift, ← hgens]
    simp [State.deliverCylinder, State.setGen, StepGen.deliver]

theorem State.closeTest_trimTotal (s : State) (st : Fin 4) : ((s.closeTest st).station st).trimTotal = (s.station st).trimTotal := by
  rw [State.closeTest_station, if_pos rfl]

/-- The cylinder of a station at a web position change (R15, R65). -/
theorem State.stationWeb_trims (h : s.activeAt st = true) (p : Pos) (delta : Int) :
    ∃ trim, (s.allEnded st → trim = 0) ∧ s.webTrims st delta trim (s.stationWeb p delta st) := by
  obtain ⟨htotal, hgen⟩ := s.webDriven_gen p delta st
  have hended : s.allEnded st → (s.webDriven p delta st).allEnded st := fun hall =>
    hall.go (entriesGo_webDriven.mono fun _ _ _ hr => hr.endTaken)
  rw [State.stationWeb_of_active h]
  generalize s.webDriven p delta st = d at *
  obtain ⟨trim, hzero, htotal', hgen'⟩ := d.zoneEvents_trims st (2 * d.track.length)
  refine ⟨trim, hzero ∘ hended, ?_, ?_⟩
  · rw [State.closeTest_trimTotal, ← htotal]
    exact htotal'
  · have hclose : ((d.runZoneEvents st).closeTest st).cylGens = (d.runZoneEvents st).cylGens := by simp
    rw [hclose]
    refine hgen'.trans ?_
    rw [hgen]
    dsimp only
    rw [add_mul, BitVec.ofInt_add, BitVec.add_assoc]

theorem State.closeTest_reached (s : State) (st : Fin 4) : (s.closeTest st).closePointReached st = s.closePointReached st :=
  State.closePointReached_congr (by simp) (by simp) (by simp) st

/-- The close condition is tested last (R90). -/
theorem State.stationWeb_closes (h : s.activeAt st = true) (hmoving : s.jobs.run = .running ∨ s.jobs.run = .draining)
    (htracking : ((s.stationWeb p delta st).station st).state = .tracking)
    (hreached : (s.stationWeb p delta st).closePointReached st = true) :
    ((s.stationWeb p delta st).station st).throw ≠ .off := by
  have hrun : ((s.webDriven p delta st).runZoneEvents st).jobs.run = s.jobs.run := by simp [State.webDriven]
  rw [State.stationWeb_of_active h] at *
  generalize (s.webDriven p delta st).runZoneEvents st = z at *
  rw [State.closeTest_reached] at hreached
  rw [State.closeTest_station, if_pos rfl] at htracking ⊢
  dsimp only at htracking ⊢
  rw [hrun]
  split
  · simp
  · rename_i hno
    exact fun hoff => hno ⟨htracking, hmoving, hoff, hreached⟩

/-- A station to which the web brings no drift shift and no zone event (R56, R90). -/
theorem State.stationWeb_quiet (h : s.activeAt st = true) (hsmall : s.trimSmall st delta)
    (hflags : (s.stationWeb p delta st).flagsAt st = s.flagsAt st) :
    let x := s.station st
    let closes := x.state = .tracking ∧ (s.jobs.run = .running ∨ s.jobs.run = .draining) ∧ x.throw = .off ∧
      (s.stationWeb p delta st).closePointReached st = true
    (s.stationWeb p delta st).station st =
      { x with drift := x.drift + delta * x.rho
               throw := if closes then .closing else x.throw
               timer := if closes then (s.block st).throwOn else x.timer } := by
  have hdriven : (s.webDriven p delta st).station st =
      { s.station st with drift := (s.station st).drift + delta * (s.station st).rho } := by
    have hbefore : (((s.mapEntries st fun e => e.advance p s.web e.face).latchCommits st).deliverCylinder st delta).station st =
        s.station st ∧ (((s.mapEntries st fun e => e.advance p s.web e.face).latchCommits st).deliverCylinder st delta).cur =
        s.cur := by
      simp [State.station]
    unfold State.webDriven
    generalize ((s.mapEntries st fun e => e.advance p s.web e.face).latchCommits st).deliverCylinder st delta = v at *
    obtain ⟨hstation, hcur⟩ := hbefore
    have hsmall' : ((v.station st).drift + delta * (v.station st).rho).natAbs < 65536 * (v.block st).steps := by
      rw [hstation, State.block_congr hcur]
      exact hsmall
    rw [State.drift_of_small hsmall', State.station_setStation, if_pos rfl, hstation]
  have hrun : (s.webDriven p delta st).jobs.run = s.jobs.run := by simp [State.webDriven]
  have hblock : (s.webDriven p delta st).block st = s.block st := State.block_congr (s.webDriven_frame p delta st).1 st
  have hkept : (s.webDriven p delta st).flagsAt st = s.flagsAt st := by
    have hpairs := (entriesGo_webDriven (s := s) (st := st) (p := p) (delta := delta)).map_eq
      (F := fun e => (e.startTaken, e.endTaken)) (G := fun _ e => (e.startTaken, e.endTaken))
      fun _ e f hr => by rw [hr.startTaken, hr.endTaken]
    have := congrArg (List.map Prod.snd) hpairs
    simpa [List.map_map, Function.comp_def, State.flagsAt] using this
  rw [State.stationWeb_of_active h] at hflags ⊢
  generalize s.webDriven p delta st = d at *
  have hnone : d.runZoneEvents st = d := by
    refine State.zoneEvents_of_flags ?_
    rw [hkept, ← hflags]
    exact (State.flagsAt_of_entriesAt (State.entriesAt_of_places (State.closeTest_places st _) st)).symm
  rw [hnone, State.closeTest_reached, State.closeTest_station, if_pos rfl, hdriven, hrun, hblock]

/-! ## The parts of all stations -/

/-- The part of station `st` in a web position change, from a state in which all that it reads is as before (R5). -/
theorem State.webMoved_at (p : Pos) (st : Fin 4) (s : State) :
    ∃ u : State, u.atStation st = s.atStation st ∧ u.cur = s.cur ∧ u.wpu = s.wpu.advanceHighWater ∧ u.jobs.run = s.jobs.run ∧
      (s.webMoved p).atStation st = (u.stationWeb p (dist p s.web) st).atStation st := by
  unfold State.webMoved
  obtain ⟨hat, hcur, -, -⟩ := State.foilAdvances_keep (s := s.withWpu s.wpu.advanceHighWater) (st := st)
    s.wpu.highWater (dist s.wpu.highWater s.wpu.advanceHighWater.highWater).toNat
  refine forStations_at st
    (P := fun u => u.atStation st = s.atStation st ∧ u.cur = s.cur ∧ u.wpu = s.wpu.advanceHighWater ∧ u.jobs.run = s.jobs.run)
    (Q := fun v => ∃ u : State, u.atStation st = s.atStation st ∧ u.cur = s.cur ∧ u.wpu = s.wpu.advanceHighWater ∧
      u.jobs.run = s.jobs.run ∧ v.atStation st = (u.stationWeb p (dist p s.web) st).atStation st)
    (fun k u hk ⟨hat, hcur, hw, hrun⟩ => ?_) (fun u ⟨hat, hcur, hw, hrun⟩ => ⟨u, hat, hcur, hw, hrun, rfl⟩)
    (fun k v hk ⟨u, hat, hcur, hw, hrun, hv⟩ => ?_) ⟨hat, hcur, by simp [forChannels], by simp [forChannels]⟩
  · exact ⟨(State.atStation_stationWeb hk.symm p _).trans hat, by simp [hcur], by simp [hw], by simp [hrun]⟩
  · exact ⟨u, hat, hcur, hw, hrun, (State.atStation_stationWeb hk.symm p _).trans hv⟩

theorem State.webMoved_inactive (h : (s.station st).state = .inactive) (p : Pos) :
    (s.webMoved p).station st = s.station st ∧ (s.webMoved p).cylGens.get st = s.cylGens.get st := by
  obtain ⟨u, hat, -, -, -, hmoved⟩ := s.webMoved_at p st
  have hstation : u.station st = s.station st := congrArg Prod.fst hat
  have hskip : u.stationWeb p (dist p s.web) st = u := by
    unfold State.stationWeb
    rw [if_neg]
    rw [State.activeAt, hstation, h]
    simp
  rw [hskip] at hmoved
  have hall := hmoved.trans hat
  exact ⟨congrArg Prod.fst hall, congrArg (fun x => x.2.1) hall⟩

theorem State.webMoved_trims (h : (s.station st).state ≠ .inactive) (p : Pos) :
    ∃ trim, (s.allEnded st → trim = 0) ∧ s.webTrims st (dist p s.web) trim (s.webMoved p) := by
  obtain ⟨u, hat, -, -, -, hmoved⟩ := s.webMoved_at p st
  have hstation : u.station st = s.station st := congrArg Prod.fst hat
  have hgen : u.cylGens.get st = s.cylGens.get st := congrArg (fun x => x.2.1) hat
  have hactive : u.activeAt st = true := by
    rw [State.activeAt, hstation]
    simpa using h
  obtain ⟨trim, hzero, htotal, hgen'⟩ := State.stationWeb_trims hactive p (dist p s.web)
  have hstation' : (s.webMoved p).station st = (u.stationWeb p (dist p s.web) st).station st := congrArg Prod.fst hmoved
  have hmovedgen : (s.webMoved p).cylGens.get st = (u.stationWeb p (dist p s.web) st).cylGens.get st :=
    congrArg (fun x => x.2.1) hmoved
  refine ⟨trim, fun hall => hzero (State.allEnded_of_entriesAt (State.entriesAt_of_atStation hat) hall), ?_, ?_⟩
  · rw [hstation', htotal, hstation]
  · rw [hmovedgen, hgen', hgen]

/-- A station whose part in a web position change is the last to act on it: its throw, and what it is where nothing is due
(R56, R90). -/
theorem State.webMoved_station (h : (s.station st).state ≠ .inactive) {t : State} {p : Pos}
    (hat : t.atStation st = (s.webMoved p).atStation st) (hwpu : t.wpu = s.wpu.advanceHighWater) (hcur : t.cur = s.cur) :
    let x := s.station st
    let moving := s.jobs.run = .running ∨ s.jobs.run = .draining
    let closes := x.state = .tracking ∧ moving ∧ x.throw = .off ∧ t.closePointReached st = true
    (moving → (t.station st).state = .tracking → t.closePointReached st = true → (t.station st).throw ≠ .off) ∧
      (s.trimSmall st (dist p s.web) → t.flagsAt st = s.flagsAt st →
        t.station st =
          { x with drift := x.drift + dist p s.web * x.rho
                   throw := if closes then .closing else x.throw
                   timer := if closes then (s.block st).throwOn else x.timer }) := by
  obtain ⟨u, hu, hucur, huwpu, hurun, hmoved⟩ := s.webMoved_at p st
  have hstation : u.station st = s.station st := congrArg Prod.fst hu
  have hactive : u.activeAt st = true := by
    rw [State.activeAt, hstation]
    simpa using h
  have hall := hat.trans hmoved
  have hentries := State.entriesAt_of_atStation hall
  have hframe : (u.stationWeb p (dist p s.web) st).wpu = u.wpu ∧ (u.stationWeb p (dist p s.web) st).cur = u.cur := by simp
  have hreached : t.closePointReached st = (u.stationWeb p (dist p s.web) st).closePointReached st :=
    State.closePointReached_of_entriesAt hentries (by rw [hwpu, hframe.1, huwpu]) (by rw [hcur, hframe.2, hucur])
  have htstation : t.station st = (u.stationWeb p (dist p s.web) st).station st := congrArg Prod.fst hall
  have hblock : u.block st = s.block st := State.block_congr hucur st
  dsimp only
  rw [hreached, htstation, ← hurun]
  refine ⟨fun hm htr hr => State.stationWeb_closes hactive hm htr hr, fun hsmall hflags => ?_⟩
  have hsmall' : u.trimSmall st (dist p s.web) := by
    rw [State.trimSmall, hstation, hblock]
    exact hsmall
  have hquiet := State.stationWeb_quiet (p := p) hactive hsmall' (by
    rw [← State.flagsAt_of_entriesAt hentries, hflags, State.flagsAt_of_entriesAt (State.entriesAt_of_atStation hu)])
  dsimp only at hquiet
  rw [hquiet, hstation, hblock]

/-! ## The mark unit's part -/

/-- The station keeps its trim total, and stays as it is where it is INACTIVE. -/
def Station.keeps (x y : Station) : Prop := y.trimTotal = x.trimTotal ∧ (x.state = .inactive → y = x)

theorem Station.keeps.refl (x : Station) : x.keeps x := ⟨rfl, fun _ => rfl⟩

theorem Station.keeps.trans {x y z : Station} (h : x.keeps y) (h' : y.keeps z) : x.keeps z := by
  refine ⟨h'.1.trans h.1, fun hx => ?_⟩
  have hy := h.2 hx
  exact (h'.2 (by rw [hy]; exact hx)).trans hy

theorem State.setStation_trimTotal {x : Station} (h : x.trimTotal = (s.station st).trimTotal) :
    ((s.setStation st x).station st).trimTotal = (s.station st).trimTotal := by
  rw [State.station_setStation, if_pos rfl, h]

theorem State.openThrow_trimTotal (s : State) (st : Fin 4) :
    ((s.openThrow st).station st).trimTotal = (s.station st).trimTotal := by
  rw [State.openThrow_station, if_pos rfl, Station.openThrow_eq]
  split <;> rfl

theorem State.giveUp_trimTotal (st : Fin 4) (splice : Word) (rows : List Word) (s : State) :
    ((s.giveUp st splice rows).station st).trimTotal = (s.station st).trimTotal := by
  have hsacrifice (u : State) (n : Word) : ((u.sacrifice st n).station st).trimTotal = (u.station st).trimTotal := by
    have hserving : ((u.mapEntry st n fun e => { e with outcome := some .sacrificed }).serving st (State.withdraw n)).station st =
        u.station st := by simp [State.station]
    unfold State.sacrifice
    dsimp only
    generalize (u.mapEntry st n fun e => { e with outcome := some .sacrificed }).serving st (State.withdraw n) = v at *
    rw [← hserving]
    split
    · split
      · rfl
      · exact v.openThrow_trimTotal st
    · exact v.openThrow_trimTotal st
  have hrisk (u : State) : ((u.addRisk st splice).station st).trimTotal = (u.station st).trimTotal := by
    unfold State.addRisk
    split
    · rfl
    · exact State.setStation_trimTotal (s := u) rfl
  induction rows generalizing s with
  | nil => rfl
  | cons n rows ih =>
    rw [State.giveUp_cons, ih]
    unfold State.giveUpRow
    split
    · split
      · exact hrisk s
      · exact hsacrifice s n
    · rfl

theorem State.stationOpen_keeps (r : RowCtx) (k st : Fin 4) (s : State) : (s.station st).keeps ((s.stationOpen r k).station st) := by
  by_cases hk : st = k
  · rw [← hk]
    unfold State.stationOpen
    split
    · rename_i hactive
      refine ⟨?_, fun hx => absurd hx (by simpa [State.activeAt] using hactive)⟩
      have hplace : ((s.placeRow st r).station st).trimTotal = (s.station st).trimTotal :=
        State.setStation_trimTotal (s := s.mapRow r.row fun q => { q with stations := q.stations.set st (some (s.newEntry st r)) }) rfl
      rw [← hplace]
      unfold State.spliceTest
      split
      · exact State.giveUp_trimTotal st _ _ _
      · rfl
    · exact .refl _
  · have h : (s.stationOpen r k).station st = s.station st := congrArg Prod.fst (State.atStation_stationOpen (s := s) hk r)
    rw [h]
    exact .refl _

theorem Station.hold_keeps (x : Station) (off : Nat) : (x.hold off).trimTotal = x.trimTotal := by
  rw [Station.hold_eq]

theorem State.hold_keeps (cause : HoldCause) (s : State) (st : Fin 4) : (s.station st).keeps ((s.hold cause).station st) := by
  rw [State.hold_station]
  refine ⟨?_, fun hx => if_pos hx⟩
  split
  · rfl
  · exact Station.hold_keeps _ _

theorem State.openRow_keeps (status : MarkStatus) (lead : Pos) (s : State) (st : Fin 4) :
    (s.station st).keeps ((s.openRow status lead).station st) := by
  rcases Nat.lt_or_ge s.track.length 32 with hroom | hfull
  · rw [State.openRow_of_room _ _ _ hroom]
    have hbegun : (s.rowBegun status lead).station st = s.station st := by
      simp [State.rowBegun, State.station, forLanes]
    rw [← hbegun]
    exact forStations_induct (P := fun u => ((s.rowBegun status lead).station st).keeps (u.station st))
      (fun k u hu => hu.trans (u.stationOpen_keeps _ k st)) (.refl _)
  · rw [State.openRow_of_full _ _ _ hfull]
    unfold State.handHold
    split
    · exact State.hold_keeps _ s st
    · exact .refl _

/-- The mark unit's part in a count and the reverse check keep the trim totals, and the stations that are INACTIVE. -/
theorem State.webChange_keeps (p : Pos) (s : State) (st : Fin 4) :
    ((s.webMoved p).station st).keeps ((s.webChange p).station st) := by
  have hlanes (u : State) : (forLanes (State.closeLane p) u).station st = u.station st := by
    simp [State.station, forLanes]
  rw [State.webChange_eq]
  generalize s.webMoved p = m
  have hmark : (m.station st).keeps ((m.markWeb p).station st) := by
    unfold State.markWeb
    rw [hlanes, ← hlanes m]
    generalize forLanes (State.closeLane p) m = w
    by_cases hc : ∃ e, w.leadingCloses p e
    · obtain ⟨e, he⟩ := hc
      rw [State.closeLeading_of_closes he]
      exact w.openRow_keeps .missing e st
    · rw [State.closeLeading_of_stands (not_exists.1 hc)]
      exact .refl _
  generalize m.markWeb p = w at *
  rcases w.reverseCheck_cases with hr | ⟨hr, -⟩
  · rw [hr]
    exact hmark
  · rw [hr]
    exact hmark.trans (State.hold_keeps _ w st)

end

end Sys2Proof.Machine
end

section
/-! The statement about an encoder count. -/

namespace Sys2Proof.Machine

/-- The forward counts: the previous and the next pair (section 1.1). -/
def forwardPairs : List ((Bool × Bool) × (Bool × Bool)) :=
  [((false, false), (true, false)), ((true, false), (true, true)), ((true, true), (false, true)),
    ((false, true), (false, false))]

/-- A pair that differs in one line is a count in the direction of the table (R1). -/
theorem transition_of_one : ∀ p q : Bool × Bool, (p.1 = q.1 ↔ p.2 ≠ q.2) →
    ((p, q) ∈ forwardPairs → transition p q = .forward) ∧ ((p, q) ∉ forwardPairs → transition p q = .reverse) := by
  decide

section
variable {s t : State} {a b : Bool} {d : Direction} {p : Bool × Bool} {st : Fin 4}

theorem exec_encoderCount_reverse (hp : s.wpu.pair = some p) (ht : transition p (a, b) = .reverse) :
    exec (.encoderCount a b) s = .next ((s.setPair a b).count .reverse) := by
  have harm : exec (.encoderCount a b) s = execEncoderCount a b s := rfl
  rw [harm, execEncoderCount, hp]
  simp only [ht]

/-- The count of a sampled pair that differs in one line (R1). -/
theorem exec_encoderCount_of_one (p : Bool × Bool) (h : p.1 = a ↔ p.2 ≠ b) :
    ∃ d, ((p, (a, b)) ∈ forwardPairs → d = .forward) ∧ ((p, (a, b)) ∉ forwardPairs → d = .reverse) ∧
      ∀ u : State, u.wpu.pair = some p → exec (.encoderCount a b) u = .next ((u.setPair a b).count d) := by
  obtain ⟨hf, hr⟩ := transition_of_one p (a, b) h
  by_cases hmem : (p, (a, b)) ∈ forwardPairs
  · exact ⟨.forward, fun _ => rfl, fun hn => absurd hmem hn, fun u hu => exec_encoderCount_forward hu (hf hmem)⟩
  · exact ⟨.reverse, fun hn => absurd hn hmem, fun _ => rfl, fun u hu => exec_encoderCount_reverse hu (hr hmem)⟩

/-! ## The web position unit -/

theorem State.counted_moves (ht : t = (s.setPair a b).count d) (hweb : t.web ≠ s.web) :
    t = (s.counted a b d).webChange s.web ∧ (s.counted a b d).web = t.web := by
  by_cases h : (s.counted a b d).web = s.web
  · rw [State.count_setPair_of_stays h] at ht
    exact absurd (ht ▸ h) hweb
  · rw [State.count_setPair_of_moves h] at ht
    exact ⟨ht, by rw [ht, State.webChange_web]⟩

theorem State.counted_stays (ht : t = (s.setPair a b).count d) (hweb : t.web = s.web) : t = s.counted a b d := by
  by_cases h : (s.counted a b d).web = s.web
  · rw [ht, State.count_setPair_of_stays h]
  · rw [State.count_setPair_of_moves h] at ht
    exact absurd (by rw [← hweb, ht, State.webChange_web]) h

/-- The web position unit through a count (R1, R3, R7). -/
theorem State.counted_wpu (ht : t = (s.setPair a b).count d) :
    t.wpu = { s.wpu with
        pair := some (a, b), direction := t.wpu.direction, acc := t.wpu.acc
        highWater := if t.web ≠ s.web ∧ 0 < dist s.wpu.highWater t.web then t.web else s.wpu.highWater } ∧
      t.wpu.direction = (s.wpu.count d).direction ∧ t.wpu.acc = (s.wpu.count d).acc := by
  have hcounted : (s.counted a b d).wpu = { s.wpu.count d with pair := some (a, b) } := by
    cases d <;> rfl
  have hrest := Wpu.count_eq s.wpu d
  by_cases hweb : t.web = s.web
  · have hw : t.wpu = { s.wpu.count d with pair := some (a, b) } := by rw [State.counted_stays ht hweb, hcounted]
    rw [if_neg fun h => h.1 hweb, hw, hrest]
    exact ⟨rfl, rfl, rfl⟩
  · obtain ⟨hchange, hcweb⟩ := State.counted_moves ht hweb
    have hw : t.wpu = ({ s.wpu.count d with pair := some (a, b) } : Wpu).advanceHighWater := by
      rw [hchange, (State.webChange_accounts _ _).2.2, State.withWpu_wpu, hcounted]
    have hposition : ({ s.wpu.count d with pair := some (a, b) } : Wpu).position = t.web := by
      rw [← hcweb, State.web, hcounted]
    have hhigh : (s.wpu.count d).highWater = s.wpu.highWater := by rw [hrest]
    rw [Wpu.advanceHighWater_eq, hposition] at hw
    simp only [ne_eq, hweb, not_false_eq_true, true_and]
    rw [hw]
    dsimp only
    rw [hhigh]
    refine ⟨?_, rfl, rfl⟩
    rw [hrest]

/-! ## The stations -/

theorem State.counted_inactive (ht : t = (s.setPair a b).count d) (h : (s.station st).state = .inactive) :
    t.cylGens.get st = s.cylGens.get st ∧ t.station st = s.station st := by
  by_cases hweb : t.web = s.web
  · rw [State.counted_stays ht hweb]
    exact ⟨rfl, rfl⟩
  · obtain ⟨hchange, -⟩ := State.counted_moves ht hweb
    have hc : ((s.counted a b d).station st).state = .inactive := h
    obtain ⟨hstation, hgen⟩ := State.webMoved_inactive hc s.web
    have hkeeps := (State.webChange_keeps s.web (s.counted a b d) st).2 (by rw [hstation]; exact hc)
    have hgens : ((s.counted a b d).webChange s.web).cylGens = ((s.counted a b d).webMoved s.web).cylGens := by
      rw [State.webChange_eq]
      simp
    rw [hchange, hgens, hkeeps, hgen, hstation]
    exact ⟨rfl, rfl⟩

theorem State.counted_trims (ht : t = (s.setPair a b).count d) (h : (s.station st).state ≠ .inactive) :
    ∃ trim, (s.allEnded st → trim = 0) ∧ s.webTrims st (dist s.web t.web) trim t := by
  by_cases hweb : t.web = s.web
  · refine ⟨0, fun _ => rfl, ?_⟩
    rw [hweb, dist_self, State.counted_stays ht hweb]
    have hcounted : (s.counted a b d).station st = s.station st ∧ (s.counted a b d).cylGens.get st = s.cylGens.get st :=
      ⟨rfl, rfl⟩
    rw [State.webTrims, hcounted.1, hcounted.2]
    simp
  · obtain ⟨hchange, hcweb⟩ := State.counted_moves ht hweb
    obtain ⟨trim, hzero, htotal, hgen⟩ := State.webMoved_trims (s := s.counted a b d) (st := st) h s.web
    have hkeeps := (State.webChange_keeps s.web (s.counted a b d) st).1
    have hgens : ((s.counted a b d).webChange s.web).cylGens = ((s.counted a b d).webMoved s.web).cylGens := by
      rw [State.webChange_eq]
      simp
    refine ⟨trim, hzero, ?_, ?_⟩
    · rw [hchange, hkeeps, htotal]
      rfl
    · rw [← hcweb, hchange, hgens, hgen]
      rfl

/-- A web position change that holds no run and opens no row leaves each station as its own part does. -/
theorem State.webChange_atStation {x : Pos} (hheld : (s.webChange x).jobs.run ≠ .held ∨ s.jobs.run = .held)
    (hnext : (s.webChange x).mark.nextRow = s.mark.nextRow) : (s.webChange x).atStation st = (s.webMoved x).atStation st := by
  have hlanes (u : State) : (forLanes (State.closeLane x) u).atStation st = u.atStation st :=
    State.atStation_of_same (by simp [forLanes]) (by simp [forLanes]) State.places_closeLanes st
  obtain ⟨w, hw, hcases⟩ := State.webChange_kept hheld
  have hmark : (forLanes (State.closeLane x) w).mark.nextRow = w.mark.nextRow := by rw [forLanes_closeLane_mark]
  have hclosed : (s.lanesClosed x).mark.nextRow = s.mark.nextRow := by rw [State.lanesClosed_mark]
  have hfirst : (s.lanesClosed x).atStation st = (s.webMoved x).atStation st := by
    unfold State.lanesClosed
    exact hlanes _
  rw [hw, hmark] at hnext
  rw [hw, hlanes, ← hfirst]
  generalize s.lanesClosed x = v at *
  rcases hcases with heq | ⟨e, -, hroom, heq⟩
  · rw [heq]
  · rw [heq, (v.openRow_mark .missing e hroom).2.1, hclosed] at hnext
    exact absurd hnext (rowSucc_ne _)

/-! ## The hold, and the run otherwise -/

/-- A web left beyond the reverse tolerance holds the run, and the hold acts on all as the count under the lenient
tolerance leaves it (R8, R149). -/
theorem State.webChange_beyond {x : Pos} (hroom : s.roomFor) (hrun : s.jobs.run.holdable = true)
    (h : (s.job.reverseTol : Int) < dist s.web s.wpu.advanceHighWater.highWater) :
    s.webChange x = (s.webMarked x).hold .reverse ∧ (s.webMarked x).jobs.run = s.jobs.run ∧
      (s.jobs.current.isSome → s.lenient.webChange x = (s.webMarked x).lenient) := by
  obtain ⟨hwpu, hcur, hweb⟩ := s.webMarked_frame x
  have hjobs := (State.webMarked_run x hroom).1
  refine ⟨?_, hjobs, fun hsome => ?_⟩
  · rw [State.webChange_eq_checked]
    refine State.reverseCheck_of_beyond (by rw [hjobs]; exact hrun) ?_
    rw [State.job_congr hcur, hweb, hwpu]
    exact h
  · rw [State.webChange_eq_checked, State.lenient_webMarked hroom,
      State.lenient_reverseCheck (by rw [State.webMarked_current]; exact hsome)]

/-- A web that is not beyond the reverse tolerance leaves the run state, where the track has room (R8). -/
theorem State.webChange_within {x : Pos} (hroom : s.roomFor)
    (h : dist s.web s.wpu.advanceHighWater.highWater ≤ s.job.reverseTol) :
    (s.webChange x).jobs.run = s.jobs.run ∧ (s.webChange x).jobs.holdCause = s.jobs.holdCause := by
  obtain ⟨hwpu, hcur, hweb⟩ := s.webMarked_frame x
  rw [State.webChange_eq_checked, State.reverseCheck_of_within]
  · exact State.webMarked_run x hroom
  · rw [State.job_congr hcur, hweb, hwpu]
    exact h

/-! ## Memory -/

theorem State.openRow_missing_mem (lead : Pos) (hroom : s.track.length < 32) :
    changedWithin s.mem (s.openRow .missing lead).mem 0x14 0x18 ∧ (s.openRow .missing lead).records = s.records := by
  rw [State.openRow_of_room _ _ _ hroom]
  have hmem := (s.rowBegun_frame .missing lead).2.1
  have hrecords : (s.rowBegun .missing lead).records = s.records := by
    simp [State.rowBegun, State.noteFirst, forLanes]
  have hopen (r : RowCtx) (u : State) : (forStations (State.stationOpen r) u).mem = u.mem ∧
      (forStations (State.stationOpen r) u).records = u.records := by simp [forStations]
  rw [(hopen _ _).1, (hopen _ _).2, hmem]
  exact ⟨s.writeWord_within 0x14 _, hrecords⟩

/-- A web position change that holds no run changes memory at the verdicts read through word at most (R175). -/
theorem State.webChange_mem {x : Pos} (hheld : (s.webChange x).jobs.run ≠ .held ∨ s.jobs.run = .held) :
    changedWithin s.mem (s.webChange x).mem 0x14 0x18 ∧ (s.webChange x).records = s.records := by
  obtain ⟨w, hw, hcases⟩ := State.webChange_kept hheld
  have hfirst : (s.lanesClosed x).mem = s.mem ∧ (s.lanesClosed x).records = s.records := by simp
  have hlast : (forLanes (State.closeLane x) w).mem = w.mem ∧ (forLanes (State.closeLane x) w).records = w.records := by simp
  rw [hw, hlast.1, hlast.2]
  rcases hcases with heq | ⟨e, -, hroom, heq⟩
  · rw [heq, hfirst.1, hfirst.2]
    exact ⟨fun _ _ => rfl, rfl⟩
  · rw [heq, ← hfirst.1, ← hfirst.2]
    exact State.openRow_missing_mem e hroom

end

end Sys2Proof.Machine
end

section
/-! The statement about an encoder count. -/

namespace Sys2Proof.Machine

section
variable {s t : State} {a b : Bool} {d : Direction} {st : Fin 4}

theorem State.counted_frame_outside (ht : t = (s.setPair a b).count d) : sameOutside s t ∧ sameSlots s t := by
  rw [ht]
  simp [sameOutside, sameSlots]

theorem State.roomFor_of_run (h : s.jobs.run = .armed ∨ s.jobs.run = .draining ∨ s.jobs.run = .running ∧ s.track.length < 32) :
    s.roomFor := by
  intro hrun
  rcases h with h | h | h
  · exact absurd (hrun.symm.trans h) (by simp)
  · exact absurd (hrun.symm.trans h) (by simp)
  · exact h.2

/-- CURRENT's content under the lenient tolerance, in place. -/
theorem State.lenient_of_current {k : Current} (hk : s.jobs.current = some k) :
    { s with jobs := { s.jobs with current := some { k with job := { k.job with reverseTol := 2 ^ 32 } } } } = s.lenient := by
  unfold State.lenient
  rw [hk]
  rfl

/-- A count that leaves the web beyond the reverse tolerance (R8, R149, R150). -/
theorem State.counted_beyond (ht : t = (s.setPair a b).count d) (hweb : t.web ≠ s.web)
    (hroom : s.roomFor) (hrun : s.jobs.run.holdable = true) (h : (s.job.reverseTol : Int) < dist t.web t.wpu.highWater) :
    t.jobs.run = .held ∧ t.jobs.holdCause = .reverse ∧ t.track = [] ∧ t.attn.has .runHeld = true ∧
      t.jobs.hasStop .reverse = true ∧
      ∀ k, s.jobs.current = some k →
        ∃ u, (s.lenient.setPair a b).count d = u ∧ u.jobs.run = s.jobs.run ∧ blocksHeld u t ∧ causesSet u t u.holdSets ∧
          t.jobs = { u.jobs with
            current := some k, run := .held, holdCause := .reverse
            stopRequest := u.jobs.stopRequest || u.jobs.selection.getLsbD 1
            stopCauses := u.jobs.stopCauses ||| 2 } := by
  obtain ⟨hchange, hcweb⟩ := State.counted_moves ht hweb
  have hwpu : t.wpu = (s.counted a b d).wpu.advanceHighWater := by
    rw [hchange, (State.webChange_accounts _ _).2.2, State.withWpu_wpu]
  rw [hwpu, ← hcweb] at h
  have hmoves : (s.counted a b d).web ≠ s.web := by rw [hcweb]; exact hweb
  obtain ⟨hhold, hruns, hlenient⟩ := State.webChange_beyond (s := s.counted a b d) (x := s.web) hroom hrun h
  have hcurrent : ((s.counted a b d).webMarked s.web).jobs.current = s.jobs.current := State.webMarked_current _ _
  have hlcount : (s.lenient.setPair a b).count d = (s.counted a b d).lenient.webChange s.web :=
    State.count_setPair_of_moves (s := s.lenient) hmoves
  rw [hlcount]
  generalize (s.counted a b d).webMarked s.web = v at *
  rw [hchange, hhold]
  have hstop : (v.hold .reverse).jobs.hasStop .reverse = true := by
    rw [State.hold_jobs]
    exact (JobControl.handStop_hasStop _ _ _).2 (.inl rfl)
  have hcause : (v.hold .reverse).jobs.holdCause = .reverse := by
    rw [State.hold_jobs]
    rfl
  refine ⟨State.hold_run _, hcause, State.hold_track _ _, (State.hold_causes .reverse v _).2 (.inr (.inl rfl)), hstop,
    fun k hk => ⟨v.lenient, hlenient (by rw [show (s.counted a b d).jobs.current = some k from hk]; rfl), hruns, ?_⟩⟩
  exact State.hold_lenient (hcurrent.trans hk)

end

/-- Settles O24: the web position unit by the count's arithmetic, the stations each by its own part, and the hold by the
count under a tolerance that no web exceeds. -/
theorem encoderCountMovesTheWeb : Obligations.EncoderCountMovesTheWeb := by
  unfold Obligations.EncoderCountMovesTheWeb
  intro s a b
  refine ⟨fun hp => ?_, fun p hp hone => ?_⟩
  · have harm : exec (.encoderCount a b) s = execEncoderCount a b s := rfl
    rw [harm, execEncoderCount, hp]
    rfl
  · obtain ⟨d, hforward, hreverse, hexec⟩ := exec_encoderCount_of_one (a := a) (b := b) p hone
    generalize ht : (s.setPair a b).count d = t at *
    obtain ⟨hwpu, hdirection, hacc⟩ := State.counted_wpu ht.symm
    obtain ⟨houtside, hslots⟩ := State.counted_frame_outside ht.symm
    refine ⟨t, ht ▸ hexec s hp, hwpu, fun hf => ?_, fun hf => ?_, fun hweb => ?_, houtside, hslots,
      fun st => State.counted_inactive ht.symm, fun st => State.counted_trims ht.symm, fun hweb hrun => ⟨fun hbeyond => ?_,
        fun hwithin => ?_⟩, fun hweb hnext hheld st hactive => ?_, fun hheld => ?_⟩
    · rw [hdirection, hacc, hforward hf]
      exact ⟨rfl, rfl⟩
    · rw [hdirection, hacc, hreverse hf]
      exact ⟨rfl, rfl⟩
    · rw [State.counted_stays ht.symm hweb]
      rfl
    · have hholdable : s.jobs.run.holdable = true := by
        rcases hrun with h | h | ⟨h, -⟩ <;> rw [h] <;> rfl
      obtain ⟨hruns, hcause, htrack, hattn, hstop, hlenient⟩ := State.counted_beyond ht.symm hweb (State.roomFor_of_run hrun)
        hholdable hbeyond
      refine ⟨hruns, hcause, htrack, hattn, hstop, fun k hk => ?_⟩
      obtain ⟨u, hu, hrest⟩ := hlenient k hk
      refine ⟨u, ?_, hrest⟩
      rw [State.lenient_of_current hk, hexec s.lenient hp, hu]
    · obtain ⟨hchange, hcweb⟩ := State.counted_moves ht.symm hweb
      have hhigh : t.wpu = (s.counted a b d).wpu.advanceHighWater := by
        rw [hchange, (State.webChange_accounts _ _).2.2, State.withWpu_wpu]
      rw [hhigh, ← hcweb] at hwithin
      rw [hchange]
      exact State.webChange_within (s := s.counted a b d) (State.roomFor_of_run hrun) hwithin
    · obtain ⟨hchange, hcweb⟩ := State.counted_moves ht.symm hweb
      rw [hchange] at hnext hheld
      have hat := State.webChange_atStation (s := s.counted a b d) (st := st) hheld hnext
      have hframe : t.wpu = (s.counted a b d).wpu.advanceHighWater ∧ t.cur = (s.counted a b d).cur := by
        rw [hchange, (State.webChange_accounts _ _).2.2, State.withWpu_wpu]
        simp
      rw [← hchange] at hat
      have hstation := State.webMoved_station (s := s.counted a b d) hactive hat hframe.1 hframe.2
      rw [hcweb] at hstation
      exact ⟨hstation.1, fun hquiet => hstation.2 hquiet.1 hquiet.2⟩
    · by_cases hweb : t.web = s.web
      · rw [State.counted_stays ht.symm hweb]
        exact ⟨fun _ _ => rfl, rfl⟩
      · obtain ⟨hchange, -⟩ := State.counted_moves ht.symm hweb
        rw [hchange] at hheld ⊢
        exact State.webChange_mem (s := s.counted a b d) hheld

end Sys2Proof.Machine
end

section
/-! Row numbers stay consecutive: a row open appends the next number, a retirement takes the head, a hold and an entry
to IDLE empty the track, START_RUN sets a first row that is not 0, and nothing else touches a number. -/

namespace Sys2Proof.Machine

/-! ## Numbers -/

/-- Only the row numbers count. -/
theorem numbered_congr {last next : Word} {l k : List RowCtx} (h : l.map RowCtx.row = k.map RowCtx.row) :
    numbered last next l ↔ numbered last next k := by
  induction l generalizing k with
  | nil => cases k <;> simp_all
  | cons r l ih =>
    cases k with
    | nil => simp at h
    | cons q k =>
      obtain ⟨hrow, hrest⟩ := List.cons.inj h
      have hrow : r.row = q.row := hrow
      cases l <;> cases k
      · simp [numbered, hrow]
      · simp at hrest
      · simp at hrest
      · rename_i a l b k
        have hhead : a.row = b.row := (List.cons.inj hrest).1
        simp [numbered, hrow, hhead, ih hrest]

theorem rowSucc_ne_zero (n : Word) : rowSucc n ≠ 0 := by
  unfold rowSucc
  split
  · decide
  · assumption

/-- The next row number appended (R27). -/
theorem numbered_append {last next : Word} {l : List RowCtx} {r : RowCtx} (h : numbered last next l)
    (hr : r.row = next) (hne : next ≠ 0) : numbered next (rowSucc next) (l ++ [r]) := by
  induction l with
  | nil => exact ⟨hr ▸ hne, hr, congrArg rowSucc hr.symm⟩
  | cons q l ih =>
    cases l with
    | nil =>
      obtain ⟨hq, -, hnext⟩ := h
      exact ⟨hq, hr.trans hnext, hr ▸ hne, hr, congrArg rowSucc hr.symm⟩
    | cons p l =>
      obtain ⟨hq, hp, hrest⟩ := h
      exact ⟨hq, hp, ih hrest⟩

/-! ## Operations that keep the numbers -/

section
variable {s t : State}

theorem State.map_row_of_rows (h : t.rows = s.rows) : t.track.map RowCtx.row = s.track.map RowCtx.row := by
  simpa [State.rows, RowCtx.fixed, Function.comp_def] using congrArg (List.map Prod.fst) h

/-- An operation that keeps the rows and the mark unit's numbers. -/
theorem State.trackOk.of_rows (h : s.trackOk) (hrows : t.rows = s.rows) (hnext : t.mark.nextRow = s.mark.nextRow)
    (hlast : t.mark.lastOpened = s.mark.lastOpened) : t.trackOk := by
  obtain ⟨hlen, hne, hnum⟩ := h
  refine ⟨State.track_length_congr hrows ▸ hlen, hnext ▸ hne, ?_⟩
  rw [hnext, hlast]
  exact (numbered_congr (State.map_row_of_rows hrows)).2 hnum

theorem State.trackOk.of_mark (h : s.trackOk) (hrows : t.rows = s.rows) (hmark : t.mark = s.mark) : t.trackOk :=
  h.of_rows hrows (by rw [hmark]) (by rw [hmark])

theorem State.trackOk_of_nil (ht : t.track = []) (hne : t.mark.nextRow ≠ 0) : t.trackOk := by
  refine ⟨?_, hne, ?_⟩ <;> simp [ht, numbered]

theorem State.trackOk.hold (h : s.trackOk) (cause : HoldCause) : (s.hold cause).trackOk :=
  State.trackOk_of_nil (s.hold_track cause) (by rw [State.hold_mark]; exact h.2.1)

theorem State.trackOk.handHold (h : s.trackOk) (cause : HoldCause) : (s.handHold cause).trackOk := by
  unfold State.handHold
  split
  · exact h.hold cause
  · exact h

theorem State.trackOk.enterIdle (h : s.trackOk) : s.enterIdle.trackOk := by
  obtain ⟨-, -, hmark, -, htrack, -⟩ := s.enterIdle_spec
  exact State.trackOk_of_nil htrack (by rw [hmark]; exact h.2.1)

/-- A row open takes the next number, or holds a run whose track is full (R27, R28, R33). -/
theorem State.trackOk.openRow (h : s.trackOk) (status : MarkStatus) (lead : Pos) : (s.openRow status lead).trackOk := by
  by_cases hroom : s.track.length < 32
  · obtain ⟨-, hne, hnum⟩ := h
    obtain ⟨hlast, hnext, -⟩ := s.openRow_mark status lead hroom
    have hrows : (s.openRow status lead).rows = s.rows ++ [(s.newRow status lead).fixed] := by
      rw [s.openRow_of_room status lead hroom, ← (s.rowBegun_frame status lead).1]
      simp [forStations]
    have hmap : (s.openRow status lead).track.map RowCtx.row = (s.track ++ [s.newRow status lead]).map RowCtx.row :=
      State.map_row_of_rows (s := s.withTrack (s.track ++ [s.newRow status lead])) (by simpa [State.rows] using hrows)
    have hlen := congrArg List.length hmap
    simp only [List.length_map, List.length_append, List.length_singleton] at hlen
    refine ⟨by rw [hlen]; exact hroom, hnext ▸ rowSucc_ne_zero _, ?_⟩
    rw [hlast, hnext, numbered_congr hmap]
    exact numbered_append hnum rfl hne
  · rw [s.openRow_of_full status lead (by omega)]
    exact h.handHold _

/-- The head row retired takes its number from the track (R35). -/
theorem State.trackOk.retire (h : s.trackOk) : s.retire.trackOk := by
  have hhead : s.retireHead.trackOk := by
    unfold State.retireHead
    split
    · exact h
    · rename_i r rest ht
      obtain ⟨hlen, hne, hnum⟩ := h
      rw [ht] at hlen hnum
      refine ⟨(Nat.le_succ _).trans hlen, by simpa using hne, ?_⟩
      simpa using numbered_tail hnum
  unfold State.retire
  dsimp only
  split
  · exact hhead.enterIdle
  · exact hhead

/-! ## The mark unit -/

theorem State.trackOk.setHeld (h : s.trackOk) (l : Fin 4) (p : Option Pos) : (s.setHeld l p).trackOk :=
  h.of_rows rfl rfl rfl

theorem State.trackOk.laneFound (h : s.trackOk) (l : Fin 4) (w : LaneWindow) (p : Pos) : (s.laneFound l w p).trackOk :=
  h.of_rows (by simp) rfl rfl

theorem State.trackOk.laneEdge (h : s.trackOk) (l : Fin 4) (p : Pos) : (s.laneEdge l p).trackOk := by
  unfold State.laneEdge
  split
  · split
    · exact h.laneFound l _ p
    · exact h.setHeld l _
  · exact h.setHeld l _

theorem State.trackOk.leadingEdge (h : s.trackOk) (p : Pos) (n : Nat) : (s.leadingEdge p n).trackOk := by
  induction n generalizing s with
  | zero => exact h
  | succ n ih =>
    unfold State.leadingEdge
    split
    · split
      · exact h
      · split
        · exact ih (h.openRow _ _)
        · exact h.openRow _ _
    · exact h

theorem State.trackOk.takeMark (h : s.trackOk) (l : Fin 4) (p : Pos) : (s.takeMark l p).trackOk := by
  unfold State.takeMark
  split
  · split
    · split
      · exact h.openRow _ _
      · exact h.leadingEdge p _
      · exact h
    · split
      · exact h.setHeld l _
      · exact h.laneEdge l p
      · exact h.laneEdge l p
      · exact h
  · exact h

theorem State.trackOk.closeLane (h : s.trackOk) (p : Pos) (l : Fin 4) : (s.closeLane p l).trackOk := by
  unfold State.closeLane
  split
  · split
    · exact h.of_rows (by simp) rfl rfl
    · exact h
  · exact h

theorem State.trackOk.closeLeading (h : s.trackOk) (p : Pos) : (s.closeLeading p).trackOk := by
  unfold State.closeLeading
  split
  · split
    · exact h.openRow _ _
    · exact h
  · exact h

theorem State.trackOk.markWeb (h : s.trackOk) (p : Pos) : (s.markWeb p).trackOk :=
  forLanes_induct (P := State.trackOk) (fun l _ hu => hu.closeLane p l)
    ((forLanes_induct (P := State.trackOk) (fun l _ hu => hu.closeLane p l) h).closeLeading p)

theorem State.trackOk.count (h : s.trackOk) (d : Direction) : (s.count d).trackOk := by
  have hw : (s.withWpu (s.wpu.count d)).trackOk := h.of_mark rfl rfl
  unfold State.count
  dsimp only
  split
  · exact hw
  · rw [State.webChange_eq]
    have hm := (hw.of_mark (t := (s.withWpu (s.wpu.count d)).webMoved s.web) (by simp) (by simp)).markWeb s.web
    unfold State.reverseCheck
    split
    · exact hm.hold _
    · exact hm

/-! ## The events and the commands -/

/-- Every event of the mechanism keeps the row numbers consecutive. -/
theorem State.trackOk.event {c : Instr} (hc : c.mechanical = true) (h : s.trackOk) (he : exec c s = .next t) :
    t.trackOk := by
  have done {u : State} (hu : u.trackOk) (he : (.next u : Host.Outcome State Fault Refusal) = .next t) : t.trackOk :=
    Host.Outcome.next.inj he ▸ hu
  have same {u : State} (hrows : u.rows = s.rows) (hmark : u.mark = s.mark)
      (he : (.next u : Host.Outcome State Fault Refusal) = .next t) : t.trackOk := done (h.of_mark hrows hmark) he
  cases c with
  | encoderCount a b =>
    have hp : (s.setPair a b).trackOk := h.of_mark rfl rfl
    simp only [exec, execEncoderCount] at he
    split at he
    · exact done hp he
    · split at he
      · exact done (hp.count _) he
      · exact done (hp.count _) he
      · exact done h he
  | encoderFault a b =>
    have hp : (s.setPair a b).trackOk := h.of_mark rfl rfl
    simp only [exec, execEncoderFault] at he
    split at he
    · exact done hp he
    · split at he
      · exact done (hp.handHold _) he
      · exact done h he
  | timebaseExpiry heaters => exact same (by simp [forStations, forChannels]) (by simp [forStations, forChannels]) he
  | liftEvent st =>
    simp only [exec, execLiftEvent] at he
    split at he
    · exact same (by simp) (by simp) he
    · exact done h he
  | throwTravelComplete st =>
    simp only [exec, execThrowTravelComplete] at he
    split at he
    · exact same (by simp) (by simp) he
    · exact done h he
  | stepEmit g ns =>
    simp only [exec, execStepEmit] at he
    split at he
    · exact same (by simp) (by simp) he
    · exact done h he
  | markEdge lane level p =>
    have hm : (s.setMarkLevel lane level).trackOk := h.of_rows rfl rfl rfl
    simp only [exec, execMarkEdge] at he
    split at he
    · exact done h he
    · split at he
      · exact done (hm.takeMark lane p) he
      · exact done hm he
  | commitEvent st =>
    simp only [exec, execCommitEvent] at he
    split at he
    · exact same (by simp) (by simp) he
    · exact done h he
  | retirementEvent =>
    simp only [exec, execRetirementEvent] at he
    split at he
    · exact done h.retire he
    · exact done h he
  | indexEdge st level p =>
    simp only [exec, execIndexEdge] at he
    split at he
    · exact done h he
    · split at he
      · exact same (by simp) (by simp) he
      · exact same (by simp) (by simp) he
  | heatLossEvent st =>
    simp only [exec, execHeatLossEvent] at he
    split at he
    · split at he
      · exact same (by simp) (by simp) he
      · exact same (by simp) (by simp) he
    · exact done h he
  | heatReadyEvent st =>
    simp only [exec, execHeatReadyEvent] at he
    split at he
    · split at he
      · exact same (by simp) (by simp) he
      · exact same (by simp) (by simp) he
    · exact done h he
  | _ => cases hc

theorem State.trackOk.startRun (h : s.trackOk) : s.startRun.1.trackOk := by
  unfold State.startRun
  dsimp only
  split
  · exact h
  · split
    · exact h
    · split
      · rename_i hfirst
        split
        · refine State.trackOk_of_nil ?_ ?_
          · simp [(s.beginRun_rest _ _).2.1]
          · rw [(State.writeReport_frame _ _).2.2.2.1, (s.beginRun_rest _ _).1]
            simp only [firstRowOk, Bool.and_eq_true, bne_iff_ne] at hfirst
            exact hfirst.1
        · exact h.of_mark (by simp) (by simp)
      · exact h

theorem State.trackOk.endRun (h : s.trackOk) : s.endRun.1.trackOk := by
  unfold State.endRun
  split
  · exact h
  · exact h
  · exact h.enterIdle
  · exact h.enterIdle
  · split
    · exact h.enterIdle
    · exact h.of_rows (by simp) (by simp [State.enterDraining, forStations]) (by simp [State.enterDraining, forStations])

theorem State.trackOk.resumeRun (h : s.trackOk) : s.resumeRun.1.trackOk := by
  unfold State.resumeRun
  split
  · exact h.of_mark rfl rfl
  · exact h

theorem State.trackOk.rearmStation (h : s.trackOk) (arg : BitVec 16) : (s.rearmStation arg).1.trackOk := by
  unfold State.rearmStation
  split
  · exact h
  · split
    · exact h.of_mark (by simp) (by simp)
    · exact h

theorem State.trackOk.refillFoil (h : s.trackOk) (arg : BitVec 16) : (s.refillFoil arg).1.trackOk := by
  unfold State.refillFoil
  split
  · exact h
  · dsimp only
    split
    · exact h
    · exact h.of_mark (by simp) (by simp)

theorem State.trackOk.plateSave (h : s.trackOk) (arg : BitVec 16) : (s.plateSave arg).1.trackOk := by
  unfold State.plateSave
  dsimp only
  split
  · exact h
  · split
    · exact h
    · split
      · exact h.of_mark (by simp) (by simp)
      · split
        · exact h
        · exact h.of_mark (by simp) (by simp)

theorem State.trackOk.plateRead (h : s.trackOk) (arg : BitVec 16) : (s.plateRead arg).1.trackOk := by
  unfold State.plateRead
  dsimp only
  split_ifs
  · exact h
  · exact h.of_mark rfl rfl
  · exact h.of_mark rfl rfl

theorem State.trackOk.ackStop (h : s.trackOk) : s.ackStop.1.trackOk := by
  unfold State.ackStop
  dsimp only
  split <;> exact h.of_mark rfl rfl

theorem State.trackOk.validateJob (h : s.trackOk) (j : Job) : (s.validateJob j).1.trackOk := by
  unfold State.validateJob
  dsimp only
  split <;> exact h.of_mark (by simp) (by simp)

/-- Every command keeps the row numbers consecutive: START_RUN, END_RUN and HOLD_RUN empty the track or keep its rows,
and no other command touches it (R32, R36, R144, R147). -/
theorem State.trackOk.begin (h : s.trackOk) (code : BitVec 8) (arg : BitVec 16) : (s.begin code arg).1.trackOk := by
  unfold State.begin
  split
  · exact h.of_mark rfl rfl
  · exact h.startRun
  · exact h.endRun
  · show s.holdRun.1.trackOk
    unfold State.holdRun
    split
    · exact h.hold _
    · exact h
  · exact h.resumeRun
  · exact h.rearmStation arg
  · exact h.refillFoil arg
  · exact h.plateSave arg
  · exact h.plateRead arg
  · exact h.ackStop
  · exact h

end

theorem commandsKeep_trackOk : CommandsKeep State.trackOk where
  engine _ _ h := h
  attn _ _ h := h
  mem _ _ h := h
  pending _ _ h := h
  begins _ code arg h := h.begin code arg

/-- Settles O51, by the induction over the table: only a row open, a retirement, a hold, the entry to IDLE and
START_RUN change a number. -/
theorem trackStaysConsecutive : Obligations.TrackStaysConsecutive := by
  intro s t h he
  refine commandsKeep_trackOk.step (fun c s t hc he => ?_) (fun s j h => ?_) (fun s slot working misread h => ?_)
    (fun c s t hc h he => h.event hc he) h he
  · obtain ⟨store, count, hr⟩ := exec_reset s hc
    obtain rfl := Host.Outcome.next.inj (hr.symm.trans he)
    exact State.trackOk_of_nil rfl (by simp [State.reset, MarkUnit.reset])
  · exact h.validateJob j
  · exact h.of_mark rfl rfl

end Sys2Proof.Machine
end

section
/-! A mark edge: what it does on each lane and in each run state, and the statements about an edge that is discarded and
one of a lane that does not lead. -/

namespace Sys2Proof.Machine

/-! ## Distances from a position moved -/

theorem dist_moved (e p : Pos) (k : Int) (hlo : -(2 ^ 31) ≤ dist e p - k) (hhi : dist e p - k < 2 ^ 31) :
    dist (moved e k) p = dist e p - k := by
  unfold dist moved at *
  rw [show p - (e + BitVec.ofInt 32 k) = (p - e) - BitVec.ofInt 32 k by bv_omega, BitVec.toInt_sub, BitVec.toInt_ofInt,
    Int.sub_bmod_bmod]
  exact Int.bmod_eq_of_le (by simpa using hlo) (by simpa using hhi)

/-- A position is beyond another where its distance is above 0, but for the one distance that is its own negative. -/
theorem behind_iff_dist_pos {x p : Pos} (h : -(2 ^ 31) < dist x p) : behind x p = true ↔ 0 < dist x p := by
  have hne : p - x ≠ BitVec.intMin 32 := by
    intro he
    have hmin : (BitVec.intMin 32).toInt = -(2 ^ 31) := by decide
    rw [dist, he, hmin] at h
    omega
  have hneg : dist p x = -dist x p := by
    unfold dist
    rw [← BitVec.toInt_neg_of_ne_intMin hne, show x - p = -(p - x) by bv_omega]
  simp only [behind, hneg, decide_eq_true_eq]
  omega

/-! ## A mark edge by lane and run state -/

section
variable {s : State} {l : Fin 4} {p : Pos}

/-- An accepted rise while the web goes forward is taken as a mark edge (R19). -/
theorem exec_markEdge_forward (h : s.mark.levels.get l = false) (hd : s.wpu.direction = .forward) :
    exec (.markEdge l true p) s = .next ((s.setMarkLevel l true).takeMark l p) := by
  have hd' : (s.setMarkLevel l true).wpu.direction = .forward := hd
  simp only [exec, execMarkEdge, h, hd', Bool.false_eq_true, if_false, beq_self_eq_true, Bool.and_self, if_true]

theorem exec_markEdge_reverse (h : s.mark.levels.get l = false) (hd : s.wpu.direction = .reverse) :
    exec (.markEdge l true p) s = .next (s.setMarkLevel l true) := by
  have hd' : (s.setMarkLevel l true).wpu.direction = .reverse := hd
  simp only [exec, execMarkEdge, h, hd', Bool.false_eq_true, if_false]
  rfl

/-- An accepted fall changes the accepted level alone (R19). -/
theorem exec_markEdge_fall (h : s.mark.levels.get l = true) :
    exec (.markEdge l false p) s = .next (s.setMarkLevel l false) := by
  simp [exec, execMarkEdge, h]

theorem State.takeMark_inactive (h : s.job.laneActive l = false) : s.takeMark l p = s := by
  simp [State.takeMark, h]

theorem State.takeMark_stopped (h : s.jobs.run = .idle ∨ s.jobs.run = .held) : s.takeMark l p = s := by
  rcases h with h | h <;> simp [State.takeMark, h]

theorem State.takeMark_first (ha : s.job.laneActive l = true) (hl : s.job.leadingLane = l) (hr : s.jobs.run = .armed) :
    s.takeMark l p = s.openRow .first p := by
  simp [State.takeMark, ha, hl, hr]

theorem State.takeMark_leading (ha : s.job.laneActive l = true) (hl : s.job.leadingLane = l)
    (hr : s.jobs.run = .running) : s.takeMark l p = s.leadingEdge p 34 := by
  simp [State.takeMark, ha, hl, hr, trackCapacity]

theorem State.takeMark_draining (hl : s.job.leadingLane = l) (hr : s.jobs.run = .draining) : s.takeMark l p = s := by
  simp [State.takeMark, hl, hr]

theorem State.takeMark_armed (ha : s.job.laneActive l = true) (hl : s.job.leadingLane ≠ l) (hr : s.jobs.run = .armed) :
    s.takeMark l p = s.setHeld l (some p) := by
  simp [State.takeMark, ha, hl, hr]

theorem State.takeMark_lane (ha : s.job.laneActive l = true) (hl : s.job.leadingLane ≠ l)
    (hr : s.jobs.run = .running ∨ s.jobs.run = .draining) : s.takeMark l p = s.laneEdge l p := by
  rcases hr with hr | hr <;> simp [State.takeMark, ha, hl, hr]

/-- The leading-lane edge behind the open window is ignored (R22, R25). -/
theorem State.leadingEdge_behind {e : Pos} (hr : s.jobs.run = .running) (he : s.mark.expected = some e)
    (hb : behind p (s.windowStart e) = true) (n : Nat) : s.leadingEdge p n = s := by
  cases n with
  | zero => rfl
  | succ n => simp [State.leadingEdge, hr, he, hb]

theorem State.laneEdge_inWindow {w : LaneWindow} (hw : s.mark.windows.get l = some w)
    (hin : (dist w.centre p).natAbs ≤ s.job.window) : s.laneEdge l p = s.laneFound l w p := by
  simp [State.laneEdge, State.inLaneWindow, hw, hin]

theorem State.laneEdge_held (h : ∀ w, s.mark.windows.get l = some w → s.job.window < (dist w.centre p).natAbs) :
    s.laneEdge l p = s.setHeld l (some p) := by
  unfold State.laneEdge
  split
  · rename_i w hw
    rw [if_neg (by simpa [State.inLaneWindow] using h w hw)]
  · rfl

/-! ## Where the leading and the search window lie -/

/-- Distances from E compare with the bounds of the open window: the window and the job pitch are small beside the turn of
a position (R6). -/
def State.windowSmall (s : State) : Prop :=
  s.mark.search = false ∧ s.job.window ≤ 10000 ∨ s.mark.search = true ∧ s.jobPitch ≤ 80000

/-- The first position of the open window, from E (R22, R25). -/
def State.windowLow (s : State) : Int :=
  if s.mark.search = true then -((s.jobPitch / 2 : Nat) : Int) else -(s.job.window : Int)

/-- The last position of the open window, from E (R22, R25). -/
def State.windowHigh (s : State) : Int :=
  if s.mark.search = true then (s.jobPitch : Int) - (s.jobPitch / 2 : Nat) - 1 else s.job.window

theorem State.behind_windowStart {e : Pos} (hs : s.windowSmall) (hlo : -(2 ^ 30) ≤ dist e p) (hhi : dist e p ≤ 2 ^ 30) :
    behind p (s.windowStart e) = true ↔ dist e p < s.windowLow := by
  rcases hs with ⟨hs, hw⟩ | ⟨hs, hw⟩ <;>
  · simp only [State.windowStart, State.windowLow, hs, Bool.false_eq_true, if_false, if_true, behind, decide_eq_true_eq]
    rw [dist_moved _ _ _ (by omega) (by omega)]
    omega

theorem State.beyondWindow_iff {e : Pos} (hs : s.windowSmall) (hlo : -(2 ^ 30) ≤ dist e p) (hhi : dist e p ≤ 2 ^ 30) :
    s.beyondWindow e p = true ↔ s.windowHigh < dist e p := by
  rcases hs with ⟨hs, hw⟩ | ⟨hs, hw⟩
  · simp only [State.beyondWindow, State.windowEnd, State.windowHigh, hs, Bool.false_eq_true, if_false]
    have hd := dist_moved e p s.job.window (by omega) (by omega)
    rw [behind_iff_dist_pos (by omega), hd]
    omega
  · simp only [State.beyondWindow, State.windowEnd, State.windowHigh, hs, if_true, atOrBeyond, decide_eq_true_eq]
    rw [moved_moved, dist_moved _ _ _ (by omega) (by omega)]
    omega

/-- An edge in the open window opens its row (R22, R25). -/
theorem State.leadingEdge_inWindow {e : Pos} (hr : s.jobs.run = .running) (he : s.mark.expected = some e)
    (hs : s.windowSmall) (hlo : s.windowLow ≤ dist e p) (hhi : dist e p ≤ s.windowHigh) (n : Nat) :
    s.leadingEdge p (n + 1) = s.openRow (if s.mark.search then .recaptured else .found) p := by
  have hrange : -(2 ^ 30) ≤ dist e p ∧ dist e p ≤ 2 ^ 30 := by
    unfold State.windowLow State.windowHigh at *
    rcases hs with ⟨hs, hw⟩ | ⟨hs, hw⟩ <;> simp only [hs, Bool.false_eq_true, if_false, if_true] at hlo hhi <;> omega
  have hnb : ¬ behind p (s.windowStart e) = true := by
    rw [State.behind_windowStart hs hrange.1 hrange.2]; omega
  have hny : ¬ s.beyondWindow e p = true := by
    rw [State.beyondWindow_iff hs hrange.1 hrange.2]; omega
  simp [State.leadingEdge, hr, he, hnb, hny]

/-- An edge beyond the open window closes it, which opens its row MISSING, and is taken again (R23, R25). -/
theorem State.leadingEdge_beyond {e : Pos} (hr : s.jobs.run = .running) (he : s.mark.expected = some e)
    (hs : s.windowSmall) (hlo : s.windowHigh < dist e p) (hhi : dist e p ≤ 2 ^ 30) (n : Nat) :
    s.leadingEdge p (n + 1) = (s.openRow .missing e).leadingEdge p n := by
  have hrange : s.windowLow ≤ dist e p ∧ -(2 ^ 30) ≤ dist e p := by
    unfold State.windowLow State.windowHigh at *
    rcases hs with ⟨hs, hw⟩ | ⟨hs, hw⟩ <;> simp only [hs, Bool.false_eq_true, if_false, if_true] at hlo ⊢ <;> omega
  have hnb : ¬ behind p (s.windowStart e) = true := by
    rw [State.behind_windowStart hs hrange.2 hhi]; omega
  have hy : s.beyondWindow e p = true := (State.beyondWindow_iff hs hrange.2 hhi).2 hlo
  simp [State.leadingEdge, hr, he, hnb, hy]

end

/-- Settles O31, by the case that discards the edge: the direction, the lane, the run state, or the window it is
behind. -/
theorem discardedMarkChangesOnlyTheLevel : Obligations.DiscardedMarkChangesOnlyTheLevel := by
  intro lane p s hlevel
  refine ⟨fun h => ?_, fun u hu => exec_markEdge_fall hu⟩
  cases hd : s.wpu.direction with
  | reverse => exact exec_markEdge_reverse hlevel hd
  | forward =>
    rw [exec_markEdge_forward hlevel hd]
    refine congrArg Host.Outcome.next ?_
    change _ = s.setMarkLevel lane true
    have hbehind (e : Pos) (hr : s.jobs.run = .running) (hl : s.job.leadingLane = lane) (he : s.mark.expected = some e)
        (hs : s.windowSmall) (hb : dist e p < s.windowLow) (hlo : -(2 ^ 30) ≤ dist e p) :
        (s.setMarkLevel lane true).takeMark lane p = s.setMarkLevel lane true := by
      by_cases ha : s.job.laneActive lane = true
      · have hneg : s.windowLow ≤ 0 := by unfold State.windowLow; split <;> omega
        rw [State.takeMark_leading (s := s.setMarkLevel lane true) ha hl hr]
        exact State.leadingEdge_behind (s := s.setMarkLevel lane true) hr he
          ((State.behind_windowStart (s := s.setMarkLevel lane true) hs hlo (by omega)).2 hb) _
      · exact State.takeMark_inactive (s := s.setMarkLevel lane true) (Bool.eq_false_iff.2 ha)
    rcases h with hr | hr | ha | hr | ⟨hr, hl⟩ | ⟨e, hr, hl, he, hs, hw, hlt, hlo⟩ | ⟨e, hr, hl, he, hs, hw, hlt, hlo⟩
    · exact State.takeMark_stopped (.inl hr)
    · exact State.takeMark_stopped (.inr hr)
    · exact State.takeMark_inactive (s := s.setMarkLevel lane true) ha
    · rw [hd] at hr
      cases hr
    · exact State.takeMark_draining hl hr
    · exact hbehind e hr hl he (.inl ⟨hs, hw.trans (by decide)⟩) (by simpa [State.windowLow, hs] using hlt) hlo
    · exact hbehind e hr hl he (.inr ⟨hs, hw⟩) (by simpa [State.windowLow, hs] using hlt) hlo

/-- Settles O32: an edge in the pending window is measured, and any other is held. -/
theorem laneMarkIsMeasuredOrHeld : Obligations.LaneMarkIsMeasuredOrHeld := by
  intro lane p s hlevel hd ha hl
  rw [exec_markEdge_forward hlevel hd]
  have ha' : (s.setMarkLevel lane true).job.laneActive lane = true := ha
  refine ⟨fun w hr hw hin => congrArg _ ?_, fun h => congrArg _ ?_⟩
  · rw [State.takeMark_lane ha' hl hr, State.laneEdge_inWindow (s := s.setMarkLevel lane true) hw hin]
    rfl
  · rcases h with hr | ⟨hr, hw⟩
    · rw [State.takeMark_armed ha' hl hr]
      rfl
    · rw [State.takeMark_lane ha' hl hr, State.laneEdge_held (s := s.setMarkLevel lane true) hw]
      rfl

end Sys2Proof.Machine
end

section
/-! HOLD_RUN: the hold of the accepted command, and its completion. -/

namespace Sys2Proof.Machine

section
variable {s t : State}

/-! ## A completion after the blocks have acted -/

theorem RunState.holdable_iff (x : RunState) : x.holdable = true ↔ x = .armed ∨ x = .running ∨ x = .draining := by
  cases x <;> simp [RunState.holdable]

/-- A completion sets CMD_DONE beside what the command has set (R180). -/
theorem causesSet.complete {p : AttnCause → Prop} (h : causesSet s t p) (r : CmdResult) :
    causesSet s (t.complete r) fun k => p k ∨ k = .cmdDone := by
  intro k
  simp only [State.complete_frame, Attention.raise_has, h k]
  tauto

/-- A hold acts on what the acceptance of a command finds (R179). -/
theorem blocksHeld_accepted (c : BitVec 8) (a : BitVec 16) : blocksHeld (s.accepted c a) t ↔ blocksHeld s t := Iff.rfl

theorem blocksHeld.complete (h : blocksHeld s t) (r : CmdResult) : blocksHeld s (t.complete r) := h

end

/-- Settles O15: the acceptance, the hold with the cause HOST, and the completion. -/
theorem holdRunGivesUpTheRows : Obligations.HoldRunGivesUpTheRows := by
  intro arg s hfree hrun
  have hhold : (s.accepted 4 arg).holdRun = ((s.accepted 4 arg).hold .host, .ok) :=
    if_pos ((RunState.holdable_iff _).2 hrun)
  refine ⟨_, exec_holdRun s arg hfree, ?_⟩
  rw [hhold]
  refine ⟨by simp; rfl, ?_, ((blocksHeld_accepted 4 arg).1 (State.hold_blocksHeld _ _)).complete .ok, ?_, by simp, by simp, by simp, by simp,
    by simp, by simp⟩
  · simp only [State.complete_frame, State.hold_jobs]
    rfl
  · exact causesSet.complete (s := s) (State.hold_causes .host (s.accepted 4 arg)) .ok

end Sys2Proof.Machine
end

section
/-! Retirement: when the head row is ready, the record it leaves, and the entry to IDLE of a run it drains. -/

namespace Sys2Proof.Machine

section
variable {s t u : State} {r : RowCtx} {rest : List RowCtx}

/-! ## The entry to IDLE -/

theorem State.enterIdle_idleEntered (s : State) : idleEntered s s.enterIdle := by
  obtain ⟨-, -, hmark, hwpu, htrack, -, hst, hch, -⟩ := s.enterIdle_spec
  refine ⟨hwpu, hmark, htrack, fun st => ?_, fun c => ?_⟩
  · rw [(hst st).1, (hst st).2]
    simp [Station.resting, Station.toInactive]
  · rw [(hch c).1, (hch c).2]
    simp [Channel.resting, Channel.toIdle]

/-- An entry to IDLE reads the blocks alone. -/
theorem idleEntered.of_blocks (h : idleEntered u t) (hwpu : u.wpu = s.wpu) (hmark : u.mark = s.mark)
    (hst : u.stations = s.stations) (hch : u.channels = s.channels) (hcyl : u.cylGens = s.cylGens)
    (hfoil : u.foilGens = s.foilGens) : idleEntered s t := by
  unfold idleEntered State.station State.channel at *
  rwa [← hwpu, ← hmark, ← hst, ← hch, ← hcyl, ← hfoil]

/-! ## Readiness -/

/-- The zone end of a row at a station is behind the web, or the station has none of the row (R34). -/
theorem State.passed_iff (st : Fin 4) : s.passed r st = true ↔
    ∀ e, (s.station st).state ≠ .inactive → r.stations.get st = some e → dist s.web (moved e.face e.zoneEndOff) < 0 := by
  unfold State.passed State.activeAt behind
  by_cases ha : (s.station st).state = .inactive
  · simp [ha]
  · cases hr : r.stations.get st with
    | none => simp
    | some e =>
      simp only [ha, Bool.not_eq_true', bne_eq_false_iff_eq, Bool.or_eq_true, decide_eq_true_eq, false_or]
      exact ⟨fun h f _ hf => Option.some.inj hf ▸ h, fun h => h e ha rfl⟩

theorem Channel.holds_iff (x : Channel) (n : Word) : x.holds n = true ↔
    ∃ k : Stroke, (k ∈ x.strokes ∨ x.current = some k ∨ x.mergingFrom = some k) ∧ k.row = n := by
  simp only [Channel.holds, Bool.or_eq_true, List.any_eq_true, Option.any_eq_true, beq_iff_eq]
  grind

theorem State.released_iff (n : Word) : s.released n = true ↔
    ∀ c (k : Stroke), (k ∈ (s.channel c).strokes ∨ (s.channel c).current = some k ∨
      (s.channel c).mergingFrom = some k) → k.row ≠ n := by
  simp only [State.released, List.all_eq_true, Eight.mem_toList, Bool.not_eq_true', Bool.eq_false_iff, ne_eq,
    Channel.holds_iff, forall_exists_index, forall_apply_eq_imp_iff, not_exists, not_and]
  rfl

/-- The head row is ready where every active station and every channel is done with it (R34). -/
theorem State.headReady_iff (ht : s.track = r :: rest) : s.headReady = true ↔
    (∀ st e, (s.station st).state ≠ .inactive → r.stations.get st = some e →
        dist s.web (moved e.face e.zoneEndOff) < 0) ∧
      ∀ c (k : Stroke), (k ∈ (s.channel c).strokes ∨ (s.channel c).current = some k ∨
        (s.channel c).mergingFrom = some k) → k.row ≠ r.row := by
  simp only [State.headReady, ht, Bool.and_eq_true, State.passed_iff, State.released_iff, and_congr_left_iff]
  intro _
  exact ⟨fun ⟨⟨⟨h0, h1⟩, h2⟩, h3⟩ st => by fin_cases st; exacts [h0, h1, h2, h3], fun h => ⟨⟨⟨h 0, h 1⟩, h 2⟩, h 3⟩⟩

/-! ## The record and what follows it -/

theorem State.retireHead_eq (ht : s.track = r :: rest) :
    s.retireHead = ((s.record r).withTrack rest).withLastRetired (some r) := by
  rw [State.retireHead, ht]

/-- A retirement that empties the track of a DRAINING run takes it to IDLE (R147). -/
theorem State.retire_ends (ht : s.track = [r]) (hr : s.jobs.run = .draining) : s.retire = s.retireHead.enterIdle := by
  have hu := State.retireHead_eq ht
  rw [State.retire, if_pos ⟨by simpa using hr, by simp [hu]⟩]

theorem State.retire_goesOn (ht : s.track = r :: rest) (h : ¬ (s.jobs.run = .draining ∧ rest = [])) :
    s.retire = s.retireHead := by
  have hu := State.retireHead_eq ht
  rw [State.retire, if_neg fun hc => h ⟨by simpa using hc.1, by simpa [hu] using hc.2⟩]

theorem State.retire_stored (ht : s.track = r :: rest) :
    s.retire.mem = (s.record r).mem ∧ s.retire.records = (s.record r).records ∧ s.retire.track = rest := by
  by_cases h : s.jobs.run = .draining ∧ rest = []
  · obtain ⟨hr, rfl⟩ := h
    obtain ⟨-, -, -, -, htrack, -, -, -, hmem, hrecords, -⟩ := s.retireHead.enterIdle_spec
    rw [State.retire_ends ht hr, hmem, hrecords, htrack, State.retireHead_eq ht]
    exact ⟨rfl, rfl, rfl⟩
  · rw [State.retire_goesOn ht h, State.retireHead_eq ht]
    exact ⟨rfl, rfl, rfl⟩

/-- The causes of a retirement: those of its record, and RUN_IDLE at an entry to IDLE (R147, R192, R195). -/
theorem State.retire_attn (ht : s.track = r :: rest) :
    s.retire.attn = if s.jobs.run = .draining ∧ rest = [] then (s.record r).attn.raise .runIdle
      else (s.record r).attn := by
  split
  · rename_i h
    obtain ⟨hr, rfl⟩ := h
    obtain ⟨-, hattn, -⟩ := s.retireHead.enterIdle_spec
    rw [State.retire_ends ht hr, hattn, State.retireHead_eq ht]
    rfl
  · rename_i h
    rw [State.retire_goesOn ht h, State.retireHead_eq ht]
    rfl

end

/-- Settles O47: the record is that of `State.record`, and the run goes on or enters IDLE. -/
theorem retirementWritesTheRecord : Obligations.RetirementWritesTheRecord := by
  intro s r rest ht slot ready ends
  have hexec : exec .retirementEvent s = if s.headReady then .next s.retire else .next s := rfl
  have hready : s.headReady = true ↔ ready := State.headReady_iff ht
  refine ⟨fun h => by rw [hexec, if_neg (fun hc => h (hready.1 hc))], fun h => ⟨_, by rw [hexec, if_pos (hready.2 h)], ?_⟩⟩
  obtain ⟨hmem, hrecords, htrack⟩ := State.retire_stored ht
  obtain ⟨hread, hfigures, -⟩ := State.record_spec r s
  obtain ⟨hwritten, holdest⟩ := State.record_words r s
  obtain ⟨hcauses, hquiet⟩ := State.record_attn r s
  have hattn := State.retire_attn ht
  have hslot : ∀ x, x < 128 → s.retire.mem.read (slot + x) = (s.recordBytes r r.row.toNat).getD x 0 := by
    intro x hx
    have hin : recordSlot r.row ≤ slot + x ∧ slot + x < recordSlot r.row + 128 :=
      ⟨Nat.le_add_right _ _, Nat.add_lt_add_left hx _⟩
    rw [hmem, hread, if_pos hin]
    exact congrArg (fun k => (s.recordBytes r r.row.toNat).getD k 0) (Nat.add_sub_cancel_left slot x)
  refine ⟨htrack, State.recordShown_of_bytes hslot, fun x hlo hhi => ?_, fun x hx => ?_, ?_, ?_, ?_, ?_, ?_,
    fun hl htal he => ?_, fun he => ?_, fun he => ?_, by simp [sameOutside]⟩
  · obtain ⟨k, rfl⟩ := Nat.exists_eq_add_of_le hlo
    rw [Nat.add_sub_cancel_left]
    exact hslot k (by omega)
  · have hrange := recordSlot_range r.row
    rw [show recordSlot r.row = slot from rfl] at hrange hread
    rw [hmem, hread, if_neg (by omega), if_neg (by omega), if_neg (by omega)]
  · rw [hrecords, hfigures]
  · rw [hmem, hwritten]
  · rw [hrecords, hfigures]
    rfl
  · rw [hmem, show (s.record r).mem.word 0x1C = _ from congrArg Prod.snd holdest]
    unfold oldestAfter
    split <;> rfl
  · intro k
    rw [hattn, ← or_assoc, ← or_assoc, or_assoc (b := k = .recordLapped ∧ _), ← hcauses k]
    split
    · rename_i he
      rw [Attention.raise_has, or_comm]
      simp [ends, he]
    · rename_i he
      simp [ends, he]
  · rw [hattn, if_neg he, hquiet hl htal]
  · obtain ⟨hr, rfl⟩ := he
    obtain ⟨hjobs, -⟩ := s.retireHead.enterIdle_spec
    rw [State.retire_ends ht hr]
    refine ⟨by simp [hjobs], s.retireHead.enterIdle_idleEntered.of_blocks ?_ ?_ ?_ ?_ ?_ ?_⟩ <;> simp
  · rw [State.retire_goesOn ht he]
    simp

end Sys2Proof.Machine
end

section
/-! The entry to DRAINING: each station in turn commits the last row where it waited for its successor alone, and opens
its throw where the last row has been struck and has ended. -/

namespace Sys2Proof.Machine

section
variable {s t u : State} {front : List RowCtx} {r q p : RowCtx} {st k : Fin 4} {e : StationEntry}

/-! ## The last row of a track -/

theorem numbered_last {last next : Word} (h : numbered last next (front ++ [r])) : r.row = last := by
  induction front with
  | nil => exact h.2.1
  | cons q front ih => exact ih (numbered_tail h)

theorem after?_isSome (n : Word) (h : ∃ q ∈ front, q.row = n) : (after? n (front ++ [r])).isSome = true := by
  induction front with
  | nil => simp at h
  | cons a front ih =>
    obtain ⟨b, l, hl⟩ : ∃ b l, front ++ [r] = b :: l := by cases front <;> simp
    rw [List.cons_append, hl, after?]
    split
    · rfl
    · rename_i hne
      rw [← hl]
      obtain ⟨q, hq, hrow⟩ := h
      rcases List.mem_cons.1 hq with rfl | hq
      · exact absurd hrow hne
      · exact ih ⟨q, hq, hrow⟩

/-! ## The commit that waited for a successor -/

/-- The last row waits at a station for its successor alone: every row before it is committed, and its commit point is
reached (R81). -/
def State.lastWaits (s : State) (front : List RowCtx) (r : RowCtx) (st : Fin 4) (e : StationEntry) : Prop :=
  (∀ q ∈ front, q.committedAt st = true) ∧ r.stations.get st = some e ∧ e.committed = false ∧ s.commitReached st e

theorem State.commitReached_iff (s : State) (st : Fin 4) (e : StationEntry) :
    atOrBeyond s.web (s.commitPoint st e) = true ↔ s.commitReached st e := by
  unfold State.commitPoint StationEntry.zoneStart State.commitReached atOrBeyond
  rw [moved_moved, ← Int.sub_eq_add_neg, decide_eq_true_eq]

/-- The oldest row not committed is one of the rows before the last, or the last where they are all committed. -/
theorem State.firstUncommitted_append (h : s.track = front ++ [r]) : s.firstUncommitted st =
    ((front.find? fun q => !q.committedAt st).or (if r.committedAt st then none else some r)) := by
  rw [State.firstUncommitted, h, List.find?_append, List.find?_singleton]
  cases r.committedAt st <;> rfl

/-- Which row is due for its commit at a station (R81). -/
theorem State.commitDue_iff : s.commitDue st = some p ↔ s.firstUncommitted st = some p ∧ s.activeAt st = true ∧
    ∃ e, p.stations.get st = some e ∧
      (e.commitOwed = true ∨ s.commitReached st e ∧ ((s.after? p.row).isSome = true ∨ s.jobs.run = .draining)) := by
  unfold State.commitDue
  cases hf : s.firstUncommitted st with
  | none => simp
  | some q =>
    simp only [Option.some.injEq]
    cases he : q.stations.get st with
    | none =>
      refine ⟨fun h => absurd h (by simp), ?_⟩
      rintro ⟨rfl, -, e, hp, -⟩
      rw [he] at hp
      cases hp
    | some e =>
      rw [Option.ite_none_right_eq_some]
      simp only [Bool.and_eq_true, Bool.or_eq_true, beq_iff_eq, State.commitReached_iff, Option.some.injEq]
      constructor
      · rintro ⟨⟨ha, hdue⟩, rfl⟩
        exact ⟨rfl, ha, e, he, hdue⟩
      · rintro ⟨rfl, ha, f, hf, hdue⟩
        obtain rfl := Option.some.inj (he.symm.trans hf)
        exact ⟨⟨ha, hdue⟩, rfl⟩

/-- The state `u` stands in the course of the entry to DRAINING that the run of `s` makes: of the rows of `s` the last,
`r`, alone has changed, to `q`, and in its entries alone. -/
structure drainingFrom (s : State) (front : List RowCtx) (r : RowCtx) (u : State) (q : RowCtx) : Prop where
  row : u.rowAt front [] q
  rest : r = { q with stations := r.stations, channels := r.channels }
  wpu : u.wpu = s.wpu
  cur : u.cur = s.cur
  run : u.jobs.run = .draining
  last : u.mark.lastOpened = r.row
  retired : u.lastRetired = s.lastRetired
  states : ∀ k, (u.station k).state = (s.station k).state

theorem drainingFrom.row_eq (h : drainingFrom s front r u q) : q.row = r.row := by rw [h.rest]

theorem drainingFrom.verdict_eq (h : drainingFrom s front r u q) : q.verdict = r.verdict := by rw [h.rest]

theorem drainingFrom.active (h : drainingFrom s front r u q) (k : Fin 4) : u.activeAt k = s.activeAt k := by
  rw [State.activeAt, h.states k, State.activeAt]

theorem drainingFrom.commitReached (h : drainingFrom s front r u q) (k : Fin 4) (e : StationEntry) :
    u.commitReached k e ↔ s.commitReached k e := by
  unfold State.commitReached State.web
  rw [h.wpu, State.pitch, State.plate_congr h.cur, State.pitch]

/-- What a station's turn leaves of the others. -/
structure drainsAt (k : Fin 4) (u : State) (q : RowCtx) (t : State) (p : RowCtx) : Prop where
  stations : ∀ j, j ≠ k → t.station j = u.station j ∧ p.stations.get j = q.stations.get j
  channels : ∀ c, u.chanStation c ≠ some k → t.channel c = u.channel c ∧ p.channels.get c = q.channels.get c
  attn : t.attn = u.attn ∨ t.attn = u.attn.raise .foilLate

/-- Where nothing was due before the entry to DRAINING, no row but the last is due in its course (R81). -/
theorem drainingFrom.commitDue_last (h : drainingFrom s front r u q) (hs : s.track = front ++ [r])
    (hnone : s.commitDue k = none) (hp : u.commitDue k = some p) : p = q ∧ ∀ a ∈ front, a.committedAt k = true := by
  obtain ⟨hfirst, ha, e, he, hdue⟩ := State.commitDue_iff.1 hp
  rw [State.firstUncommitted_append h.row.1] at hfirst
  cases hf : front.find? fun a => !a.committedAt k with
  | none =>
    rw [hf, Option.none_or, Option.ite_none_left_eq_some] at hfirst
    exact ⟨(Option.some.inj hfirst.2).symm, by simpa using hf⟩
  | some a =>
    rw [hf, Option.some_or] at hfirst
    obtain rfl := Option.some.inj hfirst
    have hafter : (s.after? a.row).isSome = true := by
      rw [State.after?, hs]
      exact after?_isSome _ ⟨a, List.mem_of_find?_eq_some hf, rfl⟩
    have hsdue : s.commitDue k = some a := State.commitDue_iff.2
      ⟨by rw [State.firstUncommitted_append hs, hf, Option.some_or], h.active k ▸ ha, e, he,
        hdue.imp id fun hc => ⟨(h.commitReached k e).1 hc.1, .inl hafter⟩⟩
    rw [hnone] at hsdue
    cases hsdue

/-- The last row is due at a station in the course of the entry exactly where it waited for its successor alone (R81,
R98). -/
theorem drainingFrom.commitDue_iff (h : drainingFrom s front r u q) (hs : s.track = front ++ [r])
    (hnone : s.commitDue k = none) (ha : s.activeAt k = true) (hq : q.stations.get k = r.stations.get k) :
    u.commitDue k = some q ↔ ∃ e, s.lastWaits front r k e := by
  have hfirst {t : State} {a : RowCtx} {e : StationEntry} (ht : t.track = front ++ [a]) (ha : a.stations.get k = some e)
      (hc : e.committed = false) (hall : ∀ b ∈ front, b.committedAt k = true) : t.firstUncommitted k = some a := by
    have hf : front.find? (fun b => !b.committedAt k) = none := by simpa using hall
    rw [State.firstUncommitted_append ht, hf, RowCtx.committedAt, ha]
    simp [hc]
  constructor
  · intro hdue
    obtain ⟨-, hall⟩ := h.commitDue_last hs hnone hdue
    obtain ⟨hf, -, e, he, howed⟩ := State.commitDue_iff.1 hdue
    have hc : e.committed = false := by
      have := List.find?_some hf
      simpa [RowCtx.committedAt, he] using this
    refine ⟨e, hall, hq ▸ he, hc, ?_⟩
    rcases howed with howed | ⟨hreach, -⟩
    · have hsdue : s.commitDue k = some r := State.commitDue_iff.2 ⟨hfirst hs (hq ▸ he) hc hall, ha, e, hq ▸ he, .inl howed⟩
      rw [hnone] at hsdue
      cases hsdue
    · exact (h.commitReached k e).1 hreach
  · rintro ⟨e, hall, he, hc, hreach⟩
    exact State.commitDue_iff.2 ⟨hfirst h.row.1 (hq.trans he) hc hall, h.active k ▸ ha, e, hq.trans he,
      .inr ⟨(h.commitReached k e).2 hreach, .inr h.run⟩⟩

/-! ## A turn -/

theorem State.commitAll_none (h : u.commitDue k = none) (n : Nat) : u.commitAll k n = u := by
  cases n with
  | zero => rfl
  | succ n => rw [State.commitAll, h]

/-- A commit in the course of the entry to DRAINING (R82, R86, R90, R91, R98). -/
theorem drainingFrom.commit (h : drainingFrom s front r u q) (he : q.stations.get k = some e) :
    ∃ charges, drainingFrom s front r (u.commit k q) (q.committedTo k e (u.decideOutcome k q e) charges) ∧
      drainsAt k u q (u.commit k q) (q.committedTo k e (u.decideOutcome k q e) charges) ∧
      (∀ c, handedOver u (u.commit k q) k q.row e.face (u.decideOutcome k q e) c (q.channels.get c) (charges.get c)) ∧
      committedThrow u (u.commit k q) k q.row (u.decideOutcome k q e) := by
  obtain ⟨charges, hrow, hover, hattn, hthrow⟩ := State.commit_spec h.row he
  have hother (j : Fin 4) (hj : j ≠ k) : (u.commit k q).station j = u.station j :=
    congrArg Prod.fst (State.atStation_commit (s := u) hj q)
  refine ⟨charges, ⟨hrow, ?_, by simp [h.wpu], by simp [h.cur], by simp [h.run], by simp [h.last], by simp [h.retired],
    fun j => ?_⟩, ⟨fun j hj => ⟨hother j hj, ?_⟩, fun c hc => ?_, hattn.imp_right And.right⟩, hover, hthrow⟩
  · rw [h.rest]
    rfl
  · by_cases hj : j = k
    · rw [hj, hthrow.state.1, h.states]
    · rw [hother j hj, h.states]
  · rw [RowCtx.committedTo, Four.get_set, if_neg hj]
  · exact (hover c).1 fun hs => hc hs.2.1

theorem drainingFrom.openThrow (h : drainingFrom s front r u q) (k : Fin 4) :
    drainingFrom s front r (u.openThrow k) q ∧ drainsAt k u q (u.openThrow k) q := by
  have hstation := u.openThrow_station k
  refine ⟨⟨h.row.congr (by simp), h.rest, by simp [h.wpu], by simp [h.cur], by simp [h.run], by simp [h.last],
    by simp [h.retired], fun j => ?_⟩, ⟨fun j hj => ⟨by rw [hstation, if_neg hj], rfl⟩,
    fun c _ => ⟨by simp [State.channel], rfl⟩, .inl (by simp)⟩⟩
  rw [hstation]
  split
  · rename_i hj
    rw [Station.openThrow_eq, hj, ← h.states k]
    split <;> rfl
  · exact h.states j

theorem drainingFrom.lastEnded (h : drainingFrom s front r u q) (k : Fin 4) : u.lastEnded k = q.endedStrike k := by
  rw [State.lastEnded, h.last, ← h.row_eq, h.row.row?]

theorem drainsAt.refl (k : Fin 4) (u : State) (q : RowCtx) : drainsAt k u q u q :=
  ⟨fun _ _ => ⟨rfl, rfl⟩, fun _ _ => ⟨rfl, rfl⟩, .inl rfl⟩

theorem drainsAt.trans {v : State} {a : RowCtx} (h : drainsAt k u q t p) (h' : drainsAt k t p v a) (hc : t.cur = u.cur) :
    drainsAt k u q v a := by
  refine ⟨fun j hj => ⟨(h'.stations j hj).1.trans (h.stations j hj).1, (h'.stations j hj).2.trans (h.stations j hj).2⟩,
    fun c hn => ?_, ?_⟩
  · obtain ⟨h1, h2⟩ := h.channels c hn
    obtain ⟨h3, h4⟩ := h'.channels c (by rwa [State.chanStation_congr hc])
    exact ⟨h3.trans h1, h4.trans h2⟩
  · rcases h.attn with ha | ha <;> rcases h'.attn with ha' | ha' <;> rw [ha', ha]
    · exact .inl rfl
    · exact .inr rfl
    · exact .inr rfl
    · exact .inr (Attention.raise_raise _ _)

/-- The throw opened after the last row, where it was struck and has ended (R91). -/
def State.drainThrow (k : Fin 4) (s : State) : State := if s.lastEnded k then s.openThrow k else s

theorem drainingFrom.drainThrow (h : drainingFrom s front r u q) (k : Fin 4) :
    drainingFrom s front r (u.drainThrow k) q ∧ drainsAt k u q (u.drainThrow k) q := by
  unfold State.drainThrow
  split
  · exact h.openThrow k
  · exact ⟨h, .refl _ _ _⟩

theorem State.drainStation_inactive (h : u.activeAt k = false) : u.drainStation k = u := by
  rw [State.drainStation, h]
  rfl

/-- A turn where the last row is due: its commit, and the throw (R98). -/
theorem drainingFrom.drainStation_due (h : drainingFrom s front r u q) (hs : s.track = front ++ [r])
    (hnone : s.commitDue k = none) (hdue : u.commitDue k = some q) :
    u.drainStation k = (u.commit k q).drainThrow k := by
  obtain ⟨-, hall⟩ := h.commitDue_last hs hnone hdue
  obtain ⟨-, ha, e, he, -⟩ := State.commitDue_iff.1 hdue
  obtain ⟨charges, hafter, -⟩ := h.commit he
  have hdone : (u.commit k q).commitDue k = none := by
    have hfirst : (u.commit k q).firstUncommitted k = none := by
      have hf : front.find? (fun a => !a.committedAt k) = none := by simpa using hall
      rw [State.firstUncommitted_append hafter.row.1, hf, RowCtx.committedTo]
      simp [RowCtx.committedAt]
    unfold State.commitDue
    rw [hfirst]
  have hlen : u.track.length = front.length + 1 := by rw [h.row.1, List.length_append, List.length_singleton]
  unfold State.drainStation
  rw [ha, if_pos rfl, hlen, State.commitAll, hdue]
  dsimp only
  rw [State.commitAll_none hdone]
  rfl

/-- A turn where no row is due: the throw alone (R91). -/
theorem State.drainStation_none (ha : u.activeAt k = true) (hdue : u.commitDue k = none) :
    u.drainStation k = u.drainThrow k := by
  unfold State.drainStation
  rw [ha, if_pos rfl, State.commitAll_none hdue]
  rfl

/-- A turn changes the last row alone, at its own station and at the channels that serve it. -/
theorem drainingFrom.turn (h : drainingFrom s front r u q) (hs : s.track = front ++ [r]) (hnone : s.commitDue k = none) :
    ∃ p, drainingFrom s front r (u.drainStation k) p ∧ drainsAt k u q (u.drainStation k) p := by
  by_cases ha : u.activeAt k = true
  · cases hdue : u.commitDue k with
    | none =>
      rw [State.drainStation_none ha hdue]
      exact ⟨q, h.drainThrow k⟩
    | some p =>
      obtain ⟨rfl, -⟩ := h.commitDue_last hs hnone hdue
      obtain ⟨-, -, e, he, -⟩ := State.commitDue_iff.1 hdue
      obtain ⟨charges, hafter, hacts, -⟩ := h.commit he
      obtain ⟨hthrow, hthrown⟩ := hafter.drainThrow k
      rw [h.drainStation_due hs hnone hdue]
      exact ⟨_, hthrow, hacts.trans hthrown (hafter.cur.trans h.cur.symm)⟩
  · rw [State.drainStation_inactive (by simpa using ha)]
    exact ⟨q, h, .refl _ _ _⟩

/-! ## What the entry to DRAINING does at one station -/

/-- Station `st`, its entry in the last row and the channels that serve it are still as the entry to DRAINING found
them. -/
def spared (st : Fin 4) (s : State) (r : RowCtx) (u : State) (q : RowCtx) : Prop :=
  u.station st = s.station st ∧ q.stations.get st = r.stations.get st ∧
    ∀ c, s.chanStation c = some st → u.channel c = s.channel c ∧ q.channels.get c = r.channels.get c

/-- What the entry to DRAINING does at an active station: the commit of the last row where it waited, and otherwise the
throw alone (R91, R98). -/
def stationDrained (s : State) (front : List RowCtx) (r : RowCtx) (st : Fin 4) (t : State) (q : RowCtx) : Prop :=
  (∀ e, s.lastWaits front r st e → ∃ o, s.decides st r e o ∧
    q.stations.get st = some { e with committed := true, outcome := some o } ∧
    (e.endTaken = false → committedThrow s t st r.row o) ∧
    ∀ c, s.chanStation c = some st →
      handedOver s t st r.row e.face o c (r.channels.get c) (q.channels.get c)) ∧
  ((∀ e, ¬ s.lastWaits front r st e) →
    let x := s.station st
    let opens := r.endedStrike st = true ∧ (x.throw = .closing ∨ x.throw = .on)
    q.stations.get st = r.stations.get st ∧
    (opens → t.station st = { x with throw := .opening, timer := (s.block st).throwOff, dwell := 0 }) ∧
    (¬ opens → t.station st = x) ∧
    ∀ c, s.chanStation c = some st → t.channel c = s.channel c ∧ q.channels.get c = r.channels.get c)

theorem drainsAt.spared (h : drainsAt k u q t p) (hcur : u.cur = s.cur) (hk : st ≠ k) (hsp : spared st s r u q) :
    spared st s r t p := by
  obtain ⟨hst, hentry, hch⟩ := hsp
  refine ⟨(h.stations st hk).1.trans hst, (h.stations st hk).2.trans hentry, fun c hc => ?_⟩
  obtain ⟨h1, h2⟩ := h.channels c (by rw [State.chanStation_congr hcur, hc]; simpa using hk)
  exact ⟨h1.trans (hch c hc).1, h2.trans (hch c hc).2⟩

theorem committedThrow.mono {n : Word} {o : RowOutcome} (h : committedThrow s u st n o)
    (hst : t.station st = u.station st) (hclose : t.closePointReached st = u.closePointReached st) :
    committedThrow s t st n o := by
  unfold committedThrow at *
  rwa [hst, hclose]

theorem drainingFrom.closePointReached (h : drainingFrom s front r u q) (h' : drainingFrom s front r t p)
    (hentry : p.stations.get st = q.stations.get st) : t.closePointReached st = u.closePointReached st := by
  refine State.closePointReached_of_entriesAt ?_ (h'.wpu.trans h.wpu.symm) (h'.cur.trans h.cur.symm)
  rw [State.entriesAt, State.entriesAt, h'.row.1, h.row.1]
  simp [hentry, h.row_eq, h'.row_eq]

/-- The turns of the other stations leave what a station's own turn has done. -/
theorem stationDrained.of_other (hd : stationDrained s front r st u q) (h : drainingFrom s front r u q)
    (h' : drainingFrom s front r t p) (hacts : drainsAt k u q t p) (hk : st ≠ k) : stationDrained s front r st t p := by
  obtain ⟨hstation, hentry⟩ := hacts.stations st hk
  have hch (c : Fin 8) (hc : s.chanStation c = some st) : t.channel c = u.channel c ∧ p.channels.get c = q.channels.get c :=
    hacts.channels c (by rw [State.chanStation_congr h.cur, hc]; simpa using hk)
  have hlate : u.attn.has .foilLate = true → t.attn.has .foilLate = true := by
    rcases hacts.attn with ha | ha <;> rw [ha]
    · exact id
    · exact fun hh => (Attention.raise_has _ _ _).2 (.inr hh)
  obtain ⟨hwaits, hrests⟩ := hd
  refine ⟨fun e hw => ?_, fun hno => ?_⟩
  · obtain ⟨o, hdec, he, hthrow, hover⟩ := hwaits e hw
    refine ⟨o, hdec, hentry.trans he, fun hend => (hthrow hend).mono hstation (h.closePointReached h' hentry),
      fun c hc => ?_⟩
    rw [(hch c hc).2]
    exact (hover c hc).mono (hch c hc).1 hlate
  · obtain ⟨he, hopens, hstays, hchannels⟩ := hrests hno
    exact ⟨hentry.trans he, fun ho => hstation.trans (hopens ho), fun ho => hstation.trans (hstays ho),
      fun c hc => ⟨(hch c hc).1.trans (hchannels c hc).1, (hch c hc).2.trans (hchannels c hc).2⟩⟩

/-- What a commit decides reads of the stations its own alone. -/
theorem State.decideOutcome_withStations (u : State) (x : Four Station) (hx : x.get st = u.station st) :
    (u.withStations x).decideOutcome st q e = u.decideOutcome st q e := by
  have hst : (u.withStations x).station st = u.station st := hx
  unfold State.decideOutcome
  rw [hst]
  rfl

/-- The outcome of the last row is the one that the state before the entry decides (R82). -/
theorem drainingFrom.decideOutcome (h : drainingFrom s front r u q) (hs : s.rowAt front [] r)
    (hst : u.station st = s.station st) : u.decideOutcome st q e = s.decideOutcome st r e := by
  rw [← State.decideOutcome_withStations u s.stations hst.symm]
  exact State.decideOutcome_congr hs (h.row.congr rfl) h.row_eq h.verdict_eq rfl ⟨rfl, rfl⟩ rfl h.wpu h.cur h.retired

/-- The throw of a commit in the course of the entry is that of a commit before it, since a close test asks for a run
RUNNING or DRAINING alone (R90). -/
theorem drainingFrom.committedThrow {o : RowOutcome} (h : drainingFrom s front r u q) (hs : s.rowAt front [] r)
    (hrun : s.jobs.run = .running) (hst : u.station st = s.station st) (hc : committedThrow u t st q.row o) :
    committedThrow s t st r.row o := by
  have hprev : u.previous? r.row = s.previous? r.row := State.previous?_congr hs h.row h.row_eq h.retired
  unfold Machine.committedThrow at *
  rw [h.row_eq, hst, hprev, State.block_congr h.cur, h.run] at hc
  rw [hrun]
  simpa using hc

/-- The same of the handover to a channel that serves the station. -/
theorem drainingFrom.handedOver {o : RowOutcome} {c : Fin 8} {before later : Option ChannelEntry}
    (h : drainingFrom s front r u q) (hch : u.channel c = s.channel c)
    (hc : handedOver u t st q.row e.face o c before later) : handedOver s t st r.row e.face o c before later := by
  unfold Machine.handedOver at *
  rwa [h.row_eq, hch, State.chanStation_congr h.cur, State.formStrokes_congr hch h.cur, h.wpu] at hc

/-- A station's own turn (R91, R98). -/
theorem drainingFrom.turn_own (h : drainingFrom s front r u q) (hs : s.rowAt front [] r) (hnone : s.commitDue st = none)
    (hrun : s.jobs.run = .running) (ha : s.activeAt st = true) (hsp : spared st s r u q) :
    ∃ p, drainingFrom s front r (u.drainStation st) p ∧ stationDrained s front r st (u.drainStation st) p := by
  obtain ⟨hst, hentry, hch⟩ := hsp
  have hdue := h.commitDue_iff hs.1 hnone ha hentry
  by_cases hw : ∃ e, s.lastWaits front r st e
  · rw [h.drainStation_due hs.1 hnone (hdue.2 hw)]
    obtain ⟨e, hw⟩ := hw
    have he := hw.2.1
    obtain ⟨charges, hafter, -, hover, hthrow⟩ := h.commit (hentry.trans he)
    rw [h.decideOutcome hs hst] at hafter hover hthrow
    obtain ⟨hthrown, -⟩ := hafter.drainThrow st
    refine ⟨_, hthrown, fun f hf => ?_, fun hno => absurd hw (hno e)⟩
    obtain rfl := Option.some.inj (he.symm.trans hf.2.1)
    refine ⟨_, s.decides_decideOutcome st r e, by simp [RowCtx.committedTo], fun hend => ?_, fun c hc => ?_⟩
    · have hnot : (u.commit st q).lastEnded st = false := by
        rw [hafter.lastEnded]
        simp [RowCtx.endedStrike, RowCtx.committedTo, hend]
      rw [State.drainThrow, hnot]
      exact h.committedThrow hs hrun hst hthrow
    · have hsame : ∀ v, v = (u.commit st q).drainThrow st →
          v.channel c = (u.commit st q).channel c ∧ v.attn = (u.commit st q).attn := by
        rintro v rfl
        unfold State.drainThrow
        split <;> simp [State.channel]
      obtain ⟨hchannel, hattn⟩ := hsame _ rfl
      rw [← (hch c hc).2]
      exact h.handedOver (hch c hc).1 ((hover c).mono hchannel (by rw [hattn]; exact id))
  · have hnodue : u.commitDue st = none := Option.eq_none_iff_forall_ne_some.2 fun p hp => by
      obtain ⟨rfl, -⟩ := h.commitDue_last hs.1 hnone hp
      exact hw (hdue.1 hp)
    rw [State.drainStation_none (h.active st ▸ ha) hnodue]
    obtain ⟨hthrown, -⟩ := h.drainThrow st
    refine ⟨q, hthrown, fun e he => absurd ⟨e, he⟩ hw, fun _ => ?_⟩
    have hended : u.lastEnded st = r.endedStrike st := by
      rw [h.lastEnded, RowCtx.endedStrike, hentry, RowCtx.endedStrike]
    have hstation : (u.drainThrow st).station st =
        if r.endedStrike st = true then (s.station st).openThrow (s.block st).throwOff else s.station st := by
      unfold State.drainThrow
      rw [hended]
      split
      · rw [State.openThrow_station, if_pos rfl, hst, State.block_congr h.cur]
      · exact hst
    have hchannels (c : Fin 8) : (u.drainThrow st).channel c = u.channel c := by
      unfold State.drainThrow
      split <;> simp [State.channel]
    refine ⟨hentry, fun ho => ?_, fun ho => ?_, fun c hc => ⟨(hchannels c).trans (hch c hc).1, (hch c hc).2⟩⟩
    · rw [hstation, if_pos ho.1, Station.openThrow_eq, if_pos ho.2]
    · rw [hstation]
      split
      · rename_i hr
        rw [Station.openThrow_eq, if_neg fun hx => ho ⟨hr, hx⟩]
      · rfl

/-! ## The turns of all stations -/

/-- The entry to DRAINING as a whole, where no commit was due before it: `s` is the state before it and `u` the state
in which the stations take their turns. -/
theorem drainingFrom.turns (h : drainingFrom s front r u r) (hs : s.rowAt front [] r) (hst : u.stations = s.stations)
    (hch : u.channels = s.channels) (hattn : u.attn = s.attn) (hnone : ∀ k, s.commitDue k = none)
    (hrun : s.jobs.run = .running) :
    ∃ q, drainingFrom s front r (forStations State.drainStation u) q ∧
      ((forStations State.drainStation u).attn = s.attn ∨
        (forStations State.drainStation u).attn = s.attn.raise .foilLate) ∧
      (∀ st, s.activeAt st = false → spared st s r (forStations State.drainStation u) q) ∧
      (∀ c, (∀ st, s.chanStation c = some st → s.activeAt st = false) →
        (forStations State.drainStation u).channel c = s.channel c ∧ q.channels.get c = r.channels.get c) ∧
      ∀ st, s.activeAt st = true → stationDrained s front r st (forStations State.drainStation u) q := by
  have hspared (st : Fin 4) : spared st s r u r :=
    ⟨by rw [State.station, hst, State.station], rfl, fun c _ => ⟨by rw [State.channel, hch, State.channel], rfl⟩⟩
  obtain ⟨q, hq, hqattn⟩ : ∃ q, drainingFrom s front r (forStations State.drainStation u) q ∧
      ((forStations State.drainStation u).attn = s.attn ∨
        (forStations State.drainStation u).attn = s.attn.raise .foilLate) := by
    refine forStations_induct (P := fun v => ∃ q, drainingFrom s front r v q ∧
      (v.attn = s.attn ∨ v.attn = s.attn.raise .foilLate)) (fun k v ⟨q, hq, ha⟩ => ?_) ⟨r, h, .inl hattn⟩
    obtain ⟨p, hp, hacts⟩ := hq.turn hs.1 (hnone k)
    refine ⟨p, hp, ?_⟩
    rcases ha with ha | ha <;> rcases hacts.attn with ha' | ha' <;> rw [ha', ha]
    · exact .inl rfl
    · exact .inr rfl
    · exact .inr rfl
    · exact .inr (Attention.raise_raise _ _)
  have hsame {p : RowCtx} (hp : drainingFrom s front r (forStations State.drainStation u) p) : p = q := hp.row.unique hq.row
  refine ⟨q, hq, hqattn, fun st hi => ?_, fun c hc => ?_, fun st ha => ?_⟩
  · obtain ⟨p, hp, hsp⟩ := forStations_induct (P := fun v => ∃ q, drainingFrom s front r v q ∧ spared st s r v q)
      (f := State.drainStation) (s := u) (fun k v ⟨q, hq, hsp⟩ => by
        by_cases hk : st = k
        · rw [← hk, State.drainStation_inactive (hq.active st ▸ hi)]
          exact ⟨q, hq, hsp⟩
        · obtain ⟨p, hp, hacts⟩ := hq.turn hs.1 (hnone k)
          exact ⟨p, hp, hacts.spared hq.cur hk hsp⟩) ⟨r, h, hspared st⟩
    rwa [hsame hp] at hsp
  · obtain ⟨p, hp, hsp⟩ := forStations_induct (P := fun v => ∃ q, drainingFrom s front r v q ∧
        v.channel c = s.channel c ∧ q.channels.get c = r.channels.get c)
      (f := State.drainStation) (s := u) (fun k v ⟨q, hq, hsp⟩ => by
        by_cases hk : s.chanStation c = some k
        · rw [State.drainStation_inactive (hq.active k ▸ hc k hk)]
          exact ⟨q, hq, hsp⟩
        · obtain ⟨p, hp, hacts⟩ := hq.turn hs.1 (hnone k)
          obtain ⟨h1, h2⟩ := hacts.channels c (by rwa [State.chanStation_congr hq.cur])
          exact ⟨p, hp, h1.trans hsp.1, h2.trans hsp.2⟩) ⟨r, h, by rw [State.channel, hch, State.channel], rfl⟩
    rwa [hsame hp] at hsp
  · obtain ⟨p, hp, hd⟩ := forStations_at (f := State.drainStation) st
      (P := fun v => ∃ q, drainingFrom s front r v q ∧ spared st s r v q)
      (Q := fun v => ∃ q, drainingFrom s front r v q ∧ stationDrained s front r st v q)
      (fun k v hk ⟨q, hq, hsp⟩ =>
        let ⟨p, hp, hacts⟩ := hq.turn hs.1 (hnone k)
        ⟨p, hp, hacts.spared hq.cur hk.symm hsp⟩)
      (fun v ⟨q, hq, hsp⟩ => hq.turn_own hs (hnone st) hrun ha hsp)
      (fun k v hk ⟨q, hq, hd⟩ =>
        let ⟨p, hp, hacts⟩ := hq.turn hs.1 (hnone k)
        ⟨p, hp, hd.of_other hq hp hacts hk.symm⟩) (s := u) ⟨r, h, hspared st⟩
    rwa [hsame hp] at hd

/-- The last row of a track whose rows are numbered consecutively stands there alone under its number. -/
theorem State.trackOk.lastRow (hok : s.trackOk) (h : s.track = front ++ [r]) :
    s.rowAt front [] r ∧ s.mark.lastOpened = r.row := by
  refine ⟨⟨h, fun q hq => ?_⟩, ?_⟩
  · have hpair := hok.pairwise_rows
    rw [h, List.pairwise_append] at hpair
    exact hpair.2.2 q (by simpa using hq) r (by simp)
  · obtain ⟨-, -, hnum⟩ := hok
    rw [h] at hnum
    exact (numbered_last hnum).symm

end

section
variable {s t : State} {st : Fin 4}

/-- The last row and the stations read through a completion as before it. -/
theorem stationDrained.complete {front : List RowCtx} {r q : RowCtx}
    (h : stationDrained s front r st t q) (x : CmdResult) : stationDrained s front r st (t.complete x) q := by
  obtain ⟨hwaits, hrests⟩ := h
  refine ⟨fun e he => ?_, hrests⟩
  obtain ⟨o, hdec, hentry, hthrow, hover⟩ := hwaits e he
  exact ⟨o, hdec, hentry, hthrow, fun c hc => (hover c hc).mono rfl fun hl => (Attention.raise_has _ _ _).2 (.inr hl)⟩

/-- What the turns of the stations leave as it was. -/
theorem State.drainStations_frame (u : State) : (forStations State.drainStation u).engine = u.engine ∧
    (forStations State.drainStation u).jobs = u.jobs ∧ (forStations State.drainStation u).mark = u.mark ∧
    (forStations State.drainStation u).track.map RowCtx.row = u.track.map RowCtx.row ∧
    (forStations State.drainStation u).wpu = u.wpu ∧ (forStations State.drainStation u).cylGens = u.cylGens ∧
    (forStations State.drainStation u).foilGens = u.foilGens ∧ sameMemory u (forStations State.drainStation u) ∧
    (forStations State.drainStation u).store = u.store ∧
    (forStations State.drainStation u).generation = u.generation ∧
    (forStations State.drainStation u).freeCount = u.freeCount ∧
    (forStations State.drainStation u).pending = u.pending := by
  have hrows : (forStations State.drainStation u).rows = u.rows := by simp [forStations]
  refine ⟨?_, ?_, ?_, State.map_row_of_rows hrows, ?_, ?_, ?_, ⟨?_, ?_⟩, ?_, ?_, ?_, ?_⟩ <;> simp [forStations]

theorem State.activeAt_eq_false : s.activeAt st = false ↔ (s.station st).state = .inactive := by
  simp [State.activeAt]

/-- An entry to IDLE acts on what the acceptance of a command finds (R179). -/
theorem idleEntered_accepted (c : BitVec 8) (a : BitVec 16) : idleEntered (s.accepted c a) t ↔ idleEntered s t := Iff.rfl

theorem idleEntered.complete (h : idleEntered s t) (x : CmdResult) : idleEntered s (t.complete x) := h

end

/-- Settles O14: from a state with no row on the track the command is the entry to IDLE, and from RUNNING with rows it is
the entry to DRAINING, a turn for each station. -/
theorem endRunByRunState : Obligations.EndRunByRunState := by
  intro arg s hfree
  have hexec := exec_endRun s arg hfree
  refine ⟨fun hidle => ?_, fun hrun hrows => ?_⟩
  · have hend : (s.accepted 3 arg).endRun = ((s.accepted 3 arg).enterIdle, .ok) := by
      unfold State.endRun
      rcases hidle with hr | hr | ⟨hr, ht⟩ <;> simp_all
    rw [hend] at hexec
    obtain ⟨hjobs, hattn, -⟩ := (s.accepted 3 arg).enterIdle_spec
    have hin := (idleEntered_accepted 3 arg).1 (s.accepted 3 arg).enterIdle_idleEntered
    refine ⟨_, hexec, by simp; rfl, ?_, ?_, hin.complete .ok, ?_, by simp, by simp, by simp, by simp⟩
    · rw [(State.complete_frame _ _).2.2.2.2.2.2.2.2.1, hjobs]
      rfl
    · exact congrArg (·.raise .cmdDone) hattn
    · simp [sameMemory]
  · have hend : (s.accepted 3 arg).endRun = ((s.accepted 3 arg).enterDraining, .ok) := by
      unfold State.endRun
      simp [hrun, hrows]
    obtain ⟨u, hu⟩ : ∃ u, u = ((s.accepted 3 arg).withJobs { s.jobs with run := .draining }).withMark
      { s.mark with expected := none } := ⟨_, rfl⟩
    obtain ⟨v, hv⟩ : ∃ v, v = forStations State.drainStation u := ⟨_, rfl⟩
    have hdrain : (s.accepted 3 arg).enterDraining = v := by rw [hv, hu]; rfl
    rw [hend, hdrain] at hexec
    obtain ⟨hengine, hjobs, hmark, hnum, hwpu, hcyl, hfoil, ⟨hmem, hrecords⟩, hstore, hgen, hcount, hpend⟩ :=
      hv ▸ u.drainStations_frame
    refine ⟨_, hexec, ?_, ?_, ?_, ?_, ?_, ?_, ?_, ?_, ⟨?_, ?_⟩, ?_, ?_, ?_, ?_, fun front r ht hok hnone => ?_⟩
    · simp only [State.complete_frame, hengine, hu]
      rfl
    · simp only [State.complete_frame, hjobs, hu]
      rfl
    · simp only [State.complete_frame, hmark, hu]
      rfl
    · simp only [State.complete_frame, hnum, hu]
      rfl
    · exact (Attention.raise_has _ _ _).2 (.inl rfl)
    · simp [hwpu, hu]
    · simp [hcyl, hu]
    · simp [hfoil, hu]
    · simp [hmem, hu]
    · simp [hrecords, hu]
    · simp [hstore, hu]
    · simp [hgen, hu]
    · simp [hcount, hu]
    · simp [hpend, hu]
    · obtain ⟨hs, hlast⟩ := hok.lastRow ht
      have hfrom : drainingFrom s front r u r :=
        ⟨hs.congr (by simp [hu]), rfl, by simp [hu], by rw [hu]; rfl, by simp [hu], by simp [hu, hlast], by simp [hu],
          fun k => by rw [hu]; rfl⟩
      obtain ⟨q, hq, hattn, hinactive, hchannels, hactive⟩ :=
        hfrom.turns hs (by simp [hu]) (by simp [hu]) (by simp [hu]) hnone hrun
      rw [← hv] at hq hattn hinactive hchannels hactive
      refine ⟨q, by simpa using hq.row.1, hq.rest, ?_, fun st hi => ?_, fun c hc => ?_, fun st ha => ?_⟩
      · exact hattn.imp (fun h => by simp [h]) fun h => by simp [h]
      · obtain ⟨hst, hentry, -⟩ := hinactive st (State.activeAt_eq_false.2 hi)
        exact ⟨hst, hentry⟩
      · exact hchannels c fun st hst => State.activeAt_eq_false.2 (hc st hst)
      · exact (hactive st (by simpa [State.activeAt] using ha)).complete .ok

end Sys2Proof.Machine
end

section
/-! A count with no row expected: the channels, the stations and the lanes act in it as they do otherwise, since none of
them reads the expected position (R5, R20). -/

namespace Sys2Proof.Machine

/-- The state with no row expected. -/
def State.unexpecting (s : State) : State := s.withMark { s.mark with expected := none }

/-- An action goes the same way with no row expected. -/
abbrev State.unheeding (f : State → State) : Prop := ∀ s : State, f s.unexpecting = (f s).unexpecting

section
variable {s : State} {st : Fin 4} {c : Fin 8} {l : Fin 4} {n : Word}

/-! ## What is read and written -/

/-- The parts of the state. -/
@[simp] theorem State.unexpecting_parts (s : State) :
    s.unexpecting.wpu = s.wpu ∧ s.unexpecting.web = s.web ∧ s.unexpecting.jobs = s.jobs ∧ s.unexpecting.cur = s.cur ∧
      s.unexpecting.job = s.job ∧ s.unexpecting.track = s.track ∧ s.unexpecting.mark.windows = s.mark.windows ∧
      s.unexpecting.mark.lastOpened = s.mark.lastOpened ∧ s.unexpecting.moving = s.moving ∧
      (∀ st, s.unexpecting.station st = s.station st) ∧ (∀ c, s.unexpecting.channel c = s.channel c) ∧
      (∀ st, s.unexpecting.block st = s.block st) ∧ (∀ c, s.unexpecting.chanStation c = s.chanStation c) ∧
      (∀ st, s.unexpecting.activeAt st = s.activeAt st) ∧ (∀ n, s.unexpecting.row? n = s.row? n) ∧
      (∀ n, s.unexpecting.after? n = s.after? n) ∧ ∀ st n, s.unexpecting.previousEnded st n = s.previousEnded st n :=
  ⟨rfl, rfl, rfl, rfl, rfl, rfl, rfl, rfl, rfl, fun _ => rfl, fun _ => rfl, fun _ => rfl, fun _ => rfl, fun _ => rfl,
    fun _ => rfl, fun _ => rfl, fun _ _ => rfl⟩

/-- What the channels compute. -/
@[simp] theorem State.unexpecting_foil (s : State) :
    (∀ c, s.unexpecting.watched c = s.watched c) ∧ (∀ c, s.unexpecting.rampNow c = s.rampNow c) ∧
      (∀ c p, s.unexpecting.startPoint c p = s.startPoint c p) ∧ (∀ c k, s.unexpecting.syncStart c k = s.syncStart c k) ∧
      (∀ c k, s.unexpecting.syncEnd c k = s.syncEnd c k) ∧ (∀ c x y, s.unexpecting.gap c x y = s.gap c x y) ∧
      ∀ c n, s.unexpecting.formStrokes c n = s.formStrokes c n :=
  ⟨fun _ => rfl, fun _ => rfl, fun _ _ => rfl, fun _ _ => rfl, fun _ _ => rfl, fun _ _ _ => rfl, fun _ _ => rfl⟩

/-- What the stations and the lanes compute. -/
@[simp] theorem State.unexpecting_stations (s : State) :
    (∀ st, s.unexpecting.closeDue st = s.closeDue st) ∧ (∀ st e, s.unexpecting.commitPoint st e = s.commitPoint st e) ∧
      (∀ st k, s.unexpecting.driftTicks st k = s.driftTicks st k) ∧
      (∀ st, s.unexpecting.driftModulus st = s.driftModulus st) ∧
      (∀ st r e, s.unexpecting.decideOutcome st r e = s.decideOutcome st r e) ∧
      (∀ st r e, s.unexpecting.measure st r e = s.measure st r e) ∧
      (∀ st r e, s.unexpecting.decideTrim st r e = s.decideTrim st r e) ∧ ∀ w, s.unexpecting.laneEnd w = s.laneEnd w :=
  ⟨fun _ => rfl, fun _ _ => rfl, fun _ _ => rfl, fun _ => rfl, fun _ _ _ => rfl, fun _ _ _ => rfl, fun _ _ _ => rfl,
    fun _ => rfl⟩

/-- The writes. -/
@[simp] theorem State.unexpecting_writes (s : State) :
    (∀ x, s.unexpecting.withWpu x = (s.withWpu x).unexpecting) ∧
      (∀ x, s.unexpecting.withTrack x = (s.withTrack x).unexpecting) ∧
      (∀ a, s.unexpecting.raise a = (s.raise a).unexpecting) ∧
      (∀ a x, s.unexpecting.raiseStop a x = (s.raiseStop a x).unexpecting) ∧
      (∀ st x, s.unexpecting.setStation st x = (s.setStation st x).unexpecting) ∧
      (∀ st x, s.unexpecting.setState st x = (s.setState st x).unexpecting) ∧
      (∀ c x, s.unexpecting.setChannel c x = (s.setChannel c x).unexpecting) ∧
      (∀ st f, s.unexpecting.mapEntries st f = (s.mapEntries st f).unexpecting) ∧
      (∀ st n f, s.unexpecting.mapEntry st n f = (s.mapEntry st n f).unexpecting) ∧
      (∀ c n f, s.unexpecting.mapCharge c n f = (s.mapCharge c n f).unexpecting) ∧
      (∀ l w, s.unexpecting.laneMissing l w = (s.laneMissing l w).unexpecting) ∧
      ∀ st k, s.unexpecting.deliverCylinder st k = (s.deliverCylinder st k).unexpecting :=
  ⟨fun _ => rfl, fun _ => rfl, fun _ => rfl, fun _ _ => rfl, fun _ _ => rfl, fun _ _ => rfl, fun _ _ => rfl,
    fun _ _ => rfl, fun _ _ _ => rfl, fun _ _ _ => rfl, fun _ _ => rfl, fun _ _ => rfl⟩

/-- A choice between two actions that go the same way does so too. -/
@[simp] theorem State.unexpecting_ite (b : Prop) [Decidable b] (u v : State) :
    (if b then u.unexpecting else v.unexpecting) = (if b then u else v).unexpecting :=
  (apply_ite State.unexpecting b u v).symm

theorem forStations_unheeding {f : Fin 4 → State → State} (h : ∀ st, State.unheeding (f st)) :
    State.unheeding (forStations f) := fun s => by simp only [forStations, h _ _]

theorem forChannels_unheeding {f : Fin 8 → State → State} (h : ∀ c, State.unheeding (f c)) :
    State.unheeding (forChannels f) := fun s => by simp only [forChannels, h _ _]

theorem forLanes_unheeding {f : Fin 4 → State → State} (h : ∀ l, State.unheeding (f l)) :
    State.unheeding (forLanes f) := fun s => by simp only [forLanes, h _ _]

/-! ## The channels -/

@[simp] theorem State.foilTick_unheeding (c : Fin 8) : State.unheeding (State.foilTick c) := fun s => by
  have hcharge (u : State) (row : Option Word) : u.unexpecting.chargeTo c row = (u.chargeTo c row).unexpecting := by
    cases row <;> rfl
  have hdeliver : s.unexpecting.deliverTick c = (s.deliverTick c).unexpecting := rfl
  simp [State.foilTick_eq, hdeliver, hcharge, State.noteFoil]

@[simp] theorem State.foilMotion_unheeding (c : Fin 8) : State.unheeding (State.foilMotion c) := fun s => by
  simp [State.foilMotion]

@[simp] theorem State.markLate_unheeding (c : Fin 8) (n : Word) : State.unheeding (State.markLate c n) := fun s => by
  simp [State.markLate]

@[simp] theorem State.tryRampUp_unheeding (c : Fin 8) (h : Pos) : State.unheeding (State.tryRampUp c h) := fun s => by
  simp only [State.tryRampUp, State.unexpecting_parts, State.unexpecting_foil, State.unexpecting_writes,
    State.markLate_unheeding, State.unexpecting_ite]
  split
  · split <;> rfl
  · rfl

@[simp] theorem State.strokeEnd_unheeding (c : Fin 8) (h : Pos) (x : Stroke) : State.unheeding (State.strokeEnd c h x) :=
  fun s => by
    unfold State.strokeEnd
    cases hk : (s.channel c).strokes <;> simp [hk, State.hop, State.merge]

@[simp] theorem State.strokeEnds_unheeding (c : Fin 8) (h : Pos) (k : Nat) : State.unheeding (State.strokeEnds c h k) := by
  induction k with
  | zero => exact fun _ => rfl
  | succ k ih =>
    intro s
    simp only [State.strokeEnds, State.unexpecting_parts, State.unexpecting_foil, State.strokeEnd_unheeding, ih,
      State.unexpecting_ite]
    split <;> rfl

@[simp] theorem State.syncActions_unheeding (c : Fin 8) (h : Pos) : State.unheeding (State.syncActions c h) := fun s => by
  have hgap : s.unexpecting.mergeGapEnd c h = (s.mergeGapEnd c h).unexpecting := by
    unfold State.mergeGapEnd
    cases hk : (s.channel c).current <;> simp [hk]
  simp [State.syncActions, hgap]

@[simp] theorem State.webTick_unheeding (c : Fin 8) (h : Pos) : State.unheeding (State.webTick c h) := fun s => by
  unfold State.webTick
  rw [State.foilMotion_unheeding]
  generalize s.foilMotion c = s
  unfold State.foilActions
  cases hx : (s.channel c).state <;> simp [hx, State.rampUpEnd, State.rampDownEnd]

@[simp] theorem State.webTicks_unheeding (c : Fin 8) (k : Nat) (h : Pos) : State.unheeding (State.webTicks c k h) := by
  induction k generalizing h with
  | zero => exact fun _ => rfl
  | succ k ih => exact fun s => by simp [State.webTicks, ih]

theorem State.foilAdvance_unheeding (h : Pos) (k : Nat) (c : Fin 8) : State.unheeding (State.foilAdvance h k c) :=
  fun s => by simp [State.foilAdvance]

theorem State.foilRecheck_unheeding (c : Fin 8) : State.unheeding (State.foilRecheck c) := fun s => by
  unfold State.foilRecheck
  cases hx : (s.channel c).state <;> simp [hx]

theorem State.withdraw_unheeding (n : Word) (c : Fin 8) : State.unheeding (State.withdraw n c) := fun s => by
  simp [State.withdraw]

theorem State.handover_unheeding (n : Word) (c : Fin 8) : State.unheeding (State.handover n c) := fun s => by
  simp [State.handover]

theorem State.serving_unheeding {f : Fin 8 → State → State} (st : Fin 4) (h : ∀ c, State.unheeding (f c)) :
    State.unheeding (State.serving st f) := fun s => by
  have hturn (c : Fin 8) :
      State.unheeding fun u => if u.chanStation c = some st ∧ (u.channel c).state ≠ .idle then f c u else u :=
    fun u => by simp [h c u]
  unfold State.serving
  exact forChannels_unheeding hturn s

/-! ## The stations -/

@[simp] theorem State.openThrow_unheeding (st : Fin 4) : State.unheeding (State.openThrow st) := fun s => by
  simp [State.openThrow]

@[simp] theorem State.closeTest_unheeding (st : Fin 4) : State.unheeding (State.closeTest st) := fun s => by
  simp [State.closeTest]

@[simp] theorem State.latchCommits_unheeding (st : Fin 4) : State.unheeding (State.latchCommits st) := fun s => by
  simp [State.latchCommits]

@[simp] theorem State.shiftRows_unheeding (st : Fin 4) (k : Int) (moves : RowCtx → Bool) :
    State.unheeding (State.shiftRows st k moves) := fun s => by
  simp [State.shiftRows, State.serving_unheeding st State.foilRecheck_unheeding _]

@[simp] theorem State.drift_unheeding (st : Fin 4) (amount : Int) : State.unheeding (State.drift st amount) := fun s => by
  have hticks (dir : Int) (waiting : List Word) (k : Nat) : State.unheeding (State.tickShifts st dir waiting k) := by
    induction k with
    | zero => exact fun _ => rfl
    | succ k ih => exact fun u => by simp [State.tickShifts, ih _]
  simp [State.drift_eq, hticks _ _ _ _]

@[simp] theorem State.commit_unheeding (st : Fin 4) (r : RowCtx) : State.unheeding (State.commit st r) := fun s => by
  cases he : r.stations.get st with
  | none => simp [State.commit, he]
  | some e =>
    have hmark (o : RowOutcome) : s.unexpecting.markCommitted st r.row o = (s.markCommitted st r.row o).unexpecting := rfl
    simp [State.commit_eq _ he, hmark, State.serving_unheeding st (State.handover_unheeding r.row) _]

@[simp] theorem State.zoneStartEvent_unheeding (st : Fin 4) (n : Word) : State.unheeding (State.zoneStartEvent st n) :=
  fun s => by
    have hoverdue (u : State) : u.unexpecting.overdueCommit st n = (u.overdueCommit st n).unexpecting := by
      unfold State.overdueCommit
      cases hr : u.row? n <;> simp [hr]
    simp [State.zoneStartEvent_eq, hoverdue]

@[simp] theorem State.applyTrim_unheeding (st : Fin 4) (trim : Int) : State.unheeding (State.applyTrim st trim) := fun s => by
  have hdelivered : s.unexpecting.trimDelivered st trim = (s.trimDelivered st trim).unexpecting := rfl
  have hshift (u : State) : u.unexpecting.shift st (-trim) = (u.shift st (-trim)).unexpecting :=
    State.shiftRows_unheeding st _ _ u
  simp [State.applyTrim_eq, hdelivered, hshift]

@[simp] theorem State.leaveFor_unheeding (st : Fin 4) (x : StationState) : State.unheeding (State.leaveFor st x) := fun s => by
  have hrows (rows : List Word) : State.unheeding (State.withdrawRows st rows) := by
    induction rows with
    | nil => exact fun _ => rfl
    | cons n rows ih =>
      exact fun u => by
        rw [State.withdrawRows_cons, State.serving_unheeding st (State.withdraw_unheeding n), ih, State.withdrawRows_cons]
  simp [State.leaveFor, State.departure_eq, hrows _ _]

@[simp] theorem State.bandCheck_unheeding (st : Fin 4) (r : RowCtx) (error : Option Int) :
    State.unheeding (State.bandCheck st r error) := fun s => by
  unfold State.bandCheck
  cases error with
  | none => rfl
  | some e => cases hx : (s.station st).state <;> simp [hx]

@[simp] theorem State.zoneEndEvent_unheeding (st : Fin 4) (n : Word) : State.unheeding (State.zoneEndEvent st n) := fun s => by
  have hwrite (u : State) (error : Option Int) (trim : Int) :
      u.unexpecting.writeRegistration st n error trim = (u.writeRegistration st n error trim).unexpecting := by
    cases error <;> rfl
  have hopen (u : State) : u.unexpecting.openAtEnd st n = (u.openAtEnd st n).unexpecting := by
    unfold State.openAtEnd
    cases hr : u.row? n <;> simp [hr]
  unfold State.zoneEndEvent
  cases hr : s.row? n with
  | none => simp [hr]
  | some r => cases he : r.stations.get st <;> simp [hr, he, hwrite, hopen]

theorem State.zoneEvents_unheeding (st : Fin 4) (k : Nat) : State.unheeding (State.zoneEvents st k) := by
  induction k with
  | zero => exact fun _ => rfl
  | succ k ih =>
    intro s
    cases hf : s.track.find? fun r => r.eventDueAt st with
    | none => rw [State.zoneEvents_none hf, State.zoneEvents_none (s := s.unexpecting) hf]
    | some r =>
      have hevent : s.unexpecting.zoneEvent st r = (s.zoneEvent st r).unexpecting := by simp [State.zoneEvent]
      rw [State.zoneEvents_some hf, State.zoneEvents_some (s := s.unexpecting) hf, hevent, ih]

theorem State.stationWeb_unheeding (p : Pos) (delta : Int) (st : Fin 4) : State.unheeding (State.stationWeb p delta st) :=
  fun s => by
    by_cases h : s.activeAt st = true
    · have hdriven : s.unexpecting.webDriven p delta st = (s.webDriven p delta st).unexpecting := by simp [State.webDriven]
      have hrun (u : State) : u.unexpecting.runZoneEvents st = (u.runZoneEvents st).unexpecting :=
        State.zoneEvents_unheeding st _ u
      rw [State.stationWeb_of_active h, State.stationWeb_of_active (s := s.unexpecting) h, hdriven, hrun,
        State.closeTest_unheeding]
    · unfold State.stationWeb
      rw [if_neg h, if_neg (show ¬ s.unexpecting.activeAt st = true from h)]

/-! ## The web position change -/

theorem State.webMoved_unheeding (p : Pos) : State.unheeding (State.webMoved p) := fun s => by
  unfold State.webMoved
  simp only [State.unexpecting_parts, State.unexpecting_writes]
  rw [forChannels_unheeding fun c => State.foilAdvance_unheeding _ _ c,
    forStations_unheeding fun st => State.stationWeb_unheeding p _ st]

theorem State.closeLanes_unheeding (p : Pos) : State.unheeding (forLanes (State.closeLane p)) :=
  forLanes_unheeding fun l s => by
    unfold State.closeLane
    cases hw : s.mark.windows.get l <;> simp [hw]

/-- The stations' and the lanes' part of a count goes the same way. -/
theorem State.lanesClosed_unheeding (p : Pos) : State.unheeding (State.lanesClosed p) := fun s => by
  rw [State.lanesClosed, State.webMoved_unheeding, State.closeLanes_unheeding]
  rfl

end

end Sys2Proof.Machine
end

section
/-! A row open that finds the track full: the hold, at a mark edge and at a count. -/

namespace Sys2Proof.Machine

section
variable {s t c : State} {p : Pos}

/-! ## The hold -/

/-- What a hold for a full track makes of the run and its rows (R33, R149, R150). -/
def trackFullHeld (s t : State) : Prop :=
  t.jobs.run = .held ∧ t.jobs.holdCause = .trackFull ∧ t.jobs.hasStop .trackFull = true ∧
    t.attn.has .runHeld = true ∧ t.mark.nextRow = s.mark.nextRow ∧
    t.mark.lastOpened = s.mark.lastOpened ∧ t.mark.expected = none ∧ t.track = [] ∧
    (∀ r, s.track.getLast? = some r → t.records.writtenThrough = r.row) ∧
    changedByRecords s.mem t.mem ∧ sameOutside s t ∧ sameSlots s t

theorem sameOutside.trans (h : sameOutside s c) (h' : sameOutside c t) : sameOutside s t := by
  unfold sameOutside at *
  grind

theorem State.getLast_row_of_rows (h : c.rows = s.rows) {r : RowCtx} (hr : s.track.getLast? = some r) :
    ∃ q, c.track.getLast? = some q ∧ q.row = r.row := by
  have hmap := congrArg List.getLast? (State.map_row_of_rows h)
  rw [List.getLast?_map, List.getLast?_map, hr] at hmap
  exact Option.map_eq_some_iff.1 hmap

/-- The hold takes the rows and the row numbers of a state that has them from `s`. -/
theorem State.hold_trackFullHeld (hrows : c.rows = s.rows) (hnext : c.mark.nextRow = s.mark.nextRow)
    (hlast : c.mark.lastOpened = s.mark.lastOpened) (hmem : c.mem = s.mem) (hout : sameOutside s c)
    (hslots : sameSlots s c) : trackFullHeld s (c.hold .trackFull) := by
  obtain ⟨-, hwritten, -, -, hchanged⟩ := c.hold_records .trackFull
  have hmark := c.hold_mark .trackFull
  have hjobs := c.hold_jobs .trackFull
  have hheld := (c.hold_causes .trackFull .runHeld).2 (.inr (.inl rfl))
  have hsame := hout.trans (c.hold_sameOutside .trackFull)
  have htrack := c.hold_track .trackFull
  generalize c.hold .trackFull = t at *
  obtain ⟨hfollowing, hcurrent, hfirst⟩ := hslots
  refine ⟨?_, ?_, ?_, hheld, ?_, ?_, ?_, htrack, fun r hr => ?_, hmem ▸ hchanged, hsame, ?_⟩
  · rw [hjobs]
    rfl
  · rw [hjobs]
    rfl
  · rw [hjobs]
    exact (JobControl.handStop_hasStop _ _ _).2 (.inl rfl)
  · rw [hmark]
    exact hnext
  · rw [hmark]
    exact hlast
  · rw [hmark]
    rfl
  · obtain ⟨q, hq, hrow⟩ := State.getLast_row_of_rows hrows hr
    exact (hwritten q hq).1.trans hrow
  · unfold sameSlots
    rw [hjobs]
    exact ⟨hfollowing, hcurrent, hfirst⟩

/-- A row open that finds the track full in a run RUNNING (R33). -/
theorem State.openRow_holds (hlen : s.track.length = 32) (hrun : s.jobs.run = .running) (status : MarkStatus) (lead : Pos) :
    s.openRow status lead = s.hold .trackFull := by
  rw [State.openRow_of_full s status lead hlen.ge, State.handHold_of_holdable _ (by rw [hrun]; rfl)]

/-! ## At a mark edge -/

/-- A leading-lane edge finds no window in a run not RUNNING (R20). -/
theorem State.leadingEdge_stopped (h : s.jobs.run ≠ .running) (n : Nat) : s.leadingEdge p n = s := by
  cases n with
  | zero => rfl
  | succ n =>
    unfold State.leadingEdge
    split
    · exact absurd ‹_› h
    · rfl

/-- A leading-lane edge in the open window or beyond it asks for a row open, which a full track refuses (R22, R23, R25,
R33). -/
theorem State.leadingEdge_full {e : Pos} (hlen : s.track.length = 32) (hrun : s.jobs.run = .running)
    (he : s.mark.expected = some e) (hs : s.windowSmall) (hlo : s.windowLow ≤ dist e p) (hhi : dist e p ≤ 2 ^ 30)
    (n : Nat) : s.leadingEdge p (n + 1) = s.hold .trackFull := by
  by_cases hin : dist e p ≤ s.windowHigh
  · rw [State.leadingEdge_inWindow hrun he hs hlo hin, State.openRow_holds hlen hrun]
  · rw [State.leadingEdge_beyond hrun he hs (not_le.1 hin) hhi, State.openRow_holds hlen hrun,
      State.leadingEdge_stopped (by rw [State.hold_run]; simp)]

/-! ## At a count -/

theorem forLanes_closeLane_idem (p : Pos) (s : State) :
    forLanes (State.closeLane p) (forLanes (State.closeLane p) s) = forLanes (State.closeLane p) s := by
  refine forLanes_self fun l => ?_
  have hwindows := forLanes_closeLane_windows (p := p) (l := l) s
  have hcloses (k : LaneWindow) : (forLanes (State.closeLane p) s).windowCloses p k = s.windowCloses p k :=
    State.windowCloses_congr p (by simp) (by simp) (by simp) k
  rw [State.closeLane_eq]
  split
  · rename_i k hk
    rw [hk] at hwindows
    have hstands := (Option.filter_eq_some_iff.1 hwindows.symm).2
    rw [if_neg (by rw [hcloses]; simpa using hstands)]
  · rfl

/-- A count after which no row is expected ends with the lanes' part, but for the reverse check. -/
theorem State.webChange_of_stands (h : ∀ e, ¬ s.leadingCloses p e) : s.webChange p = (s.lanesClosed p).reverseCheck := by
  rw [State.webChange_eq_closes, State.closeLeading_of_stands fun e => mt (State.lanesClosed_leading e).1 (h e),
    State.lanesClosed, forLanes_closeLane_idem]

theorem State.reverseCheck_of_running (h : s.reverseCheck.jobs.run = .running) : s.reverseCheck = s := by
  rcases s.reverseCheck_cases with hr | ⟨hr, -⟩
  · exact hr
  · rw [hr, State.hold_run] at h
    cases h

/-- A hold leaves the lanes no window, and its run is checked no more. -/
theorem State.afterLeading_hold (cause : HoldCause) :
    (forLanes (State.closeLane p) (s.hold cause)).reverseCheck = s.hold cause := by
  have hlanes : forLanes (State.closeLane p) (s.hold cause) = s.hold cause := forLanes_self fun l => by
    rw [State.closeLane_eq, State.hold_mark]
    simp [MarkUnit.clear]
  have hrun : (s.hold cause).jobs.run = .held := State.hold_run cause
  rw [hlanes]
  generalize s.hold cause = u at hrun
  simp [State.reverseCheck, hrun, RunState.holdable]

/-- A web position change that closes the open window, the track full (R23, R25, R33). -/
theorem State.webChange_full {e : Pos} (hlen : s.track.length = 32) (hcl : s.leadingCloses p e) :
    s.webChange p = (s.lanesClosed p).hold .trackFull := by
  have hlen' : (s.lanesClosed p).track.length = 32 := by
    rw [State.track_length_congr (s.lanesClosed_frame p).2.2.2.2.2.1, hlen]
  rw [State.webChange_eq_closes, State.closeLeading_of_closes ((State.lanesClosed_leading e).2 hcl),
    State.openRow_holds hlen' ((State.lanesClosed_frame p s).2.1.trans hcl.1), State.afterLeading_hold]

/-- A hold reads nothing of the row expected. -/
theorem blocksHeld_unexpecting : blocksHeld s.unexpecting t ↔ blocksHeld s t := Iff.rfl

theorem State.lanesClosed_sameOutside (p : Pos) (s : State) :
    sameOutside s (s.lanesClosed p) ∧ sameSlots s (s.lanesClosed p) := by
  simp [sameOutside, sameSlots, State.lanesClosed, State.webMoved, forStations, forChannels, forLanes]

/-- The record of a row on the track, as the hold of a later state that keeps its identity writes it (R187, R188). -/
theorem State.hold_recordHead (hok : s.trackOk) (hrows : c.rows = s.rows) (hmark : c.mark.nextRow = s.mark.nextRow)
    (hlast : c.mark.lastOpened = s.mark.lastOpened) {r : RowCtx} (hr : r ∈ s.track) (cause : HoldCause) :
    let slot := 0x4000 + 128 * (r.row.toNat % 128)
    (c.hold cause).mem.word slot = r.row ∧ (c.hold cause).mem.word (slot + 4) = r.jobTag ∧
      (c.hold cause).mem.word (slot + 8) = r.lead ∧ (c.hold cause).mem.nat 1 (slot + 0x0C) = r.status.code := by
  have hmem : r.fixed ∈ c.rows := hrows ▸ List.mem_map_of_mem hr
  obtain ⟨q, hq, hfixed⟩ := List.mem_map.1 hmem
  simp only [RowCtx.fixed, Prod.mk.injEq] at hfixed
  obtain ⟨hrow, htag, hlead, hstatus, -⟩ := hfixed
  obtain ⟨hshown, -⟩ := c.hold_records cause
  obtain ⟨h0, h4, h8, hcode, -⟩ := (hshown (hok.of_rows hrows hmark hlast) q hq).1
  rw [← hrow, ← htag, ← hlead, ← hstatus]
  refine ⟨h0, h4, h8, ?_⟩
  cases hs : q.status <;> simpa [hs, MarkStatus.code, State.abandoned] using hcode

end

/-- Settles O34: the edge and the count both end in the hold; the count with no row expected ends one step before it. -/
theorem fullTrackHoldsTheRun : Obligations.FullTrackHoldsTheRun := by
  refine ⟨fun lane p e s hlevel hd ha hl hlen hrun he hhi hwin => ?_, ?_⟩
  · have hsmall : s.windowSmall ∧ s.windowLow ≤ dist e p := by
      rcases hwin with ⟨hs, hw, hlo⟩ | ⟨hs, hw, hlo⟩
      · exact ⟨.inl ⟨hs, hw.trans (by decide)⟩, by simpa [State.windowLow, hs] using hlo⟩
      · exact ⟨.inr ⟨hs, hw⟩, by simpa [State.windowLow, hs] using hlo⟩
    have hstep : exec (.markEdge lane true p) s = .next ((s.setMarkLevel lane true).hold .trackFull) := by
      rw [exec_markEdge_forward hlevel hd, State.takeMark_leading (s := s.setMarkLevel lane true) ha hl hrun,
        State.leadingEdge_full (s := s.setMarkLevel lane true) hlen hrun he hsmall.1 hsmall.2 hhi]
    refine ⟨_, hstep, ?_, ?_, ?_⟩
    · exact State.hold_trackFullHeld (c := s.setMarkLevel lane true) rfl rfl rfl rfl ⟨rfl, rfl, rfl, rfl, rfl, rfl, rfl⟩
        ⟨rfl, rfl, rfl⟩
    · exact State.hold_blocksHeld .trackFull (s.setMarkLevel lane true)
    · exact State.hold_causes .trackFull (s.setMarkLevel lane true)
  · intro s p a b w e hp ht hw hlen hrun he x hbehind hreach
    have hweb : (s.counted a b .forward).web = w := (s.counted_forward_web a b).trans hw.symm
    have hmoves : (s.counted a b .forward).web ≠ s.web := fun h => by
      rw [← hweb, h] at hreach
      exact absurd hreach (not_le.2 hbehind)
    have hcl : (s.counted a b .forward).leadingCloses s.web e := by
      refine ⟨hrun, he, ?_⟩
      rw [State.windowEnd_congr (s := s) (t := s.counted a b .forward) rfl rfl, hweb, reaches_iff]
      exact ⟨hbehind, hreach⟩
    have hstep : exec (.encoderCount a b) s =
        .next (((s.counted a b .forward).lanesClosed s.web).hold .trackFull) := by
      rw [exec_encoderCount_forward hp ht, State.count_setPair_of_moves hmoves, State.webChange_full (s := s.counted a b .forward) hlen hcl]
    have hfree : exec (.encoderCount a b) s.unexpecting =
        .next ((s.counted a b .forward).lanesClosed s.web).unexpecting.reverseCheck := by
      rw [exec_encoderCount_forward (s := s.unexpecting) hp ht, State.count_setPair_of_moves (s := s.unexpecting) hmoves]
      change Host.Outcome.next ((s.counted a b .forward).unexpecting.webChange s.web) = _
      rw [State.webChange_of_stands fun e he => by simpa [State.unexpecting] using he.2.1, State.lanesClosed_unheeding]
    have hmark := (s.counted a b .forward).lanesClosed_mark s.web
    have hcmark : ((s.counted a b .forward).lanesClosed s.web).mark.nextRow = s.mark.nextRow ∧
      ((s.counted a b .forward).lanesClosed s.web).mark.lastOpened = s.mark.lastOpened := by rw [hmark]; exact ⟨rfl, rfl⟩
    obtain ⟨-, -, hmem, -, -, hrows, hcweb⟩ := (s.counted a b .forward).lanesClosed_frame s.web
    obtain ⟨hout, hslots⟩ := State.lanesClosed_sameOutside s.web (s.counted a b .forward)
    generalize (s.counted a b .forward).lanesClosed s.web = c at *
    refine ⟨_, hstep, ?_, State.hold_trackFullHeld hrows hcmark.1 hcmark.2 hmem hout hslots,
      fun hok r hr => State.hold_recordHead hok hrows hcmark.1 hcmark.2 hr .trackFull, _, hfree, fun hr => ?_⟩
    · rw [show (c.hold .trackFull).web = c.web by simp, hcweb, hweb]
    · rw [State.reverseCheck_of_running hr]
      refine ⟨blocksHeld_unexpecting.2 (c.hold_blocksHeld .trackFull), c.hold_causes .trackFull, ?_⟩
      rw [State.hold_jobs]
      rfl

end Sys2Proof.Machine
end

section
/-! The lanes at a row open. -/

namespace Sys2Proof.Machine

/-- What belongs to lane `l`: its window, its held edge, and its result in the row at the tail of the track. -/
def State.atLane (s : State) (l : Fin 4) : Option LaneWindow × Option Pos × Option (Word × LaneEntry) :=
  (s.mark.windows.get l, s.mark.held.get l, s.laned.getLast?.map fun x => (x.1, x.2.get l))

section
variable {s u : State} {l k : Fin 4} {n : Word} {lead : Pos}

/-! ## The writes -/

theorem State.atLane_congr (hw : u.mark.windows = s.mark.windows) (hh : u.mark.held = s.mark.held) (ht : u.laned = s.laned)
    (l : Fin 4) : u.atLane l = s.atLane l := by
  rw [State.atLane, hw, hh, ht, State.atLane]

theorem State.atLane_setLane (l k : Fin 4) (n : Word) (e : LaneEntry) (s : State) :
    (s.setLane k n e).atLane l = ((s.atLane l).1, (s.atLane l).2.1,
      (s.atLane l).2.2.map fun x => if x.1 = n ∧ l = k then (x.1, e) else x) := by
  have hlaned : (s.setLane k n e).laned = s.laned.map fun x => if x.1 = n then (x.1, x.2.set k e) else x := by
    have htrack : (s.setLane k n e).track =
        s.track.map fun r => if r.row = n then { r with lanes := r.lanes.set k e } else r := rfl
    rw [State.laned, htrack, State.laned, List.map_map, List.map_map]
    refine List.map_congr_left fun r _ => ?_
    simp only [Function.comp_apply]
    split <;> rfl
  rw [State.atLane, hlaned, List.getLast?_map, Option.map_map, State.atLane]
  dsimp only
  rw [Option.map_map]
  refine Prod.ext rfl (Prod.ext rfl (congrArg (Option.map · _) (funext fun x => ?_)))
  by_cases hn : x.1 = n <;> by_cases hl : l = k <;> simp [hn, hl]

theorem State.atLane_setWindow (l k : Fin 4) (w : Option LaneWindow) (s : State) :
    (s.setWindow k w).atLane l = (if l = k then w else (s.atLane l).1, (s.atLane l).2) := by
  have hget : (s.setWindow k w).mark.windows.get l = if l = k then w else s.mark.windows.get l := Four.get_set _ _ _ _
  rw [State.atLane, hget]
  rfl

theorem State.atLane_setHeld (l k : Fin 4) (p : Option Pos) (s : State) :
    (s.setHeld k p).atLane l = ((s.atLane l).1, if l = k then p else (s.atLane l).2.1, (s.atLane l).2.2) := by
  have hget : (s.setHeld k p).mark.held.get l = if l = k then p else s.mark.held.get l := Four.get_set _ _ _ _
  rw [State.atLane, hget]
  rfl

/-! ## A lane's turn -/

/-- The window of a lane for a new row (R29). -/
def State.newWindow (s : State) (n : Word) (lead : Pos) (l : Fin 4) : LaneWindow := { row := n, centre := s.laneCentre l lead }

/-- The lane with the window of the new row pending and its held edge spent (R28, R29). -/
def State.laneArmed (s : State) (n : Word) (lead : Pos) (l : Fin 4) : State :=
  (s.setWindow l (some (s.newWindow n lead l))).setHeld l none

/-- The held edge of a lane lies in the window of a new row (R29). -/
def State.heldIn (s : State) (lead : Pos) (l : Fin 4) (p : Pos) : Prop :=
  s.mark.held.get l = some p ∧ (dist (s.laneCentre l lead) p).natAbs ≤ s.job.window

theorem State.openLane_of_apart (h : s.followsLane l = false) : s.openLane n lead l = s := by
  rw [State.openLane, h]
  rfl

theorem State.openLane_caught {p : Pos} (h : s.followsLane l = true) (hp : s.heldIn lead l p) :
    s.openLane n lead l = (s.laneArmed n lead l).laneFound l (s.newWindow n lead l) p := by
  obtain ⟨hheld, hin⟩ := hp
  have hin' : ((s.setWindow l (some (s.newWindow n lead l))).setHeld l none).inLaneWindow (s.laneCentre l lead) p = true :=
    decide_eq_true hin
  unfold State.newWindow at hin'
  unfold State.openLane
  rw [if_pos h, hheld]
  dsimp only
  rw [if_pos hin']
  rfl

theorem State.openLane_free (h : s.followsLane l = true) (hp : ∀ p, ¬ s.heldIn lead l p) :
    s.openLane n lead l = if dist s.web (moved (s.laneCentre l lead) s.job.window) < 0
      then (s.laneArmed n lead l).laneMissing l (s.newWindow n lead l) else s.laneArmed n lead l := by
  have hend : behind ((s.laneArmed n lead l).laneEnd (s.newWindow n lead l)) (s.laneArmed n lead l).web =
      decide (dist s.web (moved (s.laneCentre l lead) s.job.window) < 0) := rfl
  unfold State.laneArmed State.newWindow at *
  unfold State.openLane
  rw [if_pos h]
  dsimp only
  rw [hend]
  cases hh : s.mark.held.get l with
  | none => simp
  | some p =>
    have hout : ¬ ((s.setWindow l (some { row := n, centre := s.laneCentre l lead })).setHeld l none).inLaneWindow
        (s.laneCentre l lead) p = true := fun hin => hp p ⟨hh, of_decide_eq_true hin⟩
    simp only [hout, if_false, decide_eq_true_eq, Bool.false_eq_true]

theorem State.atLane_openLane_ne (h : l ≠ k) : (s.openLane n lead k).atLane l = s.atLane l := by
  by_cases hf : s.followsLane k = true
  · by_cases hp : ∃ p, s.heldIn lead k p
    · obtain ⟨p, hp⟩ := hp
      rw [State.openLane_caught hf hp]
      simp [State.laneFound, State.laneArmed, State.atLane_setWindow, State.atLane_setLane, State.atLane_setHeld, h]
    · rw [State.openLane_free hf (not_exists.1 hp)]
      split <;>
        simp [State.laneMissing, State.laneArmed, State.atLane_setWindow, State.atLane_setLane, State.atLane_setHeld, h]
  · rw [State.openLane_of_apart (by simpa using hf)]

/-- What a lane's turn makes of it, where the row is at the tail of the track (R28 to R31). -/
theorem State.atLane_openLane {e : LaneEntry} (hrow : (s.atLane l).2.2 = some (n, e)) (hf : s.followsLane l = true) :
    (∀ p, s.heldIn lead l p → (s.openLane n lead l).atLane l =
      (none, none, some (n, .found (dist (s.laneCentre l lead) p)))) ∧
    ((∀ p, ¬ s.heldIn lead l p) → dist s.web (moved (s.laneCentre l lead) s.job.window) < 0 →
      (s.openLane n lead l).atLane l = (none, none, some (n, .missing))) ∧
    ((∀ p, ¬ s.heldIn lead l p) → 0 ≤ dist s.web (moved (s.laneCentre l lead) s.job.window) →
      (s.openLane n lead l).atLane l = (some (s.newWindow n lead l), none, some (n, e))) := by
  refine ⟨fun p hp => ?_, fun hp hb => ?_, fun hp hb => ?_⟩
  · rw [State.openLane_caught hf hp]
    simp [State.laneFound, State.laneArmed, State.newWindow, State.atLane_setWindow, State.atLane_setLane,
      State.atLane_setHeld, hrow]
  · rw [State.openLane_free hf hp, if_pos hb]
    simp [State.laneMissing, State.laneArmed, State.newWindow, State.atLane_setWindow, State.atLane_setLane,
      State.atLane_setHeld, hrow]
  · rw [State.openLane_free hf hp, if_neg (not_lt.2 hb)]
    simp [State.laneArmed, State.atLane_setWindow, State.atLane_setHeld, hrow]

/-! ## The turns of all lanes -/

/-- What the lanes read of the state. -/
theorem State.openLane_reads (hcur : u.cur = s.cur) (hwpu : u.wpu = s.wpu) (hheld : u.mark.held.get l = s.mark.held.get l) :
    u.followsLane l = s.followsLane l ∧ u.laneCentre l lead = s.laneCentre l lead ∧ u.job = s.job ∧ u.web = s.web ∧
      ∀ p, u.heldIn lead l p ↔ s.heldIn lead l p := by
  have hjob := State.job_congr hcur
  have hcentre : u.laneCentre l lead = s.laneCentre l lead := by
    simp only [State.laneCentre, State.leadingOffset, hjob]
  refine ⟨by simp only [State.followsLane, hjob], hcentre, hjob, by simp only [State.web, hwpu], fun p => ?_⟩
  simp only [State.heldIn, hjob, hheld, hcentre]

/-- A lane after the turns of all, where the row stands at the tail of the track with the result `e` at the lane (R28 to
R31). -/
theorem forLanes_openLane {e : LaneEntry} (hrow : (s.atLane l).2.2 = some (n, e)) :
    let t := forLanes (State.openLane n lead) s
    (s.followsLane l = false → t.atLane l = s.atLane l) ∧
    (s.followsLane l = true →
      (∀ p, s.heldIn lead l p → t.atLane l = (none, none, some (n, .found (dist (s.laneCentre l lead) p)))) ∧
      ((∀ p, ¬ s.heldIn lead l p) → dist s.web (moved (s.laneCentre l lead) s.job.window) < 0 →
        t.atLane l = (none, none, some (n, .missing))) ∧
      ((∀ p, ¬ s.heldIn lead l p) → 0 ≤ dist s.web (moved (s.laneCentre l lead) s.job.window) →
        t.atLane l = (some (s.newWindow n lead l), none, some (n, e)))) := by
  refine forLanes_at l (P := fun u => u.atLane l = s.atLane l ∧ u.cur = s.cur ∧ u.wpu = s.wpu)
    (Q := fun t => (s.followsLane l = false → t.atLane l = s.atLane l) ∧
      (s.followsLane l = true →
        (∀ p, s.heldIn lead l p → t.atLane l = (none, none, some (n, .found (dist (s.laneCentre l lead) p)))) ∧
        ((∀ p, ¬ s.heldIn lead l p) → dist s.web (moved (s.laneCentre l lead) s.job.window) < 0 →
          t.atLane l = (none, none, some (n, .missing))) ∧
        ((∀ p, ¬ s.heldIn lead l p) → 0 ≤ dist s.web (moved (s.laneCentre l lead) s.job.window) →
          t.atLane l = (some (s.newWindow n lead l), none, some (n, e)))))
    (fun k u hk ⟨hlane, hcur, hwpu⟩ => ⟨(State.atLane_openLane_ne hk.symm).trans hlane, by simp [hcur], by simp [hwpu]⟩)
    (fun u ⟨hlane, hcur, hwpu⟩ => ?_)
    (fun k u hk h => by rwa [State.atLane_openLane_ne hk.symm]) ⟨rfl, rfl, rfl⟩
  have hheld : u.mark.held.get l = s.mark.held.get l := congrArg (fun x => x.2.1) hlane
  obtain ⟨hf, hcentre, hjob, hweb, hheldIn⟩ := State.openLane_reads (lead := lead) hcur hwpu hheld
  have hturn := State.atLane_openLane (s := u) (lead := lead) (by rw [hlane, hrow])
  simp only [hf, hheldIn, hcentre, hjob, hweb, State.newWindow] at hturn
  refine ⟨fun h => ?_, hturn⟩
  rw [State.openLane_of_apart (hf.trans h), hlane]

/-! ## The row open -/

theorem State.atLane_appendRow (status : MarkStatus) (lead : Pos) (l : Fin 4) (s : State) :
    (s.appendRow (s.newRow status lead)).atLane l =
      (s.mark.windows.get l, s.mark.held.get l, some (s.mark.nextRow, s.firstLane l)) := by
  rw [State.atLane, State.laned, State.appendRow_track, State.appendRow_mark, List.map_append, List.map_singleton,
    List.getLast?_concat, Option.map_some]
  simp [State.newRow]

/-- After the lanes' turns a row open leaves each lane as it is (R29). -/
theorem State.atLane_openRow (status : MarkStatus) (lead : Pos) (h : s.track.length < 32) (l : Fin 4) :
    (s.openRow status lead).atLane l =
      (forLanes (State.openLane s.mark.nextRow lead) (s.appendRow (s.newRow status lead))).atLane l := by
  have hopens : (s.openRow status lead).atLane l = (s.rowBegun status lead).atLane l := by
    rw [State.openRow_of_room s status lead h]
    exact forStations_induct (P := fun u => u.atLane l = (s.rowBegun status lead).atLane l)
      (fun st u hu => (State.atLane_congr (by simp) (by simp) (u.laned_stationOpen _ st) l).trans hu) rfl
  rw [hopens]
  refine State.atLane_congr ?_ ?_ (State.laned_of_track ?_) l
  all_goals unfold State.rowBegun
  · rw [(State.noteFirst_frame _ _).2.2.2.1, State.noteStatus_mark]
    rfl
  · rw [(State.noteFirst_frame _ _).2.2.2.1, State.noteStatus_mark]
    rfl
  · simp
    rfl

/-- The lanes of a new row (R28 to R31). -/
theorem State.openRow_lanesOpened (status : MarkStatus) (lead : Pos) (h : s.track.length < 32) {r : RowCtx}
    (hr : (s.openRow status lead).track.getLast? = some r) (hrow : r.row = s.mark.nextRow) (hlead : r.lead = lead) :
    lanesOpened s (s.openRow status lead) r := by
  intro l m hm follows centre stop caught
  have hlane : (s.openRow status lead).atLane l =
      ((s.openRow status lead).mark.windows.get l, (s.openRow status lead).mark.held.get l,
        some (s.mark.nextRow, r.lanes.get l)) := by
    rw [State.atLane, State.laned, List.getLast?_map, hr]
    simp [hrow]
  rw [State.atLane_openRow status lead h] at hlane
  have hbefore := s.atLane_appendRow status lead l
  have hheld : (s.appendRow (s.newRow status lead)).mark.held.get l = s.mark.held.get l :=
    congrArg (fun x => x.2.1) hbefore
  obtain ⟨hfollows, hcentre, hjob, hweb, hheldIn⟩ :=
    State.openLane_reads (u := s.appendRow (s.newRow status lead)) (lead := lead) (by simp) (by simp) hheld
  obtain ⟨hapart, hturns⟩ := forLanes_openLane (lead := lead) (congrArg (fun x => x.2.2) hbefore)
  rw [hfollows, hlane] at hapart hturns
  rw [hbefore] at hapart
  simp only [hheldIn, hcentre, hjob, hweb, Prod.mk.injEq, Option.some.injEq, true_and] at hapart hturns
  have hmid : s.laneCentre l lead = centre := by
    have hfin : fin4 s.job.leadingLane = some m := by rw [hm]; simp [fin4]
    simp only [State.laneCentre, State.leadingOffset, hfin, centre, hlead]
  have hcaught (p : Pos) : s.heldIn lead l p ↔ caught p := by rw [State.heldIn, hmid]
  have hfollowing : s.followsLane l = true ↔ follows := by
    rw [State.followsLane, hm, Bool.and_eq_true, bne_iff_ne]
    exact and_congr_right fun _ => ⟨fun h e => h (by rw [e]), fun h e => h (Fin.ext e.symm)⟩
  simp only [hcaught, hmid, State.newWindow, hcentre] at hturns
  rw [← Bool.not_eq_true, hfollowing] at hapart
  rw [hfollowing] at hturns
  refine ⟨fun ha => ?_, fun hf => ?_⟩
  · obtain ⟨hwindow, hedge, hresult⟩ := hapart ha
    refine ⟨hwindow, hedge, hresult.trans ?_⟩
    unfold State.firstLane
    by_cases hactive : s.job.laneActive l = true
    · have hl : l = m := by_contra fun hne => ha ⟨hactive, hne⟩
      rw [if_pos ⟨by rw [hm, hl], hactive⟩, if_pos hactive]
    · rw [if_neg fun hx => hactive hx.2, if_neg hactive]
  · obtain ⟨hfound, hmissing, hpending⟩ := hturns hf
    have habsent : s.firstLane l = .absent := if_neg fun hx => hf.2 (Fin.ext (hx.1.symm.trans hm))
    have hspent : (s.openRow status lead).mark.held.get l = none := by
      by_cases hp : ∃ p, caught p
      · obtain ⟨p, hp⟩ := hp
        exact (hfound p hp).2.1
      · rcases lt_or_ge (dist s.web stop) 0 with hb | hb
        · exact (hmissing (not_exists.1 hp) hb).2.1
        · exact (hpending (not_exists.1 hp) hb).2.1
    refine ⟨hspent, fun p hp => ?_, fun hp hb => ?_, fun hp hb => ?_⟩
    · obtain ⟨hwindow, -, hresult⟩ := hfound p hp
      exact ⟨hwindow, hresult⟩
    · obtain ⟨hwindow, -, hresult⟩ := hmissing hp hb
      exact ⟨hwindow, hresult⟩
    · obtain ⟨hwindow, -, hresult⟩ := hpending hp hb
      exact ⟨by rw [hwindow, hrow], hresult.trans habsent⟩

end

end Sys2Proof.Machine
end

section
/-! A new row placed at the stations: the die face nearest its arrival, and its zone. -/

namespace Sys2Proof.Machine

section
variable {s : State} {st : Fin 4} {r : RowCtx} {l : List Image} {i : Image}

/-! ## The face -/

/-- The nearest position of its kind (R54). -/
theorem placedOn_nearest (base a : Pos) {p : Nat} (hp : 0 < p) : placedOn base p a (nearest base a p) := by
  obtain ⟨⟨k, hk⟩, hlo, hhi⟩ := reduceBy_spec (dist a base) hp
  exact ⟨_, k, hk, hlo, hhi, rfl⟩

/-! ## The zone -/

theorem State.mem_zoneImages : i ∈ s.zoneImages st ↔ ∃ l : Fin 4, s.job.laneActive l = true ∧ i ∈ (s.plate st).images.get l := by
  simp only [State.zoneImages, List.mem_flatten, Four.mem_toList, Four.get_mapIdx]
  constructor
  · rintro ⟨_, ⟨l, rfl⟩, hi⟩
    split at hi
    · exact ⟨l, ‹_›, hi⟩
    · cases hi
  · rintro ⟨l, hl, hi⟩
    exact ⟨_, ⟨l, rfl⟩, by rwa [if_pos hl]⟩

theorem firstStart_le (h : i ∈ l) : firstStart l ≤ i.start := by
  induction l with
  | nil => cases h
  | cons j l ih =>
    cases l with
    | nil => rw [List.mem_singleton.1 h, firstStart]
    | cons k l =>
      rw [firstStart]
      · rcases List.mem_cons.1 h with rfl | h
        · exact min_le_left _ _
        · exact (min_le_right _ _).trans (ih h)
      · exact List.cons_ne_nil _ _

theorem firstStart_mem (h : l ≠ []) : ∃ i ∈ l, firstStart l = i.start := by
  induction l with
  | nil => exact absurd rfl h
  | cons j l ih =>
    cases l with
    | nil => exact ⟨j, List.mem_singleton_self j, rfl⟩
    | cons k l =>
      rw [firstStart]
      · obtain ⟨i, hi, he⟩ := ih (List.cons_ne_nil _ _)
        rcases min_choice j.start (firstStart (k :: l)) with hm | hm
        · exact ⟨j, List.mem_cons_self .., hm⟩
        · exact ⟨i, List.mem_cons_of_mem _ hi, hm.trans he⟩
      · exact List.cons_ne_nil _ _

theorem le_lastEnd (h : i ∈ l) : i.start + i.len ≤ lastEnd l := by
  induction l with
  | nil => cases h
  | cons j l ih =>
    rw [lastEnd]
    rcases List.mem_cons.1 h with rfl | h
    · exact le_max_left _ _
    · exact (ih h).trans (le_max_right _ _)

theorem lastEnd_mem (h : l ≠ []) : ∃ i ∈ l, lastEnd l = i.start + i.len := by
  induction l with
  | nil => exact absurd rfl h
  | cons j l ih =>
    rw [lastEnd]
    cases l with
    | nil => exact ⟨j, List.mem_singleton_self j, max_eq_left (Nat.zero_le _)⟩
    | cons k l =>
      obtain ⟨i, hi, he⟩ := ih (List.cons_ne_nil _ _)
      rcases max_choice (j.start + j.len) (lastEnd (k :: l)) with hm | hm
      · exact ⟨j, List.mem_cons_self .., hm⟩
      · exact ⟨i, List.mem_cons_of_mem _ hi, hm.trans he⟩

/-- The zone of a new entry (R80). -/
theorem State.newEntry_zoned (s : State) (st : Fin 4) (r : RowCtx) : s.zoned st (s.newEntry st r) := by
  have hstart : (s.newEntry st r).zoneStartOff = firstStart (s.zoneImages st) - (s.block st).guard := rfl
  have hend : (s.newEntry st r).zoneEndOff = lastEnd (s.zoneImages st) + (s.block st).guard := rfl
  simp only [State.zoned, ← State.mem_zoneImages, hstart, hend]
  refine ⟨fun i hi => ?_, fun ⟨i, hi⟩ => ⟨?_, ?_⟩, fun hnone => ?_⟩
  · have := firstStart_le hi
    have := le_lastEnd hi
    omega
  · obtain ⟨j, hj, he⟩ := firstStart_mem (List.ne_nil_of_mem hi)
    exact ⟨j, hj, by rw [he]⟩
  · obtain ⟨j, hj, he⟩ := lastEnd_mem (List.ne_nil_of_mem hi)
    exact ⟨j, hj, by rw [he]; push_cast; rfl⟩
  · rw [List.eq_nil_iff_forall_not_mem.2 hnone]
    simp [firstStart, lastEnd]

end

end Sys2Proof.Machine
end

section
/-! The test of a new row against a splice at one station: the strikes it fouls are taken oldest first (R85, R128). -/

namespace Sys2Proof.Machine

section
variable {s t u v : State} {st : Fin 4} {c : Fin 8} {n n' : Word} {lost : Word → Bool}

/-! ## What only grows -/

/-- Causes, stop causes and late flags are set and none is cleared, and the web, the job and the plates stay. -/
structure grows (s t : State) : Prop where
  attn : s.attn.Raised t.attn
  stops : ∀ x, s.jobs.hasStop x = true → t.jobs.hasStop x = true
  late : ∀ c n, s.allLate c n → t.allLate c n
  wpu : t.wpu = s.wpu
  cur : t.cur = s.cur

theorem grows.refl (s : State) : grows s s := ⟨.refl _, fun _ => id, fun _ _ => id, rfl, rfl⟩

theorem grows.trans (h : grows s t) (h' : grows t u) : grows s u :=
  ⟨h.attn.trans h'.attn, fun x hx => h'.stops x (h.stops x hx), fun c n hl => h'.late c n (h.late c n hl),
    h'.wpu.trans h.wpu, h'.cur.trans h.cur⟩

theorem State.allLate.mapRow (h : s.allLate c n) {f : RowCtx → RowCtx} (hrow : ∀ r, (f r).row = r.row)
    (hch : ∀ r, (f r).channels = r.channels) (m : Word) : (s.mapRow m f).allLate c n := by
  intro r hr hn e he
  have htrack : (s.mapRow m f).track = s.track.map fun q => if q.row = m then f q else q := rfl
  rw [htrack] at hr
  obtain ⟨q, hq, rfl⟩ := List.mem_map.1 hr
  split at hn <;> rename_i hm
  · rw [if_pos hm, hch] at he
    exact h q hq ((hrow q).symm.trans hn) e he
  · rw [if_neg hm] at he
    exact h q hq hn e he

theorem grows_addRisk (st : Fin 4) (n : Word) (s : State) : grows s (s.addRisk st n) :=
  ⟨State.addRisk_raised st n (.refl _), fun _ => State.addRisk_hasStop st n,
    fun c m hl r hr => hl r (by simpa using hr), by simp, by simp⟩

theorem grows_sacrifice (st : Fin 4) (n : Word) (s : State) : grows s (s.sacrifice st n) := by
  refine ⟨State.sacrifice_raised st n (.refl _), fun x hx => by simpa using hx, fun c m hl => ?_, by simp, by simp⟩
  have hmapped : (s.mapEntry st n fun e => { e with outcome := some .sacrificed }).allLate c m :=
    hl.mapRow (f := fun r => r.mapStation st _) (fun _ => rfl) (fun _ => rfl) n
  have hserved := (State.serving_withdraw_keeps st n _).2.2.2 c m hmapped
  unfold State.sacrifice
  dsimp only
  split
  · split
    · exact hserved
    · exact fun r hr => hserved r (by simpa using hr)
  · exact fun r hr => hserved r (by simpa using hr)

/-! ## One row withdrawn -/

/-- From `s` to `t` row `n` was handed to channel `c` for withdrawal from station `st` (R128). -/
def rowWithdrawn (s t : State) (st : Fin 4) (c : Fin 8) (n : Word) : Prop :=
  (¬ s.loses st c n → t.channel c = s.channel c) ∧
  (s.loses st c n → (s.channel c).state ≠ .standing → t.channel c = (s.channel c).withoutRow n) ∧
  (s.loses st c n → (s.channel c).state = .standing →
    (t.channel c).accounts = (s.channel c).accounts ∧ (∀ k ∈ (t.channel c).strokes, k ∈ (s.channel c).strokes ∧ k.row ≠ n) ∧
      rampTaken s t c ((s.channel c).withoutRow n))

theorem rowWithdrawn.congr (h : rowWithdrawn s t st c n) (hch : s.channel c = u.channel c) (hcur : s.cur = u.cur)
    (hf : s.chanStation c = some st → ∀ m, s.chanFace c m = u.chanFace c m) (hch' : v.channel c = t.channel c) (hg : grows t v) :
    rowWithdrawn u v st c n := by
  have hloses := State.loses_congr (st := st) (n := n) hch hcur
  unfold rowWithdrawn at *
  rw [hch', ← hch, ← hloses]
  obtain ⟨hkeeps, hmoving, hstanding⟩ := h
  refine ⟨hkeeps, hmoving, fun hl hs => ?_⟩
  obtain ⟨hacc, hsub, htaken⟩ := hstanding hl hs
  exact ⟨hacc, hsub, (htaken.of_faces (hf hl.1)).mono hch' hg.wpu (hg.attn.has _) (hg.late c)⟩

/-- A row withdrawn before those that `lost` names (R128). -/
theorem strokesWithdrawn.cons (h : rowWithdrawn s u st c n) (h' : strokesWithdrawn u t c lost)
    (hs : s.chanStation c = some st) (hf : ∀ m, u.chanFace c m = s.chanFace c m) (hg : grows u t) :
    strokesWithdrawn s t c fun m => m == n || lost m := by
  obtain ⟨hkeeps, hmoving, hstanding⟩ := h
  obtain ⟨hstays, hacts⟩ := h'
  have hspares (hno : ∀ k ∈ (s.channel c).strokes, k.row ≠ n) : u.channel c = s.channel c :=
    hkeeps fun hl => let ⟨_, _, k, hk, hrow⟩ := hl; hno k hk hrow
  refine ⟨fun h => ?_, fun hi hp => ⟨fun hm => ?_, fun hstand m hlost hk hone => ?_⟩⟩
  · rcases h with hi | hnone
    · have hch := hkeeps fun hl => hl.2.1 hi
      exact (hstays (.inl (by rw [hch, hi]))).trans hch
    · have hch := hspares fun k hk hrow => by simpa [hrow] using hnone k hk
      refine (hstays (.inr fun k hk => ?_)).trans hch
      exact (Bool.or_eq_false_iff.1 (hnone k (hch ▸ hk))).2
  · have hch : u.channel c = (s.channel c).withoutRow n := by
      by_cases hl : s.loses st c n
      · exact hmoving hl hm
      · rw [hkeeps hl, Channel.withoutRow_of_keeps (fun k hk hrow => hl ⟨hs, hi, k, hk, hrow⟩) hp]
    have hplan : ∀ p, ((s.channel c).withoutRow n).plan = some p → p.stroke ∈ ((s.channel c).withoutRow n).strokes := by
      intro p hpl
      obtain ⟨hplan, hne⟩ := Option.filter_eq_some_iff.1 hpl
      exact List.mem_filter.2 ⟨hp p hplan, hne⟩
    rw [hch] at hacts
    obtain ⟨hmove, -⟩ := hacts hi hplan
    have hnames (m : Word) : (!(m == n || lost m)) = (!lost m && m != n) := by
      rw [Bool.not_or, Bool.and_comm, bne]
    have hplans : ((s.channel c).plan.filter fun p => p.stroke.row != n).filter (fun p => !lost p.stroke.row) =
        (s.channel c).plan.filter fun p => !(p.stroke.row == n || lost p.stroke.row) := by
      cases (s.channel c).plan with
      | none => rfl
      | some p => by_cases h1 : p.stroke.row = n <;> simp [Option.filter_some, h1]
    rw [hmove hm]
    unfold Channel.withoutRow
    dsimp only
    rw [hplans, List.filter_filter]
    simp only [hnames]
  · by_cases hmn : m = n
    · obtain ⟨hacc, hsub, htaken⟩ := hstanding ⟨hs, hi, hmn ▸ hk⟩ hstand
      have hch : t.channel c = u.channel c := hstays (.inr fun k hk' => Bool.eq_false_iff.2 fun hl => by
        obtain ⟨hmem, hne⟩ := hsub k hk'
        exact hne ((hone k hmem (by simp [hl])).trans hmn))
      rw [hch, hmn]
      exact ⟨hacc, htaken.mono hch hg.wpu (hg.attn.has _) (hg.late c)⟩
    · have hch := hspares fun k hk' hrow => hmn ((hone k hk' (by simp [hrow])).symm.trans hrow)
      rw [hch] at hacts
      have hlost' : lost m = true := by simpa [hmn] using hlost
      obtain ⟨hacc, htaken⟩ := (hacts hi hp).2 hstand m hlost' hk fun k hk' hl => hone k hk' (by simp [hl])
      exact ⟨hacc, htaken.of_faces hf⟩

end

end Sys2Proof.Machine
end

section
/-! The rows that a new SPLICE row fouls, given up one after another at one station (R85). -/

namespace Sys2Proof.Machine

/-! ## One entry -/

/-- The row's entry fouls the splice as `f` says. -/
def foulsAt (f : StationEntry → Bool) (x : Word × Option StationEntry) : Bool := x.2.any f

/-- The strike is given up: it fouls the splice as `f` says, and its zone has not started (R85). -/
def givenUpAt (f : StationEntry → Bool) (x : Word × Option StationEntry) : Bool := x.2.any fun e => f e && !e.startTaken

/-- The strike puts the splice at risk: it fouls it as `f` says, and its zone has started (R85). -/
def risksAt (f : StationEntry → Bool) (x : Word × Option StationEntry) : Bool := x.2.any fun e => f e && e.startTaken

/-- The entry is a strike whose zone end is to come. -/
def liveAt (x : Word × Option StationEntry) : Bool := x.2.any fun e => e.struck && !e.endTaken

/-- The entry after the test. -/
def StationEntry.afterSplice (f : StationEntry → Bool) (e : StationEntry) : StationEntry :=
  if f e = true ∧ e.startTaken = false then { e with outcome := some .sacrificed } else e

/-- The row's entry after the test. -/
def afterSplice (f : StationEntry → Bool) (x : Word × Option StationEntry) : Word × Option StationEntry :=
  (x.1, x.2.map (StationEntry.afterSplice f))

section
variable {f : StationEntry → Bool} {x : Word × Option StationEntry} {e : StationEntry} {n : Word}

theorem StationEntry.afterSplice_face (f : StationEntry → Bool) (e : StationEntry) : (e.afterSplice f).face = e.face := by
  unfold StationEntry.afterSplice
  split <;> rfl

theorem afterSplice_of_spared (h : givenUpAt f x = false) : afterSplice f x = x := by
  obtain ⟨n, o⟩ := x
  cases o with
  | none => rfl
  | some e =>
    have hno : ¬ (f e = true ∧ e.startTaken = false) := by simpa [givenUpAt] using h
    simp [afterSplice, StationEntry.afterSplice, hno]

theorem givenUpAt_some : givenUpAt f (n, some e) = true ↔ f e = true ∧ e.startTaken = false := by simp [givenUpAt]

/-- A strike given up is live no more. -/
theorem liveAt_afterSplice (f : StationEntry → Bool) (x : Word × Option StationEntry) :
    liveAt (afterSplice f x) = (liveAt x && !givenUpAt f x) := by
  obtain ⟨n, o⟩ := x
  cases o with
  | none => rfl
  | some e =>
    by_cases h : f e = true ∧ e.startTaken = false
    · have hgiven := (givenUpAt_some (n := n)).2 h
      rw [hgiven]
      simp [liveAt, afterSplice, StationEntry.afterSplice, h, StationEntry.struck, RowOutcome.strike]
    · have hspared : givenUpAt f (n, some e) = false := by simpa [givenUpAt] using h
      rw [afterSplice_of_spared hspared, hspared]
      simp

end

/-! ## The throw -/

/-- The throw opens for one of the strikes given up in turn: none before it is live (R85). -/
def throwOpens (f : StationEntry → Bool) : List (Word × Option StationEntry) → List (Word × Option StationEntry) → Prop
  | _, [] => False
  | done, x :: rest => (givenUpAt f x = true ∧ ∀ p, done.getLast? = some p → liveAt p = false) ∨
      throwOpens f (done ++ [afterSplice f x]) rest

/-- From `x` to `y` a station's throw was opened where `opens` holds, in time `off`; its state and its base stayed. -/
structure throwOpened (x y : Station) (off : Nat) (opens : Prop) : Prop where
  state : y.state = x.state
  base : y.base = x.base
  opened : opens → y.throw = (x.openThrow off).throw ∧ y.timer = (x.openThrow off).timer
  stays : ¬ opens → y.throw = x.throw ∧ y.timer = x.timer

section
variable {f : StationEntry → Bool} {x y z : Station} {off : Nat} {p q : Prop}

theorem throwOpened.trans (h : throwOpened x y off p) (h' : throwOpened y z off q) : throwOpened x z off (p ∨ q) := by
  have htwice : y.throw = (x.openThrow off).throw ∧ y.timer = (x.openThrow off).timer →
      (y.openThrow off).throw = (x.openThrow off).throw ∧ (y.openThrow off).timer = (x.openThrow off).timer := by
    rintro ⟨ht, hm⟩
    simp only [Station.openThrow_eq] at ht hm ⊢
    by_cases hx : x.throw = .closing ∨ x.throw = .on
    · simp only [hx, if_true] at ht hm ⊢
      simp [ht, hm]
    · simp only [hx, if_false] at ht hm ⊢
      simp [ht, hm, hx]
  have hsame : y.throw = x.throw ∧ y.timer = x.timer →
      (y.openThrow off).throw = (x.openThrow off).throw ∧ (y.openThrow off).timer = (x.openThrow off).timer := by
    rintro ⟨ht, hm⟩
    simp only [Station.openThrow_eq, ht]
    split
    · exact ⟨rfl, rfl⟩
    · exact ⟨ht, hm⟩
  refine ⟨h'.state.trans h.state, h'.base.trans h.base, fun ho => ?_, fun ho => ?_⟩
  · by_cases hq : q
    · obtain ⟨ht, hm⟩ := h'.opened hq
      rw [ht, hm]
      by_cases hp : p
      · exact htwice (h.opened hp)
      · exact hsame (h.stays hp)
    · obtain ⟨ht, hm⟩ := h'.stays hq
      rw [ht, hm]
      exact h.opened (ho.resolve_right hq)
  · obtain ⟨ht, hm⟩ := h'.stays fun hq => ho (.inr hq)
    rw [ht, hm]
    exact h.stays fun hp => ho (.inl hp)

/-- Whether the throw opens, read of the entries before the test: the row before a strike given up is no live strike, or
is given up too (R85). -/
theorem throwOpens_iff (done rest : List (Word × Option StationEntry)) : throwOpens f done rest ↔
    ∃ a x b, rest = a ++ x :: b ∧ givenUpAt f x = true ∧
      ∀ p, (done ++ a.map (afterSplice f)).getLast? = some p → liveAt p = false := by
  induction rest generalizing done with
  | nil => simp [throwOpens]
  | cons x rest ih =>
    rw [throwOpens, ih]
    constructor
    · rintro (⟨hx, hlast⟩ | ⟨a, y, b, hrest, hy, hlast⟩)
      · exact ⟨[], x, rest, rfl, hx, by simpa using hlast⟩
      · exact ⟨x :: a, y, b, by rw [hrest]; rfl, hy, by simpa using hlast⟩
    · rintro ⟨a, y, b, hrest, hy, hlast⟩
      cases a with
      | nil =>
        obtain ⟨rfl, rfl⟩ := List.cons.inj hrest
        exact .inl ⟨hy, by simpa using hlast⟩
      | cons z a =>
        obtain ⟨rfl, rfl⟩ := List.cons.inj hrest
        exact .inr ⟨a, y, b, rfl, hy, by simpa using hlast⟩

end

section
variable {s t u v w : State} {st : Fin 4} {c : Fin 8} {f : StationEntry → Bool} {x : Word × Option StationEntry}
  {done rest back : List (Word × Option StationEntry)} {n n' : Word} {e : StationEntry}

/-! ## One row -/

/-- The row of an entry, where the rows have numbers of their own. -/
theorem State.rowAt_of_entriesAt (h : v.entriesAt st = done ++ x :: back) (hd : ((v.entriesAt st).map Prod.fst).Nodup) :
    ∃ front r later, v.rowAt front later r ∧ (r.row, r.stations.get st) = x ∧
      front.map (fun q => (q.row, q.stations.get st)) = done ∧
      later.map (fun q => (q.row, q.stations.get st)) = back := by
  obtain ⟨front, tail, ht, hfront, htail⟩ := List.map_eq_append_iff.1 h
  obtain ⟨r, later, rfl, hr, hlater⟩ := List.map_eq_cons_iff.1 htail
  have hrows : (v.track.map RowCtx.row).Nodup := by
    rw [State.entriesAt, List.map_map] at hd
    exact hd
  refine ⟨front, r, later, ⟨ht, fun q hq hrow => ?_⟩, hr, hfront, hlater⟩
  rw [ht, List.map_append, List.map_cons, List.nodup_middle, List.nodup_cons] at hrows
  exact hrows.1 (by rw [← List.map_append, ← hrow]; exact List.mem_map_of_mem hq)

theorem State.entry?_of_entriesAt_split (h : v.entriesAt st = done ++ (n, some e) :: back)
    (hd : ((v.entriesAt st).map Prod.fst).Nodup) : v.entry? st n = some e := by
  obtain ⟨front, r, later, hrow, hx, -, -⟩ := State.rowAt_of_entriesAt h hd
  obtain ⟨hn, he⟩ := Prod.mk.inj hx
  rw [← hn, hrow.entry?, he]

/-- The strike's entry with its outcome SACRIFICED, before the rest of its giving up (R85). -/
theorem State.mapEntry_entriesAt (h : v.entriesAt st = done ++ (n, some e) :: back)
    (hd : ((v.entriesAt st).map Prod.fst).Nodup) (g : StationEntry → StationEntry) :
    (v.mapEntry st n g).entriesAt st = done ++ (n, some (g e)) :: back := by
  obtain ⟨front, r, later, hrow, hx, hfront, hlater⟩ := State.rowAt_of_entriesAt h hd
  obtain ⟨rfl, he⟩ := Prod.mk.inj hx
  rw [State.entriesAt, (hrow.mapEntry he g).1, List.map_append, List.map_cons, RowCtx.withEntry_get, hfront, hlater]
  rfl

/-- The row before one, at a station. -/
theorem State.before?_entriesAt (h : v.entriesAt st = done ++ x :: back) (hd : ((v.entriesAt st).map Prod.fst).Nodup) :
    done.getLast? = (v.before? x.1).map fun q => (q.row, q.stations.get st) := by
  obtain ⟨front, r, later, hrow, rfl, rfl, -⟩ := State.rowAt_of_entriesAt h hd
  rw [hrow.before?, List.getLast?_map]

theorem liveAt_entry (q : RowCtx) (st : Fin 4) : liveAt (q.row, q.stations.get st) = q.liveStrike st := by
  unfold liveAt RowCtx.liveStrike
  cases q.stations.get st <;> rfl

/-- A strike given up to a splice, before the test of the throw (R85, R128). -/
def State.strikeWithdrawn (st : Fin 4) (n : Word) (v : State) : State :=
  (v.mapEntry st n fun e => { e with outcome := some .sacrificed }).serving st (State.withdraw n)

theorem State.sacrifice_cases (st : Fin 4) (n : Word) (v : State) :
    (v.sacrifice st n = v.strikeWithdrawn st n ∧
      ∃ p, (v.strikeWithdrawn st n).before? n = some p ∧ p.liveStrike st = true) ∨
    v.sacrifice st n = (v.strikeWithdrawn st n).openThrow st ∧
      ∀ p, (v.strikeWithdrawn st n).before? n = some p → p.liveStrike st = false := by
  unfold State.sacrifice State.strikeWithdrawn
  dsimp only
  generalize (v.mapEntry st n fun e => { e with outcome := some .sacrificed }).serving st (State.withdraw n) = w
  cases w.before? n with
  | none => exact .inr ⟨rfl, fun p hp => by cases hp⟩
  | some q =>
    cases hq : q.liveStrike st with
    | true => exact .inl ⟨if_pos hq, q, rfl, hq⟩
    | false => exact .inr ⟨if_neg (by simp [hq]), fun p hp => Option.some.inj hp ▸ hq⟩

/-- A strike given up to a splice (R85). -/
theorem State.sacrifice_spec (h : v.entriesAt st = done ++ (n, some e) :: back)
    (hd : ((v.entriesAt st).map Prod.fst).Nodup) :
    (v.sacrifice st n).entriesAt st = done ++ (n, some { e with outcome := some .sacrificed }) :: back ∧
      ((v.sacrifice st n).station st).risk = (v.station st).risk ∧
      throwOpened (v.station st) ((v.sacrifice st n).station st) (v.block st).throwOff
        (∀ p, done.getLast? = some p → liveAt p = false) ∧
      ∀ c, rowWithdrawn v (v.sacrifice st n) st c n := by
  obtain ⟨m, hm⟩ : ∃ m, m = v.mapEntry st n fun e => { e with outcome := some .sacrificed } := ⟨_, rfl⟩
  have hw : v.strikeWithdrawn st n = m.serving st (State.withdraw n) := by rw [hm]; rfl
  have hcases := State.sacrifice_cases st n v
  have hentries : (v.strikeWithdrawn st n).entriesAt st = done ++ (n, some { e with outcome := some .sacrificed }) :: back := by
    rw [hw, State.entriesAt_of_places (State.serving_withdraw_places n), hm]
    exact State.mapEntry_entriesAt h hd _
  have hstation : (v.strikeWithdrawn st n).station st = v.station st := by
    unfold State.station
    simp [State.strikeWithdrawn]
  have hblock : (v.strikeWithdrawn st n).block st = v.block st := State.block_congr (by simp [State.strikeWithdrawn]) st
  have hchannel : ∀ c, rowWithdrawn v (v.strikeWithdrawn st n) st c n := fun c => by
    have hgo : entriesGo st (fun _ e g => g.face = e.face) v m := by
      rw [hm]
      exact entriesGo_mapEntry n (fun _ => rfl) fun _ _ _ => rfl
    have hcur : m.cur = v.cur := by simp [hm]
    rw [hw]
    exact rowWithdrawn.congr (m.serving_withdraw_channel st c n) (by rw [hm]; rfl) hcur
      (fun hs a => hgo.faces hcur ((State.chanStation_congr hcur c).symm.trans hs) a) rfl (.refl _)
  generalize v.strikeWithdrawn st n = w at *
  have hd' : ((w.entriesAt st).map Prod.fst).Nodup := by
    rw [hentries]
    rw [h] at hd
    simpa using hd
  have hlive (p : RowCtx) (hp : w.before? n = some p) : done.getLast? = some (p.row, p.stations.get st) := by
    have hlast := State.before?_entriesAt hentries hd'
    rw [hp] at hlast
    exact hlast
  rcases hcases with ⟨hsac, q, hq, hqlive⟩ | ⟨hsac, hnone⟩
  · have hno : ¬ ∀ p, done.getLast? = some p → liveAt p = false := fun hall => by
      have := hall _ (hlive q hq)
      rw [liveAt_entry, hqlive] at this
      cases this
    rw [hsac, hstation]
    exact ⟨hentries, rfl, ⟨rfl, rfl, fun ho => absurd ho hno, fun _ => ⟨rfl, rfl⟩⟩, hchannel⟩
  · have hyes : ∀ p, done.getLast? = some p → liveAt p = false := fun p hp => by
      rw [State.before?_entriesAt hentries hd'] at hp
      obtain ⟨q, hq, rfl⟩ := Option.map_eq_some_iff.1 hp
      rw [liveAt_entry]
      exact hnone q hq
    rw [hsac]
    refine ⟨(State.entriesAt_of_places rfl st).trans hentries, ?_, ?_, fun c => ?_⟩
    · rw [State.openThrow_station, if_pos rfl, hstation, Station.openThrow_eq]
      split <;> rfl
    · rw [State.openThrow_station, if_pos rfl, hstation, hblock]
      refine ⟨?_, ?_, fun _ => ⟨rfl, rfl⟩, fun ho => absurd hyes ho⟩ <;> rw [Station.openThrow_eq] <;> split <;> rfl
    · exact (hchannel c).congr rfl rfl (fun _ _ => rfl) rfl
        ⟨.refl _, fun _ => id, fun _ _ => id, rfl, rfl⟩

/-- What the turn of row `x` does, where `done` are the entries before it and `back` those after it (R85). -/
structure rowGivenUp (f : StationEntry → Bool) (st : Fin 4) (n' : Word) (done : List (Word × Option StationEntry))
    (x : Word × Option StationEntry) (back : List (Word × Option StationEntry)) (v u : State) : Prop where
  grows : grows v u
  entries : u.entriesAt st = done ++ afterSplice f x :: back
  throw : throwOpened (v.station st) (u.station st) (v.block st).throwOff
    (givenUpAt f x = true ∧ ∀ p, done.getLast? = some p → liveAt p = false)
  risk : ∀ m, m ∈ (u.station st).risk ↔ m ∈ (v.station st).risk ∨ m = n' ∧ risksAt f x = true
  causes : risksAt f x = true → n' ∉ (v.station st).risk →
    u.attn.has .spliceRisk = true ∧ u.jobs.hasStop .spliceRisk = true
  taken : givenUpAt f x = true → ∀ c, rowWithdrawn v u st c x.1
  spared : givenUpAt f x = false → ∀ c, u.channel c = v.channel c

theorem throwOpened.refl (y : Station) {off : Nat} {p : Prop} (h : ¬ p) : throwOpened y y off p :=
  ⟨rfl, rfl, fun hp => absurd hp h, fun _ => ⟨rfl, rfl⟩⟩

/-- A row that does not foul the splice has no turn. -/
theorem rowGivenUp.of_clear (h : v.entriesAt st = done ++ x :: back) (hx : foulsAt f x = false) :
    rowGivenUp f st n done x back v v := by
  have hno : givenUpAt f x = false ∧ risksAt f x = false := by
    unfold givenUpAt risksAt
    cases hx' : x.2 with
    | none => exact ⟨rfl, rfl⟩
    | some e =>
      have he : f e = false := by simpa [foulsAt, hx'] using hx
      simp [he]
  refine ⟨.refl v, by rw [afterSplice_of_spared hno.1, h], .refl _ fun hp => ?_, fun m => ?_, fun hr => ?_, fun hg => ?_,
    fun _ _ => rfl⟩
  · rw [hno.1] at hp
    exact Bool.noConfusion hp.1
  · simp [hno.2]
  · rw [hno.2] at hr
    cases hr
  · rw [hno.1] at hg
    cases hg

theorem State.addRisk_station (st : Fin 4) (n : Word) (v : State) :
    throwOpened (v.station st) ((v.addRisk st n).station st) (v.block st).throwOff False ∧
      (∀ m, m ∈ ((v.addRisk st n).station st).risk ↔ m ∈ (v.station st).risk ∨ m = n) ∧
      (n ∉ (v.station st).risk →
        (v.addRisk st n).attn.has .spliceRisk = true ∧ (v.addRisk st n).jobs.hasStop .spliceRisk = true) := by
  unfold State.addRisk
  split
  · rename_i h
    have hmem : n ∈ (v.station st).risk := List.contains_iff_mem.1 h
    exact ⟨.refl _ id, fun m => ⟨.inl, fun hm => hm.elim id fun hm => hm ▸ hmem⟩, fun hn => absurd hmem hn⟩
  · have hstation : ((v.setStation st { v.station st with risk := (v.station st).risk ++ [n] }).raiseStop .spliceRisk
        .spliceRisk).station st = { v.station st with risk := (v.station st).risk ++ [n] } :=
      (State.station_setStation _ _ _ _).trans (if_pos rfl)
    rw [hstation]
    refine ⟨⟨rfl, rfl, False.elim, fun _ => ⟨rfl, rfl⟩⟩, fun m => by simp, fun _ => ⟨(Attention.raise_has _ _ _).2 (.inl rfl), ?_⟩⟩
    exact (JobControl.handStop_hasStop _ _ _).2 (.inl rfl)

/-- The turn of a row that fouls the splice (R85). -/
theorem rowGivenUp.of_fouled (h : v.entriesAt st = done ++ x :: back) (hd : ((v.entriesAt st).map Prod.fst).Nodup)
    (hx : foulsAt f x = true) : rowGivenUp f st n' done x back v (v.giveUpRow st n' x.1) := by
  obtain ⟨n, o⟩ := x
  obtain ⟨e, rfl, hf⟩ := (Option.any_eq_true f o).1 hx
  have hentry := State.entry?_of_entriesAt_split h hd
  unfold State.giveUpRow
  rw [hentry]
  dsimp only
  cases hstart : e.startTaken with
  | true =>
    have hspared : givenUpAt f (n, some e) = false := by simp [givenUpAt, hstart]
    have hrisks : risksAt f (n, some e) = true := by simp [risksAt, hstart, hf]
    obtain ⟨hthrow, hrisk, hcauses⟩ := State.addRisk_station st n' v
    rw [if_pos rfl]
    refine ⟨grows_addRisk st n' v, ?_, ⟨hthrow.state, hthrow.base, fun hp => ?_, fun _ => hthrow.stays id⟩, fun m => ?_,
      fun _ => hcauses, fun hg => ?_, fun _ c => ?_⟩
    · rw [afterSplice_of_spared hspared, ← h]
      unfold State.entriesAt
      simp
    · rw [hspared] at hp
      exact Bool.noConfusion hp.1
    · rw [hrisk]
      simp [hrisks]
    · rw [hspared] at hg
      cases hg
    · unfold State.channel
      simp
  | false =>
    have hgiven : givenUpAt f (n, some e) = true := givenUpAt_some.2 ⟨hf, hstart⟩
    have hrisks : risksAt f (n, some e) = false := by simp [risksAt, hstart]
    have hafter : afterSplice f (n, some e) = (n, some { e with outcome := some .sacrificed }) := by
      simp [afterSplice, StationEntry.afterSplice, hf, hstart]
    obtain ⟨hentries, hrisk, hthrow, hrows⟩ := State.sacrifice_spec h hd
    rw [if_neg Bool.false_ne_true]
    refine ⟨grows_sacrifice st n v, hafter ▸ hentries,
      ⟨hthrow.state, hthrow.base, fun hp => hthrow.opened hp.2, fun hp => hthrow.stays fun ho => hp ⟨hgiven, ho⟩⟩,
      fun m => ?_, fun hr => ?_, fun _ => hrows, fun hg => ?_⟩
    · rw [hrisk]
      simp [hrisks]
    · rw [hrisks] at hr
      cases hr
    · rw [hgiven] at hg
      cases hg

/-! ## All rows -/

/-- What the turns of the rows `rest` do, where `done` are the entries before them and `back` those after them (R85). -/
structure rowsGivenUp (f : StationEntry → Bool) (st : Fin 4) (n' : Word) (done rest back : List (Word × Option StationEntry))
    (v w : State) : Prop where
  grows : grows v w
  entries : w.entriesAt st = done ++ rest.map (afterSplice f) ++ back
  throw : throwOpened (v.station st) (w.station st) (v.block st).throwOff (throwOpens f done rest)
  risk : ∀ m, m ∈ (w.station st).risk ↔ m ∈ (v.station st).risk ∨ m = n' ∧ ∃ x ∈ rest, risksAt f x = true
  causes : (∃ x ∈ rest, risksAt f x = true) → n' ∉ (v.station st).risk →
    w.attn.has .spliceRisk = true ∧ w.jobs.hasStop .spliceRisk = true
  channels : ∀ c, v.chanStation c = some st →
    strokesWithdrawn v w c fun n => rest.any fun x => x.1 == n && givenUpAt f x
  others : ∀ c, v.chanStation c ≠ some st → w.channel c = v.channel c

/-- The faces that a channel reads are those of its station's entries. -/
theorem State.chanFace_of_entriesAt (h : (u.entriesAt st).map (fun x => (x.1, x.2.map StationEntry.face)) =
      (v.entriesAt st).map fun x => (x.1, x.2.map StationEntry.face)) (hcur : u.cur = v.cur)
    (hs : v.chanStation c = some st) (n : Word) : u.chanFace c n = v.chanFace c n := by
  have hread (t : State) : (t.entry? st n).map StationEntry.face =
      (((t.entriesAt st).map fun x => (x.1, x.2.map StationEntry.face)).find? fun x => x.1 == n).bind Prod.snd := by
    rw [State.entry?_eq_find, List.find?_map]
    simp only [Function.comp_def]
    cases (t.entriesAt st).find? fun x => x.1 == n <;> rfl
  have hface (t : State) (ht : t.chanStation c = some st) : t.chanFace c n = (t.entry? st n).map StationEntry.face := by
    rw [State.chanFace, ht]
    rfl
  rw [hface v hs, hface u ((State.chanStation_congr hcur c).trans hs), hread, hread, h]

theorem strokesWithdrawn.refl (s : State) (c : Fin 8) : strokesWithdrawn s s c fun _ => false := by
  refine ⟨fun _ => rfl, fun _ _ => ⟨fun _ => ?_, fun _ n hn => Bool.noConfusion hn⟩⟩
  have hplan : (s.channel c).plan.filter (fun _ => true) = (s.channel c).plan := by cases (s.channel c).plan <;> rfl
  simp only [Bool.not_false, hplan, List.filter_true]

theorem rowsGivenUp.nil (h : v.entriesAt st = done ++ back) : rowsGivenUp f st n' done [] back v v :=
  ⟨.refl v, by simpa using h, .refl _ id, by simp, by simp, fun c _ => .refl v c, fun _ _ => rfl⟩

theorem rowsGivenUp.cons (h : rowGivenUp f st n' done x (rest ++ back) v u) (hv : v.entriesAt st = done ++ x :: (rest ++ back))
    (h' : rowsGivenUp f st n' (done ++ [afterSplice f x]) rest back u w) : rowsGivenUp f st n' done (x :: rest) back v w := by
  have hstation (c : Fin 8) : u.chanStation c = v.chanStation c := State.chanStation_congr h.grows.cur c
  have hfaces (c : Fin 8) (hs : v.chanStation c = some st) : ∀ m, u.chanFace c m = v.chanFace c m := by
    refine State.chanFace_of_entriesAt ?_ h.grows.cur hs
    rw [h.entries, hv]
    have hface : StationEntry.face ∘ StationEntry.afterSplice f = StationEntry.face :=
      funext (StationEntry.afterSplice_face f)
    simp [afterSplice, hface]
  have hthrow := h'.throw
  rw [State.block_congr h.grows.cur] at hthrow
  refine ⟨h.grows.trans h'.grows, by simpa using h'.entries, h.throw.trans hthrow, fun m => ?_, fun hr hn => ?_,
    fun c hs => ?_, fun c hs => ?_⟩
  · rw [h'.risk, h.risk]
    simp only [List.mem_cons, exists_eq_or_imp]
    tauto
  · by_cases hx : risksAt f x = true
    · obtain ⟨ha, hj⟩ := h.causes hx hn
      exact ⟨h'.grows.attn.has _ ha, h'.grows.stops _ hj⟩
    · refine h'.causes ?_ fun hm => ?_
      · simpa [hx] using hr
      · rcases (h.risk _).1 hm with hm | hm
        · exact hn hm
        · exact hx hm.2
  · have hrest := h'.channels c ((hstation c).trans hs)
    cases hx : givenUpAt f x with
    | true =>
      have hall := strokesWithdrawn.cons (h.taken hx c) hrest hs (hfaces c hs) h'.grows
      simpa [hx, BEq.comm (b := x.1)] using hall
    | false =>
      have hall := hrest.of_start (h.spared hx c) (hfaces c hs)
      simpa [hx] using hall
  · rw [h'.others c ((hstation c) ▸ hs)]
    cases hx : givenUpAt f x with
    | true => exact (h.taken hx c).1 fun hl => hs hl.1
    | false => exact h.spared hx c

/-- The rows that foul a splice, given up oldest first (R85). -/
theorem State.giveUp_rowsGivenUp (h : v.entriesAt st = done ++ rest ++ back) (hd : ((v.entriesAt st).map Prod.fst).Nodup) :
    rowsGivenUp f st n' done rest back v (v.giveUp st n' ((rest.filter (foulsAt f)).map Prod.fst)) := by
  induction rest generalizing done v with
  | nil => exact .nil (by simpa using h)
  | cons x rest ih =>
    have hv : v.entriesAt st = done ++ x :: (rest ++ back) := by simpa using h
    have hstep {u : State} (hturn : rowGivenUp f st n' done x (rest ++ back) v u) :
        rowsGivenUp f st n' done (x :: rest) back v (u.giveUp st n' ((rest.filter (foulsAt f)).map Prod.fst)) := by
      have hu : u.entriesAt st = (done ++ [afterSplice f x]) ++ rest ++ back := by simpa using hturn.entries
      refine .cons hturn hv (ih hu ?_)
      rw [hu]
      rw [hv] at hd
      simpa [afterSplice] using hd
    by_cases hx : foulsAt f x = true
    · rw [List.filter_cons_of_pos hx, List.map_cons, State.giveUp_cons]
      exact hstep (.of_fouled hv hd hx)
    · rw [List.filter_cons_of_neg hx]
      exact hstep (.of_clear hv (by simpa using hx))

end

end Sys2Proof.Machine
end

section
/-! A station's part in a row open: the row placed, and tested against a splice (R28, R54, R61, R80, R85, R128). -/

namespace Sys2Proof.Machine

section
variable {s t u v : State} {st k : Fin 4} {c : Fin 8} {r : RowCtx} {n : Word} {l' : List (Word × Option StationEntry)}

/-! ## What the turn of one station leaves of the others -/

theorem grows_giveUp (st : Fin 4) (n : Word) (l : List Word) (s : State) : grows s (s.giveUp st n l) := by
  induction l generalizing s with
  | nil => exact .refl s
  | cons m l ih =>
    rw [State.giveUp_cons]
    refine grows.trans ?_ (ih _)
    unfold State.giveUpRow
    split
    · split
      · exact grows_addRisk st n s
      · exact grows_sacrifice st m s
    · exact .refl s

theorem grows_placeRow (st : Fin 4) (r : RowCtx) (s : State) : grows s (s.placeRow st r) :=
  ⟨State.placeRow_raised st r (.refl _), fun x hx => by simpa using hx,
    fun c n hl => hl.mapRow (f := fun q => { q with stations := q.stations.set st (some (s.newEntry st r)) })
      (fun _ => rfl) (fun _ => rfl) r.row, by simp, by simp⟩

theorem grows_stationOpen (r : RowCtx) (st : Fin 4) (s : State) : grows s (s.stationOpen r st) := by
  unfold State.stationOpen State.spliceTest
  split
  · split
    · exact (grows_placeRow st r s).trans (grows_giveUp st _ _ _)
    · exact grows_placeRow st r s
  · exact .refl s

/-- A strike given up is withdrawn from the channels of its own station alone (R128). -/
theorem State.sacrifice_channel (hs : s.chanStation c ≠ some st) (n : Word) : (s.sacrifice st n).channel c = s.channel c := by
  have hw : (s.strikeWithdrawn st n).channel c = s.channel c := by
    obtain ⟨m, hm⟩ : ∃ m, m = s.mapEntry st n fun e => { e with outcome := some .sacrificed } := ⟨_, rfl⟩
    have hserved : s.strikeWithdrawn st n = m.serving st (State.withdraw n) := by rw [hm]; rfl
    have hcur : m.cur = s.cur := by rw [hm]; rfl
    have hch : m.channel c = s.channel c := by rw [hm]; rfl
    rw [hserved, (State.serving_withdraw_channel m st c n).1 fun hl => hs ((State.chanStation_congr hcur c).symm.trans hl.1), hch]
  have hopen (u : State) : (u.openThrow st).channel c = u.channel c := rfl
  rcases State.sacrifice_cases st n s with ⟨he, -⟩ | ⟨he, -⟩
  · rw [he, hw]
  · rw [he, hopen, hw]

theorem State.giveUp_channel (hs : s.chanStation c ≠ some st) (n : Word) (l : List Word) :
    (s.giveUp st n l).channel c = s.channel c := by
  induction l generalizing s with
  | nil => rfl
  | cons m l ih =>
    have hrow : (s.giveUpRow st n m).channel c = s.channel c ∧ (s.giveUpRow st n m).cur = s.cur := by
      unfold State.giveUpRow
      split
      · split
        · exact ⟨by unfold State.channel; simp, by simp⟩
        · exact ⟨State.sacrifice_channel hs m, by simp⟩
      · exact ⟨rfl, rfl⟩
    rw [State.giveUp_cons, ih (by rwa [State.chanStation_congr hrow.2]), hrow.1]

theorem State.stationOpen_channel (hs : s.chanStation c ≠ some st) (r : RowCtx) :
    (s.stationOpen r st).channel c = s.channel c := by
  have hplace : (s.placeRow st r).channel c = s.channel c := rfl
  unfold State.stationOpen State.spliceTest
  split
  · split
    · rw [State.giveUp_channel (by rwa [State.chanStation_congr (s := s) (by simp)]), hplace]
    · exact hplace
  · rfl

/-! ## The turn of a station -/

/-- A station's part in the opening of row `r`, read of the state `s` before the open (R31, R54, R61, R80, R85, R128). -/
structure stationOpened (s : State) (r : RowCtx) (st : Fin 4) (t : State) : Prop where
  state : (t.station st).state = (s.station st).state
  inactive : (s.station st).state = .inactive → t.entriesAt st = s.entriesAt st ++ [(r.row, none)] ∧
    (t.station st).base = (s.station st).base
  active : (s.station st).state ≠ .inactive →
    (t.station st).base = nearest (s.station st).base (s.arrival st r) (s.plate st).revolution
  untested : ¬ (r.verdict = .splice ∧ (s.station st).state = .tracking) →
    ((s.station st).state ≠ .inactive → t.entriesAt st = s.entriesAt st ++ [(r.row, some (s.newEntry st r))]) ∧
    (t.station st).throw = (s.station st).throw ∧ (t.station st).timer = (s.station st).timer ∧
    (t.station st).risk = (s.station st).risk ∧ ∀ c, s.chanStation c = some st → t.channel c = s.channel c
  tested : r.verdict = .splice ∧ (s.station st).state = .tracking →
    let f := s.fouled st r.lead
    t.entriesAt st = (s.entriesAt st).map (afterSplice f) ++ [(r.row, some (s.newEntry st r))] ∧
    (throwOpens f [] (s.entriesAt st) → (t.station st).throw = ((s.station st).openThrow (s.block st).throwOff).throw ∧
      (t.station st).timer = ((s.station st).openThrow (s.block st).throwOff).timer) ∧
    (¬ throwOpens f [] (s.entriesAt st) →
      (t.station st).throw = (s.station st).throw ∧ (t.station st).timer = (s.station st).timer) ∧
    (∀ m, m ∈ (t.station st).risk ↔ m ∈ (s.station st).risk ∨ m = r.row ∧ ∃ x ∈ s.entriesAt st, risksAt f x = true) ∧
    ((∃ x ∈ s.entriesAt st, risksAt f x = true) → r.row ∉ (s.station st).risk →
      t.attn.has .spliceRisk = true ∧ t.jobs.hasStop .spliceRisk = true) ∧
    ∀ c, s.chanStation c = some st →
      strokesWithdrawn s t c fun n => (s.entriesAt st).any fun x => x.1 == n && givenUpAt f x

/-- The turns of the other stations leave it. -/
theorem stationOpened.mono (h : stationOpened s r st u) (hg : grows u v) (hat : v.atStation st = u.atStation st)
    (hch : ∀ c, s.chanStation c = some st → v.channel c = u.channel c) : stationOpened s r st v := by
  have hstation : v.station st = u.station st := congrArg Prod.fst hat
  have hentries := State.entriesAt_of_atStation hat
  refine ⟨hstation ▸ h.state, fun hi => ?_, fun ha => ?_, fun hno => ?_, fun htest => ?_⟩
  · rw [hstation, hentries]
    exact h.inactive hi
  · rw [hstation]
    exact h.active ha
  · rw [hstation, hentries]
    obtain ⟨hplaced, hthrow, htimer, hrisk, hchannel⟩ := h.untested hno
    exact ⟨hplaced, hthrow, htimer, hrisk, fun c hc => (hch c hc).trans (hchannel c hc)⟩
  · have hall := h.tested htest
    dsimp only at hall ⊢
    rw [hstation, hentries]
    obtain ⟨hplaced, hopens, hstays, hrisk, hcauses, hchannel⟩ := hall
    refine ⟨hplaced, hopens, hstays, hrisk, fun hr hn => ?_, fun c hc => ?_⟩
    · obtain ⟨ha, hj⟩ := hcauses hr hn
      exact ⟨hg.attn.has _ ha, hg.stops _ hj⟩
    · exact (hchannel c hc).mono (hch c hc) hg.wpu (hg.attn.has _) (hg.late c)

/-- The strikes that a new row fouls, read of the entries before it. -/
theorem State.splicedStrikes_eq (hrows : ∀ q ∈ s.track, q.row ≠ r.row) (hcur : v.cur = s.cur) (hwpu : v.wpu = s.wpu)
    {o : Option StationEntry} (hv : v.entriesAt st = s.entriesAt st ++ [(r.row, o)]) :
    v.splicedStrikes st r = ((s.entriesAt st).filter (foulsAt (s.fouled st r.lead))).map Prod.fst := by
  have hclears (e : StationEntry) : v.clearsBefore st e r = s.clearsBefore st e r := by
    simp only [State.clearsBefore, State.spanStart, State.arrival, State.openDistance, State.planned, hwpu,
      State.block_congr hcur]
  have hread : v.splicedStrikes st r = ((v.entriesAt st).filter fun x =>
      x.1 != r.row && foulsAt (s.fouled st r.lead) x).map Prod.fst := by
    unfold State.splicedStrikes State.entriesAt
    rw [List.filter_map, List.map_map]
    refine congrArg (List.map RowCtx.row) (List.filter_congr fun q _ => ?_)
    simp only [Function.comp_apply, RowCtx.liveStrike, foulsAt]
    cases q.stations.get st with
    | none => simp
    | some e =>
      rw [Bool.and_assoc]
      simp only [hclears]
      rfl
  have hfilter : (s.entriesAt st).filter (fun x => x.1 != r.row && foulsAt (s.fouled st r.lead) x) =
      (s.entriesAt st).filter (foulsAt (s.fouled st r.lead)) := by
    refine List.filter_congr fun x hx => ?_
    obtain ⟨q, hq, rfl⟩ := List.mem_map.1 hx
    simp [hrows q hq]
  rw [hread, hv, List.filter_append, hfilter]
  simp

/-- A row placed at a station (R31, R54, R61, R80). -/
theorem State.placeRow_spec (hrows : ∀ q ∈ s.track, q.row ≠ r.row) (hcur : u.cur = s.cur) (hst : u.station st = s.station st)
    (hu : u.entriesAt st = s.entriesAt st ++ [(r.row, none)]) :
    (u.placeRow st r).entriesAt st = s.entriesAt st ++ [(r.row, some (s.newEntry st r))] ∧
      (u.placeRow st r).station st =
        { s.station st with base := nearest (s.station st).base (s.arrival st r) (s.plate st).revolution } := by
  have harrival : u.arrival st r = s.arrival st r := by rw [State.arrival, State.block_congr hcur, State.arrival]
  have hplate : u.plate st = s.plate st := State.plate_congr hcur st
  have himages : u.zoneImages st = s.zoneImages st := by
    rw [State.zoneImages, hplate, State.job_congr hcur, State.zoneImages]
  have hentry : u.newEntry st r = s.newEntry st r := by
    simp only [State.newEntry, hst, harrival, State.pitch, hplate, State.zoneStartOffset, State.zoneEndOffset, himages,
      State.block_congr hcur]
  have htrack : (u.placeRow st r).track = u.track.map fun q =>
      if q.row = r.row then { q with stations := q.stations.set st (some (u.newEntry st r)) } else q := rfl
  have hmap : (u.placeRow st r).entriesAt st =
      (u.entriesAt st).map fun x => if x.1 = r.row then (x.1, some (u.newEntry st r)) else x := by
    rw [State.entriesAt, htrack, State.entriesAt, List.map_map, List.map_map]
    refine List.map_congr_left fun q _ => ?_
    simp only [Function.comp_apply]
    split <;> simp
  constructor
  · have hstay : (s.entriesAt st).map (fun x => if x.1 = r.row then (x.1, some (u.newEntry st r)) else x) = s.entriesAt st := by
      refine (List.map_congr_left fun x hx => ?_).trans (List.map_id' _)
      obtain ⟨q, hq, rfl⟩ := List.mem_map.1 hx
      exact if_neg (hrows q hq)
    rw [hmap, hu, List.map_append, hstay, hentry]
    simp
  · refine (State.station_setStation _ _ _ _).trans ((if_pos rfl).trans ?_)
    change { u.station st with base := nearest (u.station st).base (u.arrival st r) (u.plate st).revolution } = _
    rw [hst, harrival, hplate]

/-- The faces of the rows before the open stay after a row more is placed. -/
theorem State.chanFace_of_placed (hcur : v.cur = s.cur) (hv : v.entriesAt st = s.entriesAt st ++ l')
    (hs : s.chanStation c = some st) {f : Pos} (h : s.chanFace c n = some f) : v.chanFace c n = some f := by
  have hface (t : State) (ht : t.chanStation c = some st) : t.chanFace c n =
      (((t.entriesAt st).find? fun x => x.1 == n).bind Prod.snd).map StationEntry.face := by
    rw [State.chanFace, ht, Option.bind_some, State.entry?_eq_find]
  rw [hface s hs] at h
  rw [hface v ((State.chanStation_congr hcur c).trans hs), hv, List.find?_append]
  cases hfound : (s.entriesAt st).find? fun x => x.1 == n with
  | none => simp [hfound] at h
  | some x => simpa [hfound] using h

theorem strokesWithdrawn.of_placed {lost : Word → Bool} (h : strokesWithdrawn u t c lost) (hch : u.channel c = s.channel c)
    (hf : ∀ n f, s.chanFace c n = some f → u.chanFace c n = some f) : strokesWithdrawn s t c lost := by
  unfold strokesWithdrawn at *
  dsimp only at *
  rw [hch] at h
  obtain ⟨hstays, hacts⟩ := h
  refine ⟨hstays, fun hi hp => ⟨(hacts hi hp).1, fun hs n hn hk hone => ?_⟩⟩
  obtain ⟨hacc, htaken⟩ := (hacts hi hp).2 hs n hn hk hone
  exact ⟨hacc, htaken.1, fun k len f hk hface => htaken.2 k len f hk (hf _ _ hface)⟩

theorem Station.openThrow_throw {x y : Station} (ht : y.throw = x.throw) (hm : y.timer = x.timer) (off : Nat) :
    (y.openThrow off).throw = (x.openThrow off).throw ∧ (y.openThrow off).timer = (x.openThrow off).timer := by
  simp only [Station.openThrow_eq, ht]
  split
  · exact ⟨rfl, rfl⟩
  · exact ⟨ht, hm⟩

/-- A station's own turn, where the row stands on the track without an entry there. -/
theorem stationOpened.of_turn (hrows : ∀ q ∈ s.track, q.row ≠ r.row) (hd : ((s.entriesAt st).map Prod.fst).Nodup)
    (hcur : u.cur = s.cur) (hwpu : u.wpu = s.wpu) (hst : u.station st = s.station st)
    (hu : u.entriesAt st = s.entriesAt st ++ [(r.row, none)])
    (hch : ∀ c, s.chanStation c = some st → u.channel c = s.channel c) : stationOpened s r st (u.stationOpen r st) := by
  have hactive : u.activeAt st = true ↔ (s.station st).state ≠ .inactive := by simp [State.activeAt, hst]
  by_cases hi : (s.station st).state = .inactive
  · have hsame : u.stationOpen r st = u := if_neg fun h => hactive.1 h hi
    rw [hsame]
    exact ⟨by rw [hst], fun _ => ⟨hu, by rw [hst]⟩, fun h => absurd hi h,
      fun _ => ⟨fun h => absurd hi h, by rw [hst], by rw [hst], by rw [hst], hch⟩, fun h => by simp [hi] at h⟩
  · have hturn : u.stationOpen r st = (u.placeRow st r).spliceTest st r := if_pos (hactive.2 hi)
    obtain ⟨hentries, hstation⟩ := State.placeRow_spec hrows hcur hst hu
    have hgrows := grows_placeRow st r u
    have hvcur : (u.placeRow st r).cur = s.cur := hgrows.cur.trans hcur
    have hvwpu : (u.placeRow st r).wpu = s.wpu := hgrows.wpu.trans hwpu
    have hvch (c : Fin 8) (hs : s.chanStation c = some st) : (u.placeRow st r).channel c = s.channel c := hch c hs
    rw [hturn]
    generalize u.placeRow st r = v at *
    by_cases htest : r.verdict = .splice ∧ (s.station st).state = .tracking
    · have hgive : v.spliceTest st r = v.giveUp st r.row (v.splicedStrikes st r) := by
        unfold State.spliceTest
        rw [if_pos (by simp [hstation, htest])]
      rw [hgive, State.splicedStrikes_eq hrows hvcur hvwpu hentries]
      have hdv : ((v.entriesAt st).map Prod.fst).Nodup := by
        rw [hentries, List.map_append, List.nodup_append]
        refine ⟨hd, by simp, fun a ha b hb => ?_⟩
        obtain ⟨x, hx, rfl⟩ := List.mem_map.1 ha
        obtain ⟨q, hq, rfl⟩ := List.mem_map.1 hx
        simp only [List.map_cons, List.map_nil, List.mem_singleton] at hb
        rw [hb]
        exact hrows q hq
      have hgiven := State.giveUp_rowsGivenUp (f := s.fouled st r.lead) (n' := r.row) (done := []) (rest := s.entriesAt st)
        (back := [(r.row, some (s.newEntry st r))]) (by simpa using hentries) hdv
      generalize v.giveUp st r.row _ = w at *
      obtain ⟨-, hwent, hthrow, hrisk, hcauses, hchannels, -⟩ := hgiven
      rw [hstation] at hthrow hrisk hcauses
      rw [State.block_congr hvcur] at hthrow
      refine ⟨hthrow.state, fun h => absurd h hi, fun _ => hthrow.base, fun h => absurd htest h, fun _ => ?_⟩
      refine ⟨by simpa using hwent, fun ho => ?_, hthrow.stays, hrisk, hcauses, fun c hs => ?_⟩
      · obtain ⟨ht, hm⟩ := hthrow.opened ho
        obtain ⟨ht', hm'⟩ := Station.openThrow_throw (x := s.station st)
          (y := { s.station st with base := nearest (s.station st).base (s.arrival st r) (s.plate st).revolution }) rfl rfl
          (s.block st).throwOff
        exact ⟨ht.trans ht', hm.trans hm'⟩
      · exact (hchannels c ((State.chanStation_congr hvcur c).trans hs)).of_placed (hvch c hs)
          fun n f => State.chanFace_of_placed hvcur hentries hs
    · have hsame : v.spliceTest st r = v := by
        unfold State.spliceTest
        rw [if_neg (by simpa [hstation] using htest)]
      rw [hsame]
      refine ⟨by rw [hstation], fun h => absurd h hi, fun _ => by rw [hstation],
        fun _ => ⟨fun _ => hentries, by rw [hstation], by rw [hstation], by rw [hstation], hvch⟩, fun h => absurd h htest⟩

end

end Sys2Proof.Machine
end

section
/-! A row open with room on the track: the new row with its lanes, its places and its test against a splice (R27 to R31,
R43, R54, R61, R80, R85, R128). -/

namespace Sys2Proof.Machine

section
variable {s t u : State} {st : Fin 4} {c : Fin 8} {r q : RowCtx} {status : MarkStatus} {lead : Pos}

/-! ## The turns of all stations -/

/-- Before the stations' turns the new row stands at the tail of the track, without an entry at any of them. -/
theorem State.rowBegun_stations (s : State) (status : MarkStatus) (lead : Pos) :
    (s.rowBegun status lead).stations = s.stations ∧ (s.rowBegun status lead).channels = s.channels ∧
      ∀ st, (s.rowBegun status lead).entriesAt st = s.entriesAt st ++ [(s.mark.nextRow, none)] := by
  have hplaces : (s.rowBegun status lead).places = (s.appendRow (s.newRow status lead)).places := by
    have hlanes : (forLanes (State.openLane (s.newRow status lead).row lead) (s.appendRow (s.newRow status lead))).places =
        (s.appendRow (s.newRow status lead)).places :=
      forLanes_induct (P := fun u => u.places = (s.appendRow (s.newRow status lead)).places)
        (fun l u hu => (State.places_openLane lead l).trans hu) rfl
    rw [← hlanes]
    unfold State.rowBegun State.places
    simp
  refine ⟨by unfold State.rowBegun; simp [forLanes], by unfold State.rowBegun; simp [forLanes], fun st => ?_⟩
  rw [State.entriesAt_of_places hplaces, State.entriesAt, State.appendRow_track, List.map_append]
  simp [State.newRow, State.entriesAt]

/-- Each station's part in a row open with room. -/
theorem State.openRow_stationOpened (hok : s.trackOk) (h : s.track.length < 32) (status : MarkStatus) (lead : Pos)
    (st : Fin 4) : stationOpened s (s.newRow status lead) st (s.openRow status lead) := by
  obtain ⟨hstations, hchannels, hentries⟩ := s.rowBegun_stations status lead
  obtain ⟨-, -, hcur, hwpu⟩ := s.rowBegun_frame status lead
  have hd : ((s.entriesAt st).map Prod.fst).Nodup := by
    rw [State.entriesAt, List.map_map]
    exact List.pairwise_map.2 hok.pairwise_rows
  rw [State.openRow_of_room s status lead h]
  generalize s.rowBegun status lead = b at *
  have hserves {u : State} {c : Fin 8} (hc : u.cur = s.cur) {k : Fin 4} (hk : k ≠ st) (hs : s.chanStation c = some st) :
      u.chanStation c ≠ some k := by
    rw [State.chanStation_congr hc, hs]
    simpa using hk.symm
  refine forStations_at st
    (P := fun u => u.cur = s.cur ∧ u.wpu = s.wpu ∧ u.atStation st = b.atStation st ∧
      ∀ c, s.chanStation c = some st → u.channel c = s.channel c)
    (Q := fun u => u.cur = s.cur ∧ stationOpened s (s.newRow status lead) st u)
    (fun k u hk ⟨huc, huw, hat, hch⟩ => ⟨by simp [huc], by simp [huw], (State.atStation_stationOpen hk.symm _).trans hat,
      fun c hs => (State.stationOpen_channel (hserves huc hk hs) _).trans (hch c hs)⟩)
    (fun u ⟨huc, huw, hat, hch⟩ => ⟨by simp [huc], ?_⟩)
    (fun k u hk ⟨huc, hopened⟩ => ⟨by simp [huc], hopened.mono (grows_stationOpen _ k u) (State.atStation_stationOpen hk.symm _)
      fun c hs => State.stationOpen_channel (hserves huc hk hs) _⟩)
    ⟨hcur, hwpu, rfl, fun c _ => by rw [State.channel, hchannels, State.channel]⟩ |>.2
  have hst : u.station st = s.station st := (congrArg Prod.fst hat).trans
    (show b.station st = s.station st by rw [State.station, hstations, State.station])
  exact .of_turn hok.ne_next hd huc huw hst ((State.entriesAt_of_atStation hat).trans (hentries st)) hch

/-- The channels that serve no station have no part in a row open. -/
theorem State.openRow_channel (h : s.track.length < 32) (status : MarkStatus) (lead : Pos) (hs : s.chanStation c = none) :
    (s.openRow status lead).channel c = s.channel c := by
  obtain ⟨-, hchannels, -⟩ := s.rowBegun_stations status lead
  obtain ⟨-, -, hcur, -⟩ := s.rowBegun_frame status lead
  rw [State.openRow_of_room s status lead h]
  refine (forStations_induct (P := fun u => u.cur = s.cur ∧ u.channel c = s.channel c) (fun k u ⟨huc, hch⟩ => ?_)
    ⟨hcur, by rw [State.channel, hchannels, State.channel]⟩).2
  exact ⟨by simp [huc], (State.stationOpen_channel (by rw [State.chanStation_congr huc, hs]; simp) _).trans hch⟩

/-! ## What it says of the row -/

theorem State.newEntry_congr (h : q.lead = r.lead) (s : State) (st : Fin 4) : s.newEntry st q = s.newEntry st r := by
  simp only [State.newEntry, State.arrival, h]

/-- The last entry at a station is that of the last row. -/
theorem State.entriesAt_getLast (hr : t.track.getLast? = some r) :
    (t.entriesAt st).getLast? = some (r.row, r.stations.get st) := by
  rw [State.entriesAt, List.getLast?_map, hr]
  rfl

/-- A new row as the stations place it (R31, R54, R61, R80). -/
theorem rowPlaced_of_stationOpened (h : ∀ st, stationOpened s q st t) (hr : t.track.getLast? = some r)
    (hlead : r.lead = q.lead) : rowPlaced s t r := by
  intro st
  have hlast := State.entriesAt_getLast (st := st) hr
  refine ⟨fun hi => ?_, fun hi => ?_⟩
  · obtain ⟨hentries, hbase⟩ := (h st).inactive hi
    rw [hentries, List.getLast?_concat] at hlast
    exact ⟨(Prod.mk.inj (Option.some.inj hlast)).2.symm, hbase⟩
  · have hentry : r.stations.get st = some (s.newEntry st r) := by
      rw [State.newEntry_congr hlead]
      by_cases htest : q.verdict = .splice ∧ (s.station st).state = .tracking
      · obtain ⟨hentries, -⟩ := (h st).tested htest
        rw [hentries, List.getLast?_concat] at hlast
        exact (Prod.mk.inj (Option.some.inj hlast)).2.symm
      · obtain ⟨hentries, -⟩ := (h st).untested htest
        rw [hentries hi, List.getLast?_concat] at hlast
        exact (Prod.mk.inj (Option.some.inj hlast)).2.symm
    have hbase : (t.station st).base = nearest (s.station st).base (s.arrival st r) (s.plate st).revolution := by
      rw [(h st).active hi, State.arrival, State.arrival, hlead]
    refine ⟨⟨_, hentry, rfl, rfl, rfl, rfl, rfl, rfl, s.newEntry_zoned st r, fun hp => placedOn_nearest _ _ hp⟩, fun hp => ?_⟩
    rw [hbase]
    exact placedOn_nearest _ _ hp

/-- The throw opens at a splice test exactly for a strike given up after no live strike but one given up itself (R85). -/
theorem State.throwOpens_iff (hok : s.trackOk) (f : StationEntry → Bool) : throwOpens f [] (s.entriesAt st) ↔
    ∃ q ∈ s.track, givenUpAt f (q.row, q.stations.get st) = true ∧
      ∀ p, s.before? q.row = some p → p.liveStrike st = false ∨ givenUpAt f (p.row, p.stations.get st) = true := by
  have hd : ((s.entriesAt st).map Prod.fst).Nodup := by
    rw [State.entriesAt, List.map_map]
    exact List.pairwise_map.2 hok.pairwise_rows
  have hbefore {a b : List (Word × Option StationEntry)} {x : Word × Option StationEntry} (hx : s.entriesAt st = a ++ x :: b) :
      (∀ p, ([] ++ a.map (afterSplice f)).getLast? = some p → liveAt p = false) ↔
        ∀ p, s.before? x.1 = some p → p.liveStrike st = false ∨ givenUpAt f (p.row, p.stations.get st) = true := by
    rw [List.nil_append, List.getLast?_map, State.before?_entriesAt hx hd]
    cases s.before? x.1 with
    | none => simp
    | some p => cases hp : p.liveStrike st <;> simp [liveAt_afterSplice, liveAt_entry, hp]
  rw [Machine.throwOpens_iff]
  constructor
  · rintro ⟨a, x, b, hx, hgiven, hlast⟩
    have hmem : x ∈ s.entriesAt st := by rw [hx]; simp
    obtain ⟨q, hq, rfl⟩ := List.mem_map.1 hmem
    exact ⟨q, hq, hgiven, (hbefore hx).1 hlast⟩
  · rintro ⟨q, hq, hgiven, hprev⟩
    obtain ⟨a, b, hx⟩ := List.append_of_mem (List.mem_map_of_mem (f := fun r => (r.row, r.stations.get st)) hq)
    exact ⟨a, _, b, hx, hgiven, (hbefore hx).2 hprev⟩

theorem givenUpAt_iff {f : StationEntry → Bool} (q : RowCtx) : givenUpAt f (q.row, q.stations.get st) = true ↔
    ∃ e, q.stations.get st = some e ∧ f e = true ∧ e.startTaken = false := by
  cases hq : q.stations.get st <;> simp [givenUpAt]

theorem State.risksAt_iff (f : StationEntry → Bool) : (∃ x ∈ s.entriesAt st, risksAt f x = true) ↔
    ∃ q ∈ s.track, ∃ e, q.stations.get st = some e ∧ f e = true ∧ e.startTaken = true := by
  rw [State.entriesAt]
  simp only [List.mem_map, exists_exists_and_eq_and]
  refine exists_congr fun q => and_congr_right fun _ => ?_
  cases hq : q.stations.get st <;> simp [risksAt]

/-- The rows before the new one, at a station. -/
theorem State.entriesAt_dropLast {l : List (Word × Option StationEntry)} {x : Word × Option StationEntry}
    (h : t.entriesAt st = l ++ [x]) : t.track.dropLast.map (fun q => (q.row, q.stations.get st)) = l := by
  rw [List.map_dropLast]
  change (t.entriesAt st).dropLast = l
  rw [h, List.dropLast_concat]

/-- A new row as the stations test it against a splice (R85, R128). -/
theorem spliceTested_of_stationOpened (hok : s.trackOk) (h : ∀ st, stationOpened s q st t) (hrow : r.row = q.row)
    (hlead : r.lead = q.lead) (hverdict : r.verdict = q.verdict)
    (hfree : ∀ c, s.chanStation c = none → t.channel c = s.channel c) : spliceTested s t r := by
  refine ⟨hfree, fun st => ?_⟩
  intro tests fails x y givenUp opens atRisk sacrificed
  have htests : tests ↔ q.verdict = .splice ∧ (s.station st).state = .tracking := by rw [← hverdict]
  refine ⟨(h st).state, fun hno => ?_, fun hyes => ?_⟩
  · obtain ⟨hentries, hthrow, htimer, hrisk, hch⟩ := (h st).untested fun ht => hno (htests.2 ht)
    refine ⟨?_, hthrow, htimer, hrisk, hch⟩
    by_cases hi : (s.station st).state = .inactive
    · exact State.entriesAt_dropLast ((h st).inactive hi).1
    · exact State.entriesAt_dropLast (hentries hi)
  · have hall := (h st).tested (htests.1 hyes)
    rw [← hlead, ← hrow] at hall
    obtain ⟨hentries, hopened, hstays, hrisk, hcauses, hch⟩ := hall
    have hthrows : throwOpens fails [] (s.entriesAt st) ↔ ∃ q ∈ s.track, givenUp q ∧
        ∀ p, s.before? q.row = some p → p.liveStrike st = false ∨ givenUp p := by
      rw [State.throwOpens_iff hok]
      simp only [givenUpAt_iff]
      rfl
    refine ⟨?_, fun ⟨hfor, hengaged⟩ => ?_, fun hno => ?_, fun n => ?_, fun hr hn => ?_, fun c hs => ?_⟩
    · rw [State.entriesAt_dropLast hentries, State.entriesAt, List.map_map]
      rfl
    · obtain ⟨ht, hm⟩ := hopened (hthrows.2 hfor)
      rw [Station.openThrow_eq, if_pos hengaged] at ht hm
      exact ⟨ht, hm⟩
    · by_cases hfor : throwOpens fails [] (s.entriesAt st)
      · obtain ⟨ht, hm⟩ := hopened hfor
        rw [Station.openThrow_eq, if_neg fun he => hno ⟨hthrows.1 hfor, he⟩] at ht hm
        exact ⟨ht, hm⟩
      · exact hstays hfor
    · exact (hrisk n).trans (or_congr_right (and_congr_right fun _ => State.risksAt_iff fails))
    · exact hcauses ((State.risksAt_iff fails).2 hr) hn
    · have hlost : sacrificed = fun n => (s.entriesAt st).any fun x => x.1 == n && givenUpAt fails x := by
        funext n
        rw [State.entriesAt, List.any_map]
        rfl
      rw [hlost]
      exact hch c hs

end

end Sys2Proof.Machine
end

section
/-! The attention causes of a row open, and the row open as a whole (R23 to R25, R27 to R31, R43, R54, R61, R80, R85,
R145). -/

namespace Sys2Proof.Machine

section
variable {s u : State} {st : Fin 4} {a b : AttnCause} {lead : Pos}

/-! ## Causes that stay clear -/

theorem Attention.raise_lacks {x : Attention} (hne : a ≠ b) (h : x.has a = false) : (x.raise b).has a = false := by
  rw [← Bool.not_eq_true] at *
  exact fun hr => ((Attention.raise_has _ _ _).1 hr).elim hne h

theorem State.markLate_attn (c : Fin 8) (n : Word) (s : State) : (s.markLate c n).attn = s.attn.raise .foilLate := rfl

/-- A channel that takes its ramp up raises at most FOIL_LATE (R108). -/
theorem State.tryRampUp_lacks (hl : a ≠ .foilLate) (c : Fin 8) (p : Pos) (h : s.attn.has a = false) :
    (s.tryRampUp c p).attn.has a = false := by
  have hset (x : Channel) : (s.setChannel c x).attn = s.attn := rfl
  rcases s.tryRampUp_cases c p with he | ⟨k, -, he | he⟩
  · rwa [he]
  · rwa [he, hset]
  · rw [he, State.markLate_attn, hset]
    exact Attention.raise_lacks hl h

theorem State.serving_withdraw_lacks (hl : a ≠ .foilLate) (n : Word) (h : s.attn.has a = false) :
    (s.serving st (State.withdraw n)).attn.has a = false := by
  refine forChannels_induct (P := fun u => u.attn.has a = false) (fun c u hu => ?_) h
  unfold State.withdraw
  dsimp only
  split
  · split
    · exact State.tryRampUp_lacks (s := u.setChannel c ((u.channel c).withoutRow n)) hl c u.wpu.highWater hu
    · exact hu
  · exact hu

theorem State.sacrifice_lacks (hl : a ≠ .foilLate) (n : Word) (h : s.attn.has a = false) :
    (s.sacrifice st n).attn.has a = false := by
  have hserved : (s.strikeWithdrawn st n).attn.has a = false := by
    obtain ⟨m, hm⟩ : ∃ m, m = s.mapEntry st n fun e => { e with outcome := some .sacrificed } := ⟨_, rfl⟩
    have heq : s.strikeWithdrawn st n = m.serving st (State.withdraw n) := by rw [hm]; rfl
    have hattn : m.attn = s.attn := by rw [hm]; rfl
    rw [heq]
    exact State.serving_withdraw_lacks hl n (hattn ▸ h)
  have hopen (u : State) : (u.openThrow st).attn = u.attn := rfl
  rcases State.sacrifice_cases st n s with ⟨he, -⟩ | ⟨he, -⟩
  · simpa only [he] using hserved
  · simpa only [he, hopen] using hserved

theorem State.addRisk_lacks (hr : a ≠ .spliceRisk) (n : Word) (h : s.attn.has a = false) :
    (s.addRisk st n).attn.has a = false := by
  unfold State.addRisk
  split
  · exact h
  · exact Attention.raise_lacks hr h

/-- A station's part in a row open raises at most FOIL_LATE and SPLICE_RISK (R85, R108). -/
theorem State.stationOpen_lacks (hl : a ≠ .foilLate) (hr : a ≠ .spliceRisk) (r : RowCtx) (h : s.attn.has a = false) :
    (s.stationOpen r st).attn.has a = false := by
  have hgive (l : List Word) : ∀ u : State, u.attn.has a = false → (u.giveUp st r.row l).attn.has a = false := by
    induction l with
    | nil => exact fun u hu => hu
    | cons m l ih =>
      refine fun u hu => ih _ ?_
      split
      · split
        · exact State.addRisk_lacks hr r.row hu
        · exact State.sacrifice_lacks hl m hu
      · exact hu
  have hplace : (s.placeRow st r).attn.has a = false := h
  unfold State.stationOpen State.spliceTest
  split
  · split
    · exact hgive _ _ hplace
    · exact hplace
  · exact h

theorem State.noteStatus_lacks (h : s.attn.has .regLost = false)
    (hn : s.mark.search = true ∨ min 255 (s.mark.missing + 1) ≠ s.job.missingLimit) :
    (s.noteStatus .missing).attn.has .regLost = false := by
  have hjob : (s.withMark { s.mark with missing := satSucc 255 s.mark.missing }).job = s.job := State.job_congr (by simp)
  unfold State.noteStatus
  dsimp only
  rw [if_neg]
  · exact h
  · rw [hjob]
    rcases hn with hn | hn
    · simp [hn]
    · simp [satSucc, hn]

/-! ## The row open -/

/-- What the stations leave as the row was begun (R28). -/
theorem State.openRow_begun (h : s.track.length < 32) (status : MarkStatus) (lead : Pos) :
    (s.openRow status lead).rows = (s.rowBegun status lead).rows ∧
      (s.openRow status lead).mark = (s.rowBegun status lead).mark ∧
      (s.openRow status lead).mem = (s.rowBegun status lead).mem ∧
      (s.openRow status lead).records = (s.rowBegun status lead).records ∧
      (s.openRow status lead).lastRetired = (s.rowBegun status lead).lastRetired ∧
      (s.openRow status lead).jobs.run = (s.rowBegun status lead).jobs.run ∧
      (s.openRow status lead).jobs.holdCause = (s.rowBegun status lead).jobs.holdCause ∧
      (s.rowBegun status lead).attn.Raised (s.openRow status lead).attn := by
  rw [State.openRow_of_room s status lead h]
  have hraised := forStations_stationOpen_raised (s.newRow status lead) (s.rowBegun status lead)
  simp only [forStations] at *
  simpa using hraised

/-- A row whose verdict is a default raises VERDICT_DEFAULTED (R47). -/
theorem State.openRow_defaulted (h : s.track.length < 32) (status : MarkStatus) (lead : Pos)
    (hd : (s.readVerdict s.mark.nextRow).2.defaulted = true) : (s.openRow status lead).attn.has .verdictDefaulted = true := by
  obtain ⟨-, -, -, -, -, -, -, hraised⟩ := s.openRow_begun h status lead
  refine hraised.has _ ?_
  have happend : (s.appendRow (s.newRow status lead)).attn.has .verdictDefaulted = true := by
    unfold State.appendRow
    rw [if_pos (show (s.newRow status lead).source.defaulted = true from hd)]
    exact (Attention.raise_has _ _ _).2 (.inl rfl)
  have hlanes : (s.appendRow (s.newRow status lead)).attn.Raised
      (forLanes (State.openLane (s.newRow status lead).row lead) (s.appendRow (s.newRow status lead))).attn :=
    forLanes_raised _ (fun _ _ hs => State.openLane_raised _ _ _ hs) (.refl _)
  unfold State.rowBegun
  exact (State.noteFirst_raised _ (State.noteStatus_raised _ (.refl _))).has _ (hlanes.has _ happend)

/-- A row open with room on the track (R27 to R31, R43, R54, R61, R80, R85). -/
theorem State.openRow_rowOpened (h : s.track.length < 32) (status : MarkStatus) (lead : Pos) :
    rowOpened s (s.openRow status lead) status lead := by
  obtain ⟨hbegun, hbmem, -, -⟩ := s.rowBegun_frame status lead
  obtain ⟨hrows, -, hmem, hrecords, hretired, -⟩ := s.openRow_begun h status lead
  obtain ⟨hopened, hnext, hexpected⟩ := s.openRow_mark status lead h
  have hkept : (s.rowBegun status lead).records = s.records ∧ (s.rowBegun status lead).lastRetired = s.lastRetired := by
    unfold State.rowBegun
    simp [forLanes]
  have hdefaulted := s.openRow_defaulted h status lead
  have hlanes := fun r => s.openRow_lanesOpened status lead h (r := r)
  have hstations := fun hok st => s.openRow_stationOpened hok h status lead st
  have hfree := fun c => State.openRow_channel (c := c) h status lead
  have hframe := State.openRow_frame status lead s
  generalize s.openRow status lead = t at *
  rw [hbegun] at hrows
  rw [hbmem] at hmem
  obtain ⟨r, hr, hfixed⟩ := State.getLast_of_rows hrows
  rw [State.newRow_fixed] at hfixed
  simp only [RowCtx.fixed, Prod.mk.injEq] at hfixed
  obtain ⟨hrow, htag, hlead, hstatus, hverdict, hsource⟩ := hfixed
  have hmap : t.track.map RowCtx.row = s.track.map RowCtx.row ++ [s.mark.nextRow] := by
    simpa [State.rows, RowCtx.fixed, State.newRow, Function.comp_def] using congrArg (List.map Prod.fst) hrows
  refine ⟨⟨r, hr, hrow, htag, hlead, hstatus, Prod.ext hverdict hsource, hlanes r hr hrow hlead, fun hok =>
      ⟨rowPlaced_of_stationOpened (hstations hok) hr hlead,
        spliceTested_of_stationOpened hok (hstations hok) hrow hlead hverdict hfree⟩⟩,
    hmap, hopened, hnext, hexpected, ?_, ?_, hdefaulted, ?_⟩
  · rw [hmem, State.word_writeWord]
  · rw [hmem]
    exact s.writeWord_within 0x14 _
  · simp [sameOutside, sameSlots, hframe, hrecords, hretired, hkept]

end

end Sys2Proof.Machine
end

section
/-! A leading-lane mark edge opens its row, after the MISSING row of each window it passes (R19, R21 to R25, R27, R28). -/

namespace Sys2Proof.Machine

section
variable {s t u : State} {l lane : Fin 4} {p lead e : Pos}

/-! ## The mark unit and the run by the row's status -/

/-- The state before a row open notes the status: the row with its lanes, and the next row expected (R28, R29). -/
def State.rowLaned (status : MarkStatus) (lead : Pos) (s : State) : State :=
  let v := forLanes (State.openLane (s.newRow status lead).row lead) (s.appendRow (s.newRow status lead))
  v.withMark { v.mark with expected := some (moved lead v.jobPitch) }

theorem State.rowBegun_eq (status : MarkStatus) (lead : Pos) (s : State) :
    s.rowBegun status lead = ((s.rowLaned status lead).noteStatus status).noteFirst status := rfl

theorem State.rowLaned_frame (status : MarkStatus) (lead : Pos) (s : State) :
    (s.rowLaned status lead).mark.missing = s.mark.missing ∧ (s.rowLaned status lead).mark.search = s.mark.search ∧
      (s.rowLaned status lead).mark.levels = s.mark.levels ∧ (s.rowLaned status lead).jobs = s.jobs ∧
      (s.rowLaned status lead).job = s.job := by
  unfold State.rowLaned
  dsimp only [State.withMark_mark]
  rw [openLanes_mark, State.appendRow_mark]
  exact ⟨rfl, rfl, rfl, by simp [forLanes], State.job_congr (by simp [forLanes])⟩

theorem State.rowLaned_lacks (lead : Pos) {a : AttnCause} (ha : a ≠ .verdictDefaulted) (status : MarkStatus)
    (h : s.attn.has a = false) : (s.rowLaned status lead).attn.has a = false := by
  have happend : (s.appendRow (s.newRow status lead)).attn.has a = false := by
    unfold State.appendRow
    dsimp only
    split
    · exact Attention.raise_lacks ha h
    · exact h
  refine forLanes_induct (P := fun u => u.attn.has a = false) (fun l u hu => ?_) happend
  simpa using hu

/-- What a row open with room leaves of the status noted, of the levels and of the run (R23 to R25, R28, R145). -/
theorem State.openRow_noted (h : s.track.length < 32) (status : MarkStatus) (lead : Pos) :
    (s.openRow status lead).mark.levels = s.mark.levels ∧
      (s.openRow status lead).mark.missing = ((s.rowLaned status lead).noteStatus status).mark.missing ∧
      (s.openRow status lead).mark.search = ((s.rowLaned status lead).noteStatus status).mark.search ∧
      (s.openRow status lead).jobs.run = (if status = .first then .running else s.jobs.run) ∧
      (s.openRow status lead).jobs.holdCause = s.jobs.holdCause ∧
      ((s.rowLaned status lead).noteStatus status).attn.Raised (s.openRow status lead).attn := by
  obtain ⟨-, hmark, -, -, -, hrun, hcause, hraised⟩ := s.openRow_begun h status lead
  obtain ⟨-, -, hlevels, hjobs, -⟩ := s.rowLaned_frame status lead
  rw [State.rowBegun_eq] at *
  rw [hmark, hrun, hcause, (State.noteFirst_frame _ _).2.2.2.1]
  have hfirst := State.noteFirst_raised status (.refl ((s.rowLaned status lead).noteStatus status).attn)
  refine ⟨?_, rfl, rfl, ?_, ?_, hfirst.trans hraised⟩
  · rw [State.noteStatus_mark, hlevels]
  · unfold State.noteFirst
    split <;> simp [hjobs]
  · unfold State.noteFirst
    split <;> simp [hjobs]

/-- A row FIRST takes the run to RUNNING (R21, R145). -/
theorem State.openRow_first (h : s.track.length < 32) (lead : Pos) :
    (s.openRow .first lead).jobs.run = .running ∧ (s.openRow .first lead).mark.missing = s.mark.missing ∧
      (s.openRow .first lead).mark.search = s.mark.search := by
  obtain ⟨-, hmissing, hsearch, hrun, -⟩ := s.openRow_noted h .first lead
  obtain ⟨hmiss, hsrch, -⟩ := s.rowLaned_frame .first lead
  exact ⟨hrun, hmissing.trans hmiss, hsearch.trans hsrch⟩

/-- A row FOUND spends the missing count (R22). -/
theorem State.openRow_found (h : s.track.length < 32) (lead : Pos) :
    (s.openRow .found lead).mark.missing = 0 ∧ (s.openRow .found lead).mark.search = s.mark.search := by
  obtain ⟨-, hmissing, hsearch, -⟩ := s.openRow_noted h .found lead
  obtain ⟨-, hsrch, -⟩ := s.rowLaned_frame .found lead
  exact ⟨hmissing, hsearch.trans hsrch⟩

/-- A row RECAPTURED ends the search (R25). -/
theorem State.openRow_recaptured (h : s.track.length < 32) (lead : Pos) :
    (s.openRow .recaptured lead).mark.missing = 0 ∧ (s.openRow .recaptured lead).mark.search = false ∧
      (s.openRow .recaptured lead).attn.has .regFound = true := by
  obtain ⟨-, hmissing, hsearch, -, -, hraised⟩ := s.openRow_noted h .recaptured lead
  exact ⟨hmissing, hsearch, hraised.has _ ((Attention.raise_has _ _ _).2 (.inl rfl))⟩

/-- A row MISSING short of the limit, or in search, raises no REG_LOST (R24). -/
theorem State.openRow_missing_lacks (h : s.track.length < 32) (lead : Pos) (ha : s.attn.has .regLost = false)
    (hn : s.mark.search = true ∨ min 255 (s.mark.missing + 1) ≠ s.job.missingLimit) :
    (s.openRow .missing lead).attn.has .regLost = false := by
  obtain ⟨hmiss, hsrch, -, -, hjob⟩ := s.rowLaned_frame .missing lead
  have hbegun : (s.rowBegun .missing lead).attn.has .regLost = false :=
    State.noteStatus_lacks (s := s.rowLaned .missing lead) (State.rowLaned_lacks lead (by decide) .missing ha) (by rwa [hmiss, hsrch, hjob])
  rw [State.openRow_of_room s .missing lead h]
  exact forStations_induct (P := fun u => u.attn.has .regLost = false)
    (fun st u hu => State.stationOpen_lacks (by decide) (by decide) _ hu) hbegun

/-! ## The accepted level -/

/-- A row open reads nothing of the accepted levels. -/
theorem rowOpened_setMarkLevel {b : Bool} {status : MarkStatus} (h : rowOpened (s.setMarkLevel l b) t status lead) :
    rowOpened s t status lead := h

theorem sameRun_setMarkLevel {b : Bool} (h : sameRun (s.setMarkLevel l b) t) : sameRun s t := h

/-- An edge whose level is taken back is accepted again as it was. -/
theorem State.setMarkLevel_back {b : Bool} (h : u.mark.levels = s.mark.levels.set l b) :
    State.setMarkLevel l b { u with mark := { u.mark with levels := s.mark.levels } } = u := by
  unfold State.setMarkLevel State.withMark
  dsimp only
  rw [← h]

/-! ## The windows an edge passes -/

/-- A row open with room adds one row to the track (R28). -/
theorem State.openRow_length (h : s.track.length < 32) (status : MarkStatus) (lead : Pos) :
    (s.openRow status lead).track.length = s.track.length + 1 := by
  obtain ⟨-, hmap, -⟩ := s.openRow_rowOpened h status lead
  simpa using congrArg List.length hmap

/-- An edge passes no more windows than the track has room for rows, so fuel beyond that changes nothing (R33). -/
theorem State.leadingEdge_fuel (p : Pos) (n : Nat) (s : State) (hn : 1 ≤ n) (hlen : 33 ≤ s.track.length + n) :
    s.leadingEdge p (n + 1) = s.leadingEdge p n := by
  induction n generalizing s with
  | zero => omega
  | succ n ih =>
    have hpast (e : Pos) (hr : s.jobs.run = .running) :
        (s.openRow .missing e).leadingEdge p (n + 1) = (s.openRow .missing e).leadingEdge p n := by
      by_cases hroom : s.track.length < 32
      · have hgrown := State.openRow_length hroom .missing e
        exact ih _ (by omega) (by omega)
      · have hheld : (s.openRow .missing e).jobs.run ≠ .running := by
          rw [State.openRow_of_full s .missing e (by omega), State.handHold_of_holdable _ (by rw [hr]; rfl), State.hold_run]
          simp
        rw [State.leadingEdge_stopped hheld, State.leadingEdge_stopped hheld]
    rw [State.leadingEdge, State.leadingEdge]
    split
    · rename_i e hr he
      rw [hpast e hr]
    · rfl

/-! ## The edge -/

/-- A row opened of the state with the edge's level accepted, as the state before the edge sees it. -/
theorem State.openRow_edge (h : s.track.length < 32) (l : Fin 4) (status : MarkStatus) (lead : Pos) :
    rowOpened s ((s.setMarkLevel l true).openRow status lead) status lead ∧
      ((s.setMarkLevel l true).openRow status lead).mark.levels = s.mark.levels.set l true ∧
      ((s.setMarkLevel l true).openRow status lead).wpu = s.wpu := by
  have hroom : (s.setMarkLevel l true).track.length < 32 := h
  exact ⟨rowOpened_setMarkLevel (State.openRow_rowOpened hroom status lead), (State.openRow_noted hroom status lead).1,
    (State.openRow_frame status lead (s.setMarkLevel l true)).1⟩

theorem State.openRow_sameRun (h : s.track.length < 32) {status : MarkStatus} (hst : status ≠ .first) (lead : Pos) :
    sameRun s (s.openRow status lead) := by
  obtain ⟨-, -, -, hrun, hcause, -⟩ := State.openRow_noted h status lead
  rw [if_neg hst] at hrun
  obtain ⟨-, -, -, -, -, -, -, -, -, -, -, -, -, hslots⟩ := State.openRow_rowOpened h status lead
  exact ⟨hrun, hcause, hslots⟩

/-- A leading-lane edge in the open window of a run RUNNING opens its row (R22, R25). -/
theorem exec_markEdge_inWindow (hlevel : s.mark.levels.get lane = false) (hd : s.wpu.direction = .forward)
    (ha : s.job.laneActive lane = true) (hl : s.job.leadingLane = lane) (hr : s.jobs.run = .running)
    (he : s.mark.expected = some e) (hs : s.windowSmall) (hlo : s.windowLow ≤ dist e p) (hhi : dist e p ≤ s.windowHigh) :
    exec (.markEdge lane true p) s =
      .next ((s.setMarkLevel lane true).openRow (if s.mark.search then .recaptured else .found) p) := by
  rw [exec_markEdge_forward hlevel hd, State.takeMark_leading (s := s.setMarkLevel lane true) ha hl hr,
    State.leadingEdge_inWindow (s := s.setMarkLevel lane true) hr he hs hlo hhi]
  rfl

/-- A leading-lane edge beyond the open window of a run RUNNING opens the window's row MISSING, and is then tested against
the next window (R23, R25). -/
theorem exec_markEdge_beyond (hlevel : s.mark.levels.get lane = false) (hd : s.wpu.direction = .forward)
    (ha : s.job.laneActive lane = true) (hl : s.job.leadingLane = lane) (hr : s.jobs.run = .running)
    (he : s.mark.expected = some e) (hs : s.windowSmall) (hlo : s.windowHigh < dist e p) (hhi : dist e p ≤ 2 ^ 30) :
    exec (.markEdge lane true p) s = .next (((s.setMarkLevel lane true).openRow .missing e).leadingEdge p 33) := by
  rw [exec_markEdge_forward hlevel hd, State.takeMark_leading (s := s.setMarkLevel lane true) ha hl hr,
    State.leadingEdge_beyond (s := s.setMarkLevel lane true) hr he hs hlo hhi]

/-- Once the MISSING row of the window it passes is open, the edge is taken as at the state this leaves (R23, R25). -/
theorem exec_markEdge_again (hlevel : s.mark.levels.get lane = false) (hd : s.wpu.direction = .forward)
    (ha : s.job.laneActive lane = true) (hl : s.job.leadingLane = lane) (hroom : s.track.length < 32)
    (hr : s.jobs.run = .running) (he : s.mark.expected = some e) (hs : s.windowSmall) (hlo : s.windowHigh < dist e p)
    (hhi : dist e p ≤ 2 ^ 30) :
    let u := (s.setMarkLevel lane true).openRow .missing e
    exec (.markEdge lane true p) s =
      exec (.markEdge lane true p) { u with mark := { u.mark with levels := s.mark.levels } } := by
  dsimp only
  have hroom' : (s.setMarkLevel lane true).track.length < 32 := hroom
  have hrun : ((s.setMarkLevel lane true).openRow .missing e).jobs.run = .running := by
    rw [State.openRow_missing_run e hroom']
    exact hr
  obtain ⟨-, hlevels, hwpu⟩ := State.openRow_edge hroom lane .missing e
  have hlength := State.openRow_length hroom' .missing e
  have hjob : ((s.setMarkLevel lane true).openRow .missing e).job = s.job :=
    State.job_congr (State.openRow_frame .missing e (s.setMarkLevel lane true)).2.2.2.2.2.2.2.2.2.2.2.2.2.2
  rw [exec_markEdge_beyond hlevel hd ha hl hr he hs hlo hhi]
  generalize (s.setMarkLevel lane true).openRow .missing e = u at *
  have hback := State.setMarkLevel_back hlevels
  rw [exec_markEdge_forward (s := { u with mark := { u.mark with levels := s.mark.levels } }) hlevel (hwpu ▸ hd), hback,
    State.takeMark_leading (hjob ▸ ha) (hjob ▸ hl) hrun, State.leadingEdge_fuel p 33 u (by omega) (by omega)]

/-- After a row MISSING short of the limit the leading window of the next row is open, a pitch on (R23, R24, R28). -/
theorem State.openRow_nextWindow (hroom : s.track.length < 32) (hr : s.jobs.run = .running) (hs : s.mark.search = false)
    (hw : s.job.window ≤ 10000) (e : Pos) (hlimit : min 255 (s.mark.missing + 1) ≠ s.job.missingLimit) :
    let u := s.openRow .missing e
    u.jobs.run = .running ∧ u.mark.expected = some (moved e s.jobPitch) ∧ u.windowSmall ∧ u.mark.search = false ∧
      u.windowLow = -(s.job.window : Int) ∧ u.windowHigh = s.job.window := by
  dsimp only
  obtain ⟨-, hrun, -, -, hsearch, -⟩ := s.openRow_missing e hroom
  obtain ⟨-, -, hexpected⟩ := s.openRow_mark .missing e hroom
  have hjob : (s.openRow .missing e).job = s.job := State.job_congr (by simp)
  have hclear : (s.openRow .missing e).mark.search = false := by
    rw [← Bool.not_eq_true, hsearch]
    simp [hs, hlimit]
  refine ⟨hrun.trans hr, hexpected, .inl ⟨hclear, hjob ▸ hw⟩, hclear, ?_, ?_⟩
  · simp only [State.windowLow, hclear, hjob, Bool.false_eq_true, if_false]
  · simp only [State.windowHigh, hclear, hjob, Bool.false_eq_true, if_false]

theorem sameRun.trans (h : sameRun s u) (h' : sameRun u t) : sameRun s t := by
  obtain ⟨hrun, hcause, hnext, hcurrent, hfirst⟩ := h
  obtain ⟨hrun', hcause', hnext', hcurrent', hfirst'⟩ := h'
  exact ⟨hrun'.trans hrun, hcause'.trans hcause, hnext'.trans hnext, hcurrent'.trans hcurrent, hfirst'.trans hfirst⟩

end

/-- Settles O30: the edge opens its row in the open window; beyond it, it opens the window's row MISSING and is tested
against the next window, a pitch on. -/
theorem leadingMarkOpensARow : Obligations.LeadingMarkOpensARow := by
  intro lane p s hlevel hd ha hl hroom
  have hroom' : (s.setMarkLevel lane true).track.length < 32 := hroom
  refine ⟨fun hr => ?_, fun e hr he hs hw hin => ?_, fun e hr he hs hw hlo hhi => ?_, fun e hr he hwin hhi => ?_,
    fun e hr he hs hpos hw hpitch hlimit => ?_⟩
  · obtain ⟨hopened, hlevels, hwpu⟩ := State.openRow_edge hroom lane .first p
    obtain ⟨hrun, hmissing, hsearch⟩ := State.openRow_first hroom' p
    obtain ⟨-, -, -, -, hcause, -⟩ := State.openRow_noted hroom' .first p
    refine ⟨_, ?_, hopened, hlevels, hrun, hcause, hmissing, hsearch, hwpu⟩
    rw [exec_markEdge_forward hlevel hd, State.takeMark_first (s := s.setMarkLevel lane true) ha hl hr]
  · obtain ⟨hopened, hlevels, hwpu⟩ := State.openRow_edge hroom lane .found p
    obtain ⟨hmissing, hsearch⟩ := State.openRow_found hroom' p
    refine ⟨_, ?_, hopened, sameRun_setMarkLevel (State.openRow_sameRun hroom' (by decide) p), hlevels, hmissing,
      hsearch.trans hs, hwpu⟩
    rw [exec_markEdge_inWindow hlevel hd ha hl hr he (.inl ⟨hs, by omega⟩)
      (by simp only [State.windowLow, hs, Bool.false_eq_true, if_false]; omega)
      (by simp only [State.windowHigh, hs, Bool.false_eq_true, if_false]; omega), hs]
    rfl
  · obtain ⟨hopened, hlevels, hwpu⟩ := State.openRow_edge hroom lane .recaptured p
    obtain ⟨hmissing, hsearch, hfound⟩ := State.openRow_recaptured hroom' p
    refine ⟨_, ?_, hopened, sameRun_setMarkLevel (State.openRow_sameRun hroom' (by decide) p), hlevels, hmissing, hsearch,
      hfound, hwpu⟩
    rw [exec_markEdge_inWindow hlevel hd ha hl hr he (.inr ⟨hs, hw⟩)
      (by simp only [State.windowLow, hs, if_true]; omega) (by simp only [State.windowHigh, hs, if_true]; omega), hs]
    rfl
  · have hbeyond : s.windowSmall ∧ s.windowHigh < dist e p := by
      rcases hwin with ⟨hs, hw, hlt⟩ | ⟨hs, hw, hlt⟩
      · exact ⟨.inr ⟨hs, hw⟩, by simp only [State.windowHigh, hs, if_true]; omega⟩
      · exact ⟨.inl ⟨hs, by omega⟩, by simpa only [State.windowHigh, hs, Bool.false_eq_true, if_false] using hlt⟩
    obtain ⟨hopened, hlevels, hwpu⟩ := State.openRow_edge hroom lane .missing e
    obtain ⟨-, hrun, -, hmissing, hsearch, hlost⟩ := State.openRow_missing (s.setMarkLevel lane true) e hroom'
    refine ⟨_, hopened, hlevels, hmissing, hrun.trans hr, hwpu, hsearch, fun hlimit hs => hlost (hsearch.2 (.inr hlimit)) hs,
      fun hno hlacks => State.openRow_missing_lacks hroom' e hlacks hno,
      exec_markEdge_again hlevel hd ha hl hroom hr he hbeyond.1 hbeyond.2 hhi⟩
  · obtain ⟨hopened, -, hwpu⟩ := State.openRow_edge hroom lane .missing e
    have hsame : sameRun s _ := sameRun_setMarkLevel (State.openRow_sameRun hroom' (status := .missing) (by decide) e)
    have hwindow : s.job.window ≤ 10000 := by omega
    have hlength := State.openRow_length hroom' .missing e
    obtain ⟨-, -, -, hmissing, -⟩ := State.openRow_missing (s.setMarkLevel lane true) e hroom'
    obtain ⟨hrun, hexpected, hsmall, hclear, hlow, hhigh⟩ := State.openRow_nextWindow (s := s.setMarkLevel lane true) hroom' hr
      hs hwindow e hlimit
    have hexec (hlo : (s.job.window : Int) < dist e p) (hhi : dist e p ≤ 2 ^ 30) :=
      exec_markEdge_beyond hlevel hd ha hl hr he (.inl ⟨hs, hwindow⟩)
        (by simpa only [State.windowHigh, hs, Bool.false_eq_true, if_false] using hlo) hhi
    change State.windowLow _ = -(s.job.window : Int) at hlow
    change State.windowHigh _ = (s.job.window : Int) at hhigh
    change _ = some (moved e s.jobPitch) at hexpected
    change _ = s.track.length + 1 at hlength
    generalize (s.setMarkLevel lane true).openRow .missing e = u at *
    have hdist (hlo : (s.job.window : Int) < dist e p) (hhi : dist e p ≤ 2 ^ 30) :
        dist (moved e s.jobPitch) p = dist e p - s.jobPitch := dist_moved e p _ (by omega) (by omega)
    refine ⟨fun hlo hhi => ⟨u, ?_, hopened, hsame, hmissing, hclear, hwpu⟩, fun hlo hhi hless => ?_⟩
    · have hnext := hdist hlo (by omega)
      rw [hexec hlo (by omega), State.leadingEdge_behind hrun hexpected
        ((State.behind_windowStart hsmall (by omega) (by omega)).2 (by omega))]
    · have hnext := hdist (by omega) (by omega)
      have hroomu : u.track.length < 32 := by omega
      obtain ⟨hfound, hsearch⟩ := State.openRow_found hroomu p
      refine ⟨u, u.openRow .found p, ?_, hopened, State.openRow_rowOpened hroomu .found p,
        hsame.trans (State.openRow_sameRun hroomu (by decide) p), hfound, hsearch.trans hclear,
        (State.openRow_frame .found p u).1.trans hwpu⟩
      rw [hexec (by omega) (by omega), State.leadingEdge_inWindow hrun hexpected hsmall (by omega) (by omega), hclear]
      rfl

end Sys2Proof.Machine
end

section
/-! The verdict strip: how an entry of the strip resolves, case by case of the table. -/

namespace Sys2Proof.Machine

section
variable {stamp n : Word} {code : Nat} {d : Verdict}

/-- The STALE test on the signed difference n − s (R45). -/
theorem staleTest_iff : staleTest stamp n = true ↔
    1 ≤ (n - stamp).toInt ∧ (n - stamp).toInt ≤ 1024 ∧ stamp.toNat % 256 = n.toNat % 256 := by
  simp [staleTest, dist, and_assoc]

/-- The codes that name no verdict (R41). -/
theorem verdictOfCode_none (h1 : code ≠ 1) (h2 : code ≠ 2) (h3 : code ≠ 3) : verdictOfCode code = none := by
  unfold verdictOfCode
  split <;> first | contradiction | rfl

theorem Source.defaulted_iff (x : Source) : x.defaulted = true ↔ x = .bad ∨ x = .early ∨ x = .stale := by
  cases x <;> simp [Source.defaulted]

/-- A stamp ahead of its row, and one behind it, is not the row's own (R6). -/
theorem stamp_ne_of_ahead (h : 0 < dist n stamp) : stamp ≠ n := by
  rintro rfl
  rw [dist_self] at h
  omega

theorem stamp_ne_of_behind (h : dist n stamp < 0) : stamp ≠ n := by
  rintro rfl
  rw [dist_self] at h
  omega

/-! ## The cases of the table (R44) -/

theorem resolveVerdict_unstamped : resolveVerdict 0 n code d = (d, .absent) := rfl

theorem resolveVerdict_own (h0 : n ≠ 0) :
    resolveVerdict n n code d = (verdictOfCode code).elim (d, .bad) fun v => (v, .strip) := by
  rw [resolveVerdict, if_neg h0, if_pos rfl]
  cases verdictOfCode code <;> rfl

theorem resolveVerdict_early (h0 : stamp ≠ 0) (h : 0 < dist n stamp) :
    resolveVerdict stamp n code d = (d, .early) := by
  rw [resolveVerdict, if_neg h0, if_neg (stamp_ne_of_ahead h), if_pos h]

/-- A stamp behind its row is STALE or counts as none, by the test of R45. -/
theorem resolveVerdict_behind (h0 : stamp ≠ 0) (h : dist n stamp < 0) :
    resolveVerdict stamp n code d = (d, if staleTest stamp n then .stale else .absent) := by
  rw [resolveVerdict, if_neg h0, if_neg (stamp_ne_of_behind h), if_neg (not_lt_of_gt h)]
  split <;> rfl

end

/-- Settles O29, by the cases of the table: no stamp, the row's own stamp, and a stamp ahead of the row or behind
it. -/
theorem verdictEntryResolved : Obligations.VerdictEntryResolved := by
  intro stamp n code d
  refine ⟨?_, ?_, resolveVerdict_early, fun h0 h hs => ?_, fun h0 h hs => ?_, Source.defaulted_iff _⟩
  · rintro rfl
    exact resolveVerdict_unstamped
  · rintro h0 rfl
    have hown := resolveVerdict_own (code := code) (d := d) h0
    refine ⟨?_, ?_, ?_, fun h1 h2 h3 => ?_⟩
    · rintro rfl
      exact hown
    · rintro rfl
      exact hown
    · rintro rfl
      exact hown
    · rwa [verdictOfCode_none h1 h2 h3] at hown
  · exact (resolveVerdict_behind h0 h).trans (by rw [if_pos (staleTest_iff.2 hs)])
  · exact (resolveVerdict_behind h0 h).trans (by rw [if_neg (hs ∘ staleTest_iff.1)])

end Sys2Proof.Machine
end

section
/-! Writes into the register page that act on no register (R172). -/

namespace Sys2Proof.Machine

section
variable {s t : State} {offset : Nat} {bytes : List Byte}

/-- The registers lie below 0x8010, and CMD_STATUS takes no write (R172). -/
theorem State.writeRegister_none (w : Word) (h : offset = 0x8004 ∨ 0x8010 ≤ offset) : s.writeRegister offset w = s := by
  rw [State.writeRegister, if_neg (by omega), if_neg (by omega), if_neg (by omega)]

theorem State.registerPageWrite_ignored (h : ignoredRegisterWrite offset bytes.length = true) :
    s.registerPageWrite offset bytes = s := by
  simp only [ignoredRegisterWrite, Bool.or_eq_true, Bool.and_eq_true, decide_eq_true_eq, bne_iff_ne, ne_eq,
    beq_iff_eq] at h
  unfold State.registerPageWrite
  split
  · rename_i h4
    obtain ⟨hlen, halign⟩ := h4
    rw [hlen] at h
    exact State.writeRegister_none _ (by omega)
  · split
    · rename_i h8
      obtain ⟨hlen, halign⟩ := h8
      rw [hlen] at h
      rw [State.writeRegister_none _ (by omega), State.writeRegister_none _ (by omega)]
    · rfl

/-- The accesses of a request lie where the request does (R171). -/
theorem linkAccesses_within (fuel offset : Nat) (bytes : List Byte) :
    ∀ a ∈ linkAccesses fuel offset bytes, offset ≤ a.1 ∧ a.1 + a.2.length ≤ offset + bytes.length := by
  induction fuel generalizing offset bytes with
  | zero => simp [linkAccesses]
  | succ fuel ih =>
    rw [linkAccesses]
    split_ifs with h0
    · simp
    · have hlen := List.length_pos_iff.2 h0
      have hsize : requestAccess offset bytes.length ≤ bytes.length := by
        rcases requestAccess_cases offset bytes.length with ⟨-, hleft, h8⟩ | h1 <;> omega
      rw [List.forall_mem_cons]
      refine ⟨⟨le_rfl, by rw [List.length_take]; omega⟩, fun a ha => ?_⟩
      have htail := ih _ _ a ha
      rw [List.length_drop] at htail
      omega

/-- Each access of a request that acts on no register is ignored (R171, R172). -/
theorem linkAccesses_ignored (h : ignoredRequest offset bytes.length = true) (fuel : Nat) :
    ∀ a ∈ linkAccesses fuel offset bytes, ignoredRegisterWrite a.1 a.2.length = true := by
  intro a ha
  obtain ⟨hlow, hhigh⟩ := linkAccesses_within fuel offset bytes a ha
  simp only [ignoredRequest, ignoredRegisterWrite, Bool.or_eq_true, Bool.and_eq_true, decide_eq_true_eq,
    bne_iff_ne, ne_eq, beq_iff_eq] at h ⊢
  rcases linkAccesses_sizes fuel offset bytes a ha with ⟨halign, hlen⟩ | hlen
  · rw [hlen] at hhigh ⊢
    omega
  · omega

/-- A row of ignored accesses in the register page does nothing. -/
theorem windowAccesses_ignored (l : List (Nat × List Byte))
    (h : ∀ a ∈ l, exchangeBytes ≤ a.1 ∧ ignoredRegisterWrite a.1 a.2.length = true) :
    l.foldl (fun u a => u.windowAccess a.1 a.2) s = s := by
  induction l with
  | nil => rfl
  | cons a l ih =>
    obtain ⟨hpage, hignored⟩ := h a List.mem_cons_self
    rw [List.foldl_cons, State.windowAccess_page _ _ _ hpage, State.registerPageWrite_ignored hignored]
    exact ih fun b hb => h b (List.mem_cons_of_mem a hb)

/-- A well-formed REGISTER_WRITE_IGNORED changes nothing (R172). -/
theorem exec_registerWriteIgnored (h : (Instr.registerWriteIgnored offset bytes).wellFormed = true) :
    exec (.registerWriteIgnored offset bytes) s = .next s := by
  simp only [Instr.wellFormed, Bool.and_eq_true, Bool.or_eq_true, decide_eq_true_eq] at h
  obtain ⟨⟨hpage, hend⟩, hkind⟩ := h
  show s.hostWrite offset bytes = _
  rw [State.hostWrite, if_pos hend]
  by_cases hshort : bytes.length ≤ 8
  · obtain ⟨-, hignored⟩ := hkind.resolve_right (by omega)
    rw [State.windowWrite_short _ _ _ hshort, State.windowAccess_page _ _ _ hpage,
      State.registerPageWrite_ignored hignored]
  · have hrequest : ignoredRequest offset bytes.length = true := by
      rcases hkind with ⟨hsize, -⟩ | ⟨-, hrequest⟩
      · simp only [accessSize, Bool.or_eq_true, beq_iff_eq] at hsize
        omega
      · exact hrequest
    rw [State.windowWrite_request _ _ _ (by omega), windowAccesses_ignored]
    exact fun a ha => ⟨hpage.trans (linkAccesses_within _ _ _ a ha).1, linkAccesses_ignored hrequest _ a ha⟩

end

end Sys2Proof.Machine
end

section
/-! Exchange memory: the bytes that belong to the host, and that no operation, event or command of the part writes
one of them. -/

namespace Sys2Proof.Machine

/-! ## The bytes the part leaves alone -/

/-- The bytes of exchange memory that are not the part's to write: the host page, the command result area outside the
report and the plate fault, the verdict strip, the job staging area and the scratch region, with the plate staging
area where no plate is read into it (R42, R165, R170, R177). -/
def hostByte (plateRead : Prop) (x : Nat) : Prop :=
  0x100 ≤ x ∧ x < 0x200 ∨ 0x248 ≤ x ∧ x < 0x300 ∨ 0x308 ≤ x ∧ x < 0x1400 ∨ 0x1600 ≤ x ∧ x < 0x4000 ∨ 0x8000 ≤ x ∨
    0x1400 ≤ x ∧ x < 0x1600 ∧ ¬ plateRead

/-- Memory changed in the part's own bytes alone. -/
def ownBytesOnly (plateRead : Prop) (m k : Memory) : Prop := ∀ x, hostByte plateRead x → k.read x = m.read x

section
variable {p q : Prop} {m k l : Memory}

theorem ownBytesOnly.of_eq (h : k = m) : ownBytesOnly p m k := fun x _ => by rw [h]

theorem ownBytesOnly.trans (h : ownBytesOnly p m k) (h' : ownBytesOnly p k l) : ownBytesOnly p m l :=
  fun x hx => (h' x hx).trans (h x hx)

/-- Where a plate is read, the part may write more. -/
theorem ownBytesOnly.mono (h : ownBytesOnly p m k) (hpq : p → q) : ownBytesOnly q m k :=
  fun x hx => h x (by unfold hostByte at *; tauto)

theorem changedWithin.ownBytesOnly {a b : Nat} (h : changedWithin m k a b) (hown : ∀ x, hostByte p x → x < a ∨ b ≤ x) :
    ownBytesOnly p m k := fun x hx => h x (hown x hx)

/-- Records go to the live page and the record strip (R175, R187). -/
theorem changedByRecords.ownBytesOnly (h : changedByRecords m k) : ownBytesOnly p m k :=
  fun x hx => h x (by unfold hostByte at hx; unfold recordOffset exchangeBytes; omega)

end

section
variable {p : Prop} {s t : State}

/-! ## The places the part writes -/

theorem State.writeWord_ownBytes (s : State) {a : Nat} (w : Word) (ha : a + 4 ≤ 0x100) :
    ownBytesOnly p s.mem (s.writeWord a w).mem :=
  (s.writeWord_within a w).ownBytesOnly fun x hx => by unfold hostByte at hx; omega

theorem State.liveUpdate_ownBytes (s : State) : ownBytesOnly p s.mem s.liveUpdate.mem :=
  s.liveUpdate_within.ownBytesOnly fun x hx => by unfold hostByte at hx; omega

theorem State.writeReport_ownBytes (s : State) (fs : List Failure) :
    ownBytesOnly p s.mem (s.writeReport fs).mem :=
  (s.writeReport_within fs).ownBytesOnly fun x hx => by unfold hostByte at hx; omega

/-- The plate fault is written in its own place alone (R177). -/
theorem State.writePlateFault_within (s : State) (f : PlateFault) :
    changedWithin s.mem (s.writePlateFault f).mem 0x300 0x308 := by
  intro x hx
  refine Memory.read_write_of_outside _ _ _ _ ?_
  simp only [List.length_append, leBytes_length, plateFaultOffset]
  omega

theorem State.writePlateFault_ownBytes (s : State) (f : PlateFault) :
    ownBytesOnly p s.mem (s.writePlateFault f).mem :=
  (s.writePlateFault_within f).ownBytesOnly fun x hx => by unfold hostByte at hx; omega

/-- A plate read writes the plate staging area alone (R165). -/
theorem State.plateRead_within (s : State) (arg : BitVec 16) :
    changedWithin s.mem (s.plateRead arg).1.mem 0x1400 0x1600 := by
  have hcopy (src : Memory) : changedWithin s.mem (s.mem.copyIn plateOffset plateBytes src) 0x1400 0x1600 :=
    fun x hx => by rw [Memory.read_copyIn, if_neg (by unfold plateOffset plateBytes; omega)]
  unfold State.plateRead
  dsimp only
  split_ifs
  · exact fun _ _ => rfl
  · exact hcopy _
  · exact hcopy _

theorem State.plateRead_ownBytes (s : State) (arg : BitVec 16) (h : p) : ownBytesOnly p s.mem (s.plateRead arg).1.mem :=
  (s.plateRead_within arg).ownBytesOnly fun x hx => by
    simp only [hostByte, h, not_true_eq_false, and_false, or_false] at hx
    omega

/-! ## Holds, retirements and row opens -/

theorem State.hold_ownBytes (cause : HoldCause) (s : State) : ownBytesOnly p s.mem (s.hold cause).mem := by
  obtain ⟨u, hhold, -, hmem, -⟩ := s.hold_retires cause
  obtain ⟨-, -, -, hrecords, -⟩ := State.retireRows_spec u.track u
  rw [hhold, ← hmem]
  exact hrecords.ownBytesOnly

theorem State.handHold_ownBytes (cause : HoldCause) (s : State) : ownBytesOnly p s.mem (s.handHold cause).mem := by
  unfold State.handHold
  split
  · exact s.hold_ownBytes cause
  · exact .of_eq rfl

theorem State.retire_ownBytes (s : State) : ownBytesOnly p s.mem s.retire.mem := by
  cases ht : s.track with
  | nil =>
    refine .of_eq ?_
    unfold State.retire State.retireHead
    rw [ht]
    dsimp only
    split <;> simp
  | cons r rest =>
    rw [(State.retire_stored ht).1]
    exact (State.record_within r s).ownBytesOnly

theorem State.openRow_ownBytes (status : MarkStatus) (lead : Pos) (s : State) :
    ownBytesOnly p s.mem (s.openRow status lead).mem := by
  by_cases hroom : s.track.length < 32
  · obtain ⟨-, -, hopen, -⟩ := State.openRow_begun hroom status lead
    rw [hopen, (s.rowBegun_frame status lead).2.1]
    exact s.writeWord_ownBytes _ (by omega)
  · rw [State.openRow_of_full _ _ _ (by omega)]
    exact s.handHold_ownBytes _

/-! ## The mark unit and the web -/

theorem State.leadingEdge_ownBytes (x : Pos) (n : Nat) (s : State) : ownBytesOnly p s.mem (s.leadingEdge x n).mem := by
  induction n generalizing s with
  | zero => exact .of_eq rfl
  | succ n ih =>
    unfold State.leadingEdge
    split
    · split_ifs
      · exact .of_eq rfl
      · exact (s.openRow_ownBytes _ _).trans (ih _)
      · exact s.openRow_ownBytes _ _
      · exact s.openRow_ownBytes _ _
    · exact .of_eq rfl

theorem State.takeMark_ownBytes (l : Fin 4) (x : Pos) (s : State) : ownBytesOnly p s.mem (s.takeMark l x).mem := by
  unfold State.takeMark
  split
  · split
    · split
      · exact s.openRow_ownBytes _ _
      · exact s.leadingEdge_ownBytes _ _
      · exact .of_eq rfl
    · split <;> exact .of_eq (by simp)
  · exact .of_eq rfl

theorem State.closeLeading_ownBytes (x : Pos) (s : State) : ownBytesOnly p s.mem (s.closeLeading x).mem := by
  unfold State.closeLeading
  split
  · split
    · exact s.openRow_ownBytes _ _
    · exact .of_eq rfl
  · exact .of_eq rfl

theorem State.markWeb_ownBytes (x : Pos) (s : State) : ownBytesOnly p s.mem (s.markWeb x).mem := by
  have lanes (u : State) : (forLanes (State.closeLane x) u).mem = u.mem := by simp
  rw [State.markWeb, lanes, ← lanes s]
  exact State.closeLeading_ownBytes x _

theorem State.reverseCheck_ownBytes (s : State) : ownBytesOnly p s.mem s.reverseCheck.mem := by
  unfold State.reverseCheck
  split
  · exact s.hold_ownBytes _
  · exact .of_eq rfl

theorem State.webChange_ownBytes (x : Pos) (s : State) : ownBytesOnly p s.mem (s.webChange x).mem := by
  have hmoved : (s.webMoved x).mem = s.mem := by simp
  rw [State.webChange_eq, ← hmoved]
  exact (State.markWeb_ownBytes x _).trans (State.reverseCheck_ownBytes _)

theorem State.count_ownBytes (d : Direction) (s : State) : ownBytesOnly p s.mem (s.count d).mem := by
  unfold State.count
  dsimp only
  split
  · exact .of_eq rfl
  · exact State.webChange_ownBytes s.web (s.withWpu (s.wpu.count d))

/-! ## The events -/

/-- No event writes a byte of the host. -/
theorem ownBytesOnly_of_event {c : Instr} (hc : c.mechanical = true) (he : exec c s = .next t) :
    ownBytesOnly p s.mem t.mem := by
  have same {u : State} (hnext : (.next u : Host.Outcome State Fault Refusal) = .next t) (hu : u.mem = s.mem) :
      ownBytesOnly p s.mem t.mem := Host.Outcome.next.inj hnext ▸ .of_eq hu
  cases c with
  | encoderCount a b =>
    simp only [exec, execEncoderCount] at he
    split at he
    · exact same he rfl
    · split at he
      · exact Host.Outcome.next.inj he ▸ State.count_ownBytes .forward (s.setPair a b)
      · exact Host.Outcome.next.inj he ▸ State.count_ownBytes .reverse (s.setPair a b)
      · exact same he rfl
  | encoderFault a b =>
    simp only [exec, execEncoderFault] at he
    split at he
    · exact same he rfl
    · split at he
      · exact Host.Outcome.next.inj he ▸ State.handHold_ownBytes .encoder (s.setPair a b)
      · exact same he rfl
  | timebaseExpiry heaters =>
    obtain rfl := Host.Outcome.next.inj he
    refine .trans (.of_eq ?_) (State.liveUpdate_ownBytes _)
    simp [forStations, forChannels]
  | liftEvent st =>
    simp only [exec, execLiftEvent] at he
    split at he <;> exact same he (by simp)
  | throwTravelComplete st =>
    simp only [exec, execThrowTravelComplete] at he
    split at he <;> exact same he (by simp)
  | stepEmit g ns =>
    simp only [exec, execStepEmit] at he
    split at he <;> exact same he (by simp)
  | markEdge lane level x =>
    simp only [exec, execMarkEdge] at he
    split at he
    · exact same he rfl
    · split at he
      · exact Host.Outcome.next.inj he ▸ State.takeMark_ownBytes lane x (s.setMarkLevel lane level)
      · exact same he rfl
  | commitEvent st =>
    simp only [exec, execCommitEvent] at he
    split at he <;> exact same he (by simp)
  | retirementEvent =>
    simp only [exec, execRetirementEvent] at he
    split at he
    · exact Host.Outcome.next.inj he ▸ s.retire_ownBytes
    · exact same he rfl
  | indexEdge st level x =>
    simp only [exec, execIndexEdge] at he
    split at he
    · exact same he rfl
    · split at he <;> exact same he (by simp)
  | heatLossEvent st =>
    simp only [exec, execHeatLossEvent] at he
    split at he
    · split at he <;> exact same he (by simp)
    · exact same he rfl
  | heatReadyEvent st =>
    simp only [exec, execHeatReadyEvent] at he
    split at he
    · split at he <;> exact same he (by simp)
    · exact same he rfl
  | _ => cases hc

/-! ## The commands -/

theorem State.endRun_ownBytes (s : State) : ownBytesOnly p s.mem s.endRun.1.mem := by
  refine .of_eq ?_
  unfold State.endRun
  split
  · rfl
  · rfl
  · simp
  · simp
  · split <;> simp

theorem State.holdRun_ownBytes (s : State) : ownBytesOnly p s.mem s.holdRun.1.mem := by
  unfold State.holdRun
  split
  · exact s.hold_ownBytes _
  · exact .of_eq rfl

theorem State.resumeRun_ownBytes (s : State) : ownBytesOnly p s.mem s.resumeRun.1.mem := by
  unfold State.resumeRun
  split <;> exact .of_eq rfl

theorem State.rearmStation_ownBytes (arg : BitVec 16) (s : State) : ownBytesOnly p s.mem (s.rearmStation arg).1.mem := by
  unfold State.rearmStation
  split
  · exact .of_eq rfl
  · split <;> exact .of_eq rfl

theorem State.refillFoil_ownBytes (arg : BitVec 16) (s : State) : ownBytesOnly p s.mem (s.refillFoil arg).1.mem := by
  unfold State.refillFoil
  split
  · exact .of_eq rfl
  · dsimp only
    split <;> exact .of_eq rfl

theorem State.ackStop_ownBytes (s : State) : ownBytesOnly p s.mem s.ackStop.1.mem := by
  unfold State.ackStop
  dsimp only
  split <;> exact .of_eq rfl

theorem State.startRun_ownBytes (s : State) : ownBytesOnly p s.mem s.startRun.1.mem := by
  unfold State.startRun
  dsimp only
  split
  · exact .of_eq rfl
  · split
    · exact .of_eq rfl
    · split
      · split
        · exact .trans (.of_eq (by simp)) (State.writeReport_ownBytes _ _)
        · exact s.writeReport_ownBytes _
      · exact .of_eq rfl

theorem State.plateSave_ownBytes (arg : BitVec 16) (s : State) : ownBytesOnly p s.mem (s.plateSave arg).1.mem := by
  unfold State.plateSave
  dsimp only
  split
  · exact .of_eq rfl
  · split
    · exact .of_eq rfl
    · split
      · exact s.writePlateFault_ownBytes _
      · split
        · exact .of_eq rfl
        · exact .of_eq (by simp)

theorem State.validateJob_ownBytes (j : Job) (s : State) : ownBytesOnly p s.mem (s.validateJob j).1.mem := by
  unfold State.validateJob
  dsimp only
  split
  · exact State.writeReport_ownBytes (s.withJobs _) _
  · exact s.writeReport_ownBytes _

/-- A command begun writes no byte of the host, but that PLATE_READ writes the plate staging area (R165). -/
theorem State.begin_ownBytes (code : BitVec 8) (arg : BitVec 16) (s : State) :
    ownBytesOnly (code = 0x09) s.mem (s.begin code arg).1.mem := by
  unfold State.begin
  split
  · exact .of_eq rfl
  · exact s.startRun_ownBytes
  · exact s.endRun_ownBytes
  · exact s.holdRun_ownBytes
  · exact s.resumeRun_ownBytes
  · exact s.rearmStation_ownBytes arg
  · exact s.refillFoil_ownBytes arg
  · exact s.plateSave_ownBytes arg
  · rename_i hcode
    exact s.plateRead_ownBytes arg (BitVec.eq_of_toNat_eq hcode)
  · exact s.ackStop_ownBytes
  · exact .of_eq rfl

end

end Sys2Proof.Machine
end

section
/-! The command engine and exchange memory: a PLATE_READ accepted shows in CMD_STATUS, and every step writes in the
part's own regions alone. -/

namespace Sys2Proof.Machine

/-! ## CMD_STATUS at an acceptance -/

/-- The two engines show the same command accepted last: its code and its sequence number (R199). -/
def sameAccepted (e f : Engine) : Prop := f.seq = e.seq ∧ f.statusCode = e.statusCode

section
variable {s t : State}

theorem sameAccepted.of_eq {e f : Engine} (h : f = e) : sameAccepted e f := h ▸ ⟨rfl, rfl⟩

/-- What a command begun does leaves the code and the sequence number of its acceptance (R179). -/
theorem State.begin_sameAccepted (code : BitVec 8) (arg : BitVec 16) (s : State) :
    sameAccepted s.engine (s.begin code arg).1.engine := by
  unfold State.begin
  split
  · exact ⟨rfl, rfl⟩
  · unfold ends State.startRun
    dsimp only
    (repeat' split) <;> exact .of_eq (by simp)
  · unfold ends State.endRun
    dsimp only
    (repeat' split) <;> exact .of_eq (by simp)
  · unfold ends State.holdRun
    dsimp only
    split <;> exact .of_eq (by simp)
  · unfold ends State.resumeRun
    dsimp only
    split <;> exact .of_eq rfl
  · unfold ends State.rearmStation
    dsimp only
    (repeat' split) <;> exact .of_eq rfl
  · unfold ends State.refillFoil
    dsimp only
    (repeat' split) <;> exact .of_eq rfl
  · unfold State.plateSave
    dsimp only
    (repeat' split) <;> exact ⟨by simp [State.startCycle], by simp [State.startCycle]⟩
  · unfold ends State.plateRead
    dsimp only
    split_ifs <;> exact .of_eq rfl
  · unfold ends State.ackStop
    dsimp only
    split <;> exact .of_eq rfl
  · exact ⟨rfl, rfl⟩

/-- What the command in CMD begins, at its acceptance (R179, R181). -/
def State.begun (s : State) : State × Option CmdResult :=
  (s.withEngine s.engine.accept).begin s.engine.code s.engine.arg

theorem State.accept_eq (s : State) : s.accept = s.begun.2.elim s.begun.1 fun r => s.begun.1.complete r := by
  show (match s.begun with | (u, some r) => u.complete r | (u, none) => u) = _
  rcases s.begun with ⟨u, _ | r⟩ <;> rfl

/-- An acceptance shows the code in CMD and the next sequence number, whatever the command goes on to do (R179). -/
theorem State.accept_sameAccepted (s : State) : sameAccepted s.engine.accept s.accept.engine := by
  have hbegun : sameAccepted s.engine.accept s.begun.1.engine := State.begin_sameAccepted _ _ (s.withEngine _)
  rw [State.accept_eq]
  cases s.begun.2 <;> exact hbegun

/-- An acceptance does to memory what the command begun does. -/
theorem State.accept_mem (s : State) : s.accept.mem = s.begun.1.mem := by
  rw [State.accept_eq]
  cases s.begun.2 <;> rfl

/-! ## The engine and memory -/

/-- The step accepted a PLATE_READ: CMD_STATUS shows its code under the next sequence number (R179, R181). -/
def plateReadAccepted (s t : State) : Prop := t.engine.seq = s.engine.seq + 1 ∧ t.engine.statusCode = 0x09

theorem State.accept_ownBytes (s : State) : ownBytesOnly (plateReadAccepted s s.accept) s.mem s.accept.mem := by
  obtain ⟨hseq, hcode⟩ := s.accept_sameAccepted
  rw [State.accept_mem]
  exact (State.begin_ownBytes s.engine.code s.engine.arg (s.withEngine s.engine.accept)).mono
    fun hread => ⟨hseq, hcode.trans hread⟩

theorem State.serveEngine_ownBytes (s : State) :
    ownBytesOnly (plateReadAccepted s s.serveEngine) s.mem s.serveEngine.mem := by
  unfold State.serveEngine
  split
  · exact s.accept_ownBytes
  · exact .of_eq rfl

theorem State.writeCmd_ownBytes (v : Word) (s : State) :
    ownBytesOnly (plateReadAccepted s (s.writeCmd v)) s.mem (s.writeCmd v).mem :=
  State.serveEngine_ownBytes (s.withEngine _)

/-- The end of a command that took time, and the acceptance of one that waited (R179, R180). -/
theorem State.complete_serveEngine_ownBytes (r : CmdResult) {u : State} (hseq : u.engine.seq = s.engine.seq)
    (h : ∀ p, ownBytesOnly p s.mem u.mem) :
    ownBytesOnly (plateReadAccepted s (u.complete r).serveEngine) s.mem (u.complete r).serveEngine.mem := by
  have hserve := (u.complete r).serveEngine_ownBytes
  refine (h _).trans (hserve.mono fun hread => ?_)
  exact ⟨hread.1.trans (congrArg (· + 1) hseq), hread.2⟩

end

/-- Settles O58, row by row of the table: the events and the two commands that end later write in the part's own
regions, a write of CMD does what the command it begins does, and a write of the other registers stores nothing. -/
theorem partWritesOnlyItsOwnRegions : Obligations.PartWritesOnlyItsOwnRegions := by
  intro s t c hwf hlink hpower hwindow he
  change ownBytesOnly (plateReadAccepted s t) s.mem t.mem
  have command {v : Word} (hv : (.next (s.writeCmd v) : Host.Outcome State Fault Refusal) = .next t) :
      ownBytesOnly (plateReadAccepted s t) s.mem t.mem := Host.Outcome.next.inj hv ▸ s.writeCmd_ownBytes v
  have same {u : State} (hu : (.next u : Host.Outcome State Fault Refusal) = .next t) (hmem : u.mem = s.mem) :
      ownBytesOnly (plateReadAccepted s t) s.mem t.mem := Host.Outcome.next.inj hu ▸ .of_eq hmem
  cases c with
  | powerOnReset decayed => exact absurd rfl (hpower decayed)
  | linkReset => exact absurd rfl hlink
  | exchangeMemoryWrite offset bytes => exact absurd rfl (hwindow offset bytes)
  | encoderCount a b => exact ownBytesOnly_of_event rfl he
  | encoderFault a b => exact ownBytesOnly_of_event rfl he
  | timebaseExpiry heaters => exact ownBytesOnly_of_event rfl he
  | liftEvent st => exact ownBytesOnly_of_event rfl he
  | throwTravelComplete st => exact ownBytesOnly_of_event rfl he
  | stepEmit g ns => exact ownBytesOnly_of_event rfl he
  | markEdge lane level x => exact ownBytesOnly_of_event rfl he
  | commitEvent st => exact ownBytesOnly_of_event rfl he
  | retirementEvent => exact ownBytesOnly_of_event rfl he
  | indexEdge st level x => exact ownBytesOnly_of_event rfl he
  | heatLossEvent st => exact ownBytesOnly_of_event rfl he
  | heatReadyEvent st => exact ownBytesOnly_of_event rfl he
  | loadJobComplete =>
    simp only [exec, execLoadJobComplete] at he
    split at he
    · obtain rfl := Host.Outcome.next.inj he
      refine State.complete_serveEngine_ownBytes _ ?_ fun _ => State.validateJob_ownBytes _ s
      unfold State.validateJob
      dsimp only
      split <;> simp
    · exact same he rfl
  | plateSaveComplete misread =>
    simp only [exec, execPlateSaveComplete] at he
    split at he
    · obtain rfl := Host.Outcome.next.inj he
      exact State.complete_serveEngine_ownBytes _ rfl fun _ => .of_eq rfl
    · exact same he rfl
  | loadJob arg => exact command he
  | startRun arg => exact command he
  | endRun arg => exact command he
  | holdRun arg => exact command he
  | resumeRun arg => exact command he
  | rearmStation arg => exact command he
  | refillFoil arg => exact command he
  | plateSave arg => exact command he
  | plateRead arg => exact command he
  | ackStop arg => exact command he
  | unknownCommand code arg => exact command he
  | cmdWithdraw value => exact command he
  | cmdPendWrite value => exact command he
  | attnWrite value => exact same he rfl
  | attnEnableWrite value => exact same he rfl
  | registerWriteIgnored offset bytes => exact same ((exec_registerWriteIgnored hwf).symm.trans he) rfl
  | configSpaceWrite config => exact same he rfl

end Sys2Proof.Machine
end

section
/-! REARM_STATION: the fault and the index-seen flag cleared, and the state the station goes to (R69). -/

namespace Sys2Proof.Machine

/-- A station armed again, as the statement writes it (R69). -/
theorem Station.rearm_eq (x : Station) (heated : Bool) :
    x.rearm heated =
      { x with fault := false, indexSeen := false, dwell := 0
               state := if heated = true ∧ x.heaterLevel = false then .heatWait else .catching } := by
  simp only [Station.rearm, Bool.and_eq_true, Bool.not_eq_true']

/-- Settles O42: the argument names no station, a station not FAULTED, or a FAULTED one that is armed again. -/
theorem rearmStationPutsItBack : Obligations.RearmStationPutsItBack := by
  refine fun arg s hfree => ⟨fun harg => ?_, fun st harg => ⟨fun hstate => ?_, fun hstate => ?_⟩⟩
  all_goals rw [exec_rearmStation s arg hfree, State.rearmStation]
  · rw [show fin4 arg.toNat = none from dif_neg (by omega)]
    rfl
  · rw [fin4_of_eq _ st harg]
    dsimp only
    rw [if_neg (show ((s.accepted 6 arg).station st).state ≠ .faulted from hstate)]
    rfl
  · rw [fin4_of_eq _ st harg]
    dsimp only
    rw [if_pos (show ((s.accepted 6 arg).station st).state = .faulted from hstate), Station.rearm_eq]
    rfl

end Sys2Proof.Machine
end

section
/-! A station that leaves its state with the throw forced off, and the heater events that make it leave (R67, R75,
R77 to R79, R92, R128). -/

namespace Sys2Proof.Machine

section
variable {s t u : State} {st : Fin 4} {o : RowOutcome}

/-! ## Leaving a state -/

theorem StationEntry.rename_eq (o : RowOutcome) (e : StationEntry) :
    e.rename o = if e.struck = true ∧ e.startTaken = false then { e with outcome := some o } else e := by
  simp only [StationEntry.rename, Bool.and_eq_true, Bool.not_eq_true']

/-- A station that goes to the state `x` with its throw forced off (R77, R92, R93). -/
def Station.left (y : Station) (x : StationState) (off : Nat) : Station :=
  { y with
    state := x, dwell := 0
    throw := if y.throw = .closing ∨ y.throw = .on then .opening else y.throw
    timer := if y.throw = .closing ∨ y.throw = .on then off else y.timer }

theorem State.leaveFor_left (x : StationState) :
    (s.leaveFor st x).station st = (s.station st).left x (s.block st).throwOff := by
  rw [State.leaveFor_station, Station.openThrow_eq, Station.left]
  split <;> rfl

/-- From `s` to `t` station `st` left its state: where it was TRACKING the strikes not started take the name `o` and
are withdrawn, and otherwise the rows and the channels stay; the other stations stay (R77, R128). -/
structure State.departed (s t : State) (st : Fin 4) (o : RowOutcome) : Prop where
  stays : (s.station st).state ≠ .tracking → t.track = s.track ∧ t.channels = s.channels
  renames : (s.station st).state = .tracking →
    t.track.map (fun r => (r.row, r.stations.get st)) =
      s.track.map (fun r => (r.row, (r.stations.get st).map fun e =>
        if e.struck = true ∧ e.startTaken = false then { e with outcome := some o } else e)) ∧ withdrawn s t st
  others : ∀ k, k ≠ st → t.station k = s.station k

theorem State.leaveFor_departed (x : StationState) : s.departed (s.leaveFor st x) st x.outcome where
  stays h := by
    rw [State.leaveFor, if_neg (by simpa using h)]
    exact ⟨rfl, rfl⟩
  renames h := by
    refine ⟨?_, withdrawn_leaveFor x h⟩
    have hrename : StationEntry.rename x.outcome = fun e =>
        if e.struck = true ∧ e.startTaken = false then { e with outcome := some x.outcome } else e :=
      funext (StationEntry.rename_eq _)
    have hmap := (entriesGo_leaveFor x h).map_eq (F := id) fun _ _ _ hf => hf
    simpa only [Option.map_id, id_eq, hrename] using hmap
  others k hk := congrArg Prod.fst (State.atStation_leaveFor hk x)

/-- What follows a departure without acting on the rows, the channels and the other stations. -/
theorem State.departed.mono (h : s.departed t st o) (htrack : u.track = t.track) (hch : u.channels = t.channels)
    (hw : u.wpu = t.wpu) (ha : t.attn.has .foilLate = true → u.attn.has .foilLate = true)
    (hst : ∀ k, k ≠ st → u.station k = t.station k) : s.departed u st o where
  stays hs := by
    rw [htrack, hch]
    exact h.stays hs
  renames hs := by
    obtain ⟨hmap, hwith⟩ := h.renames hs
    exact ⟨htrack ▸ hmap, hwith.mono hch hw ha htrack⟩
  others k hk := (hst k hk).trans (h.others k hk)

/-- A departure from a state whose station was changed first, but not its state. -/
theorem State.departed.of_setStation {x : Station} (h : (s.setStation st x).departed t st o)
    (hx : x.state = (s.station st).state) : s.departed t st o := by
  have hstation : ((s.setStation st x).station st).state = (s.station st).state := by
    rw [State.station_setStation, if_pos rfl, hx]
  refine ⟨fun hs => h.stays (hstation ▸ hs), fun hs => h.renames (hstation.trans hs), fun k hk => ?_⟩
  rw [h.others k hk, State.station_setStation, if_neg hk]

/-! ## Causes set and handed over -/

theorem State.raiseStop_has (a : AttnCause) (c : StopCause) (s : State) : (s.raiseStop a c).attn.has a = true :=
  (Attention.raise_has _ _ _).2 (.inl rfl)

theorem State.raiseStop_keeps (a b : AttnCause) (c : StopCause) (s : State) (h : s.attn.has b = true) :
    (s.raiseStop a c).attn.has b = true :=
  (Attention.raise_has _ _ _).2 (.inr h)

/-! ## The heater events -/

theorem State.heatedActive_iff :
    s.heatedActive st = true ↔ (s.block st).heated = true ∧ (s.station st).state ≠ .inactive := by
  simp [State.heatedActive, State.activeAt]

/-- A heat loss takes the station out of CATCHING, TRACKING and LIFTED (R78). -/
theorem State.heatLoss_leaves
    (h : (s.station st).state = .catching ∨ (s.station st).state = .tracking ∨ (s.station st).state = .lifted) :
    s.heatLoss st = (s.leaveFor st .heatWait).raiseStop .stationHeat .stationHeat := by
  unfold State.heatLoss
  rcases h with h | h | h <;> rw [h]

/-- A heat loss leaves FAULTED and HEAT_WAIT (R78). -/
theorem State.heatLoss_stays (h : (s.station st).state = .faulted ∨ (s.station st).state = .heatWait) :
    s.heatLoss st = s.raiseStop .stationHeat .stationHeat := by
  unfold State.heatLoss
  rcases h with h | h <;> rw [h]

theorem State.heatLoss_cases (h : (s.station st).state ≠ .inactive) :
    ((s.station st).state = .faulted ∨ (s.station st).state = .heatWait) ∨
      ((s.station st).state = .catching ∨ (s.station st).state = .tracking ∨ (s.station st).state = .lifted) := by
  generalize (s.station st).state = x at *
  cases x <;> simp at h ⊢

theorem State.heatLoss_departed (h : (s.station st).state ≠ .inactive) : s.departed (s.heatLoss st) st .heatWait := by
  rcases State.heatLoss_cases h with hstay | hleave
  · rw [State.heatLoss_stays hstay]
    refine ⟨fun _ => ⟨rfl, rfl⟩, fun htr => ?_, fun _ _ => rfl⟩
    rw [htr] at hstay
    simp at hstay
  · rw [State.heatLoss_leaves hleave]
    exact (State.leaveFor_departed .heatWait).mono rfl rfl rfl (State.raiseStop_keeps _ _ _ _) fun _ _ => rfl

theorem State.heatLoss_causes (st : Fin 4) (s : State) :
    (s.heatLoss st).attn.has .stationHeat = true ∧ (s.heatLoss st).jobs = s.jobs.handStop .stationHeat := by
  unfold State.heatLoss
  refine ⟨State.raiseStop_has _ _ _, ?_⟩
  dsimp only
  split
  all_goals exact congrArg (fun j : JobControl => j.handStop .stationHeat) (by simp)

/-- A heat-loss event whose change is accepted (R75, R78). -/
theorem exec_heatLossEvent (hrun : 4 ≤ (s.station st).heaterRun) (hlevel : (s.station st).heaterLevel = true) :
    exec (.heatLossEvent st) s =
      let u := s.setStation st ((s.station st).acceptHeater false)
      .next (if u.heatedActive st then u.heatLoss st else u) := by
  show execHeatLossEvent st s = _
  rw [execHeatLossEvent, if_pos (by simp [hlevel, Station.heaterAccepts, heaterSamples, hrun])]
  dsimp only
  split <;> rfl

/-- A heat-ready event whose change is accepted (R75, R79). -/
theorem exec_heatReadyEvent (hrun : 4 ≤ (s.station st).heaterRun) (hlevel : (s.station st).heaterLevel = false) :
    exec (.heatReadyEvent st) s =
      let u := s.setStation st ((s.station st).acceptHeater true)
      .next (if u.heatedActive st && (u.station st).state == .heatWait then u.setState st .catching else u) := by
  show execHeatReadyEvent st s = _
  rw [execHeatReadyEvent, if_pos (by simp [hlevel, Station.heaterAccepts, heaterSamples, hrun])]
  dsimp only
  split <;> rfl

theorem State.setStation_station (x : Station) : (s.setStation st x).station st = x := by
  rw [State.station_setStation, if_pos rfl]

theorem State.setStation_setStation (x y : Station) : (s.setStation st x).setStation st y = s.setStation st y := by
  exact congrArg s.withStations (Four.set_set s.stations st x y)

end

/-- Settles O39: the change accepted, then the departure of a heat loss or the state of a heat ready. -/
theorem heaterEvents : Obligations.HeaterEvents := by
  intro s st hrun accepted active
  have hstation (level : Bool) : (s.setStation st ((s.station st).acceptHeater level)).station st = accepted level :=
    State.setStation_station _
  have hactive (level : Bool) : (s.setStation st ((s.station st).acceptHeater level)).heatedActive st = true ↔ active := by
    rw [State.heatedActive_iff, hstation]
    exact Iff.rfl
  refine ⟨fun hlevel ha => ?_, fun hlevel ha => ?_, fun hlevel ha hwait => ?_, fun hlevel ha => ?_⟩
  · refine ⟨_, (exec_heatLossEvent hrun hlevel).trans (congrArg _ (if_pos ((hactive false).2 ha))), ?_⟩
    have hstate : (s.station st).state = ((s.setStation st ((s.station st).acceptHeater false)).station st).state := by
      rw [hstation]
    obtain ⟨hattn, hjobs⟩ := State.heatLoss_causes st (s.setStation st ((s.station st).acceptHeater false))
    have hdep := (State.heatLoss_departed (s := s.setStation st ((s.station st).acceptHeater false))
      (hstate ▸ ha.2)).of_setStation rfl
    refine ⟨hattn, hjobs, fun hs => ?_, fun hs => ?_, hdep.stays, hdep.renames, hdep.others, ?_⟩
    · rw [State.heatLoss_stays (hstate ▸ hs)]
      exact hstation false
    · rw [State.heatLoss_leaves (hstate ▸ hs)]
      refine (State.leaveFor_left .heatWait).trans ?_
      rw [hstation]
      rfl
    · simp [sameMemory, sameOutside]
  · rw [exec_heatLossEvent hrun hlevel]
    exact congrArg _ (if_neg fun h => ha ((hactive false).1 h))
  · rw [exec_heatReadyEvent hrun hlevel]
    refine congrArg _ ((if_pos ?_).trans ?_)
    · rw [Bool.and_eq_true, beq_iff_eq, hactive, hstation]
      exact ⟨ha, hwait⟩
    · rw [State.setState, State.setStation_setStation, hstation]
      rfl
  · rw [exec_heatReadyEvent hrun hlevel]
    refine congrArg _ (if_neg fun h => ha ?_)
    rwa [Bool.and_eq_true, beq_iff_eq, hactive, hstation] at h

end Sys2Proof.Machine
end

section
/-! The index input: an edge discarded, the slip check, and an accepted fall (R54, R57, R59, R60, R77, R92, R128). -/

namespace Sys2Proof.Machine

section
variable {s : State} {st : Fin 4} {x p : Pos}

/-! ## The accepted level -/

/-- The station with its index input accepted high (R57). -/
def Station.indexHigh (y : Station) : Station := { y with indexLevel := true }

theorem exec_indexEdge_fall (h : (s.station st).indexLevel = true) :
    exec (.indexEdge st false p) s = .next (s.setStation st { s.station st with indexLevel := false }) := by
  change execIndexEdge st false p s = _
  rw [execIndexEdge, if_neg (by rw [h]; decide)]
  rfl

theorem exec_indexEdge_rise (h : (s.station st).indexLevel = false) :
    exec (.indexEdge st true p) s =
      let u := s.setStation st (s.station st).indexHigh
      .next (if u.indexTaken st then u.indexEvent st p else u) := by
  change execIndexEdge st true p s = _
  rw [execIndexEdge, if_neg (by rw [h]; decide)]
  dsimp only
  rw [Bool.true_and]
  exact (apply_ite _ _ _ _).symm

theorem State.indexTaken_iff :
    s.indexTaken st = true ↔ (s.station st).state ≠ .inactive ∧ (s.station st).state ≠ .faulted ∧
      s.wpu.direction = .forward ∧ (s.gen (.cylinder st)).owed = 0 := by
  simp only [State.indexTaken, State.activeAt, State.gen, Bool.and_eq_true, bne_iff_ne, beq_iff_eq, and_assoc]

theorem State.indexTaken_indexHigh :
    (s.setStation st (s.station st).indexHigh).indexTaken st = s.indexTaken st := by
  rw [State.indexTaken, State.activeAt, State.setStation_station, State.indexTaken, State.activeAt]
  rfl

/-! ## The slip check -/

/-- An index event once the index has been seen (R59). -/
theorem State.indexEvent_seen (h : (s.station st).indexSeen = true) :
    s.indexEvent st p =
      if (s.block st).slipTol < (s.slipOf st (moved p (s.block st).indexOffset)).natAbs then s.slip st else s := by
  rw [State.indexEvent, h]
  rfl

/-- The deviation of an index, within half a revolution either way (R59). -/
theorem State.slipOf_spec (hr : 0 < (s.plate st).faces * (s.plate st).pitch) :
    let r : Int := ((s.plate st).faces * (s.plate st).pitch : Nat)
    (∃ k : Int, (x - (s.station st).base).toInt = s.slipOf st x + k * r) ∧
      -r < 2 * s.slipOf st x ∧ 2 * s.slipOf st x ≤ r :=
  reduceBy_spec _ hr

theorem State.slip_departed : s.departed (s.slip st) st .faulted :=
  (State.leaveFor_departed .faulted).mono rfl rfl rfl (State.raiseStop_keeps _ _ .stationFault _) fun _ hk =>
    (State.station_setStation _ _ _ _).trans (if_neg hk)

theorem State.slip_station :
    (s.slip st).station st = { (s.station st).left .faulted (s.block st).throwOff with fault := true } := by
  refine (State.setStation_station (s := s.leaveFor st .faulted) _).trans ?_
  rw [State.leaveFor_left]

theorem State.slip_causes (st : Fin 4) (s : State) :
    (s.slip st).attn.has .stationFault = true ∧ (s.slip st).jobs = s.jobs.handStop .stationFault :=
  ⟨State.raiseStop_has _ _ _, congrArg (fun j : JobControl => j.handStop .stationFault) (by simp)⟩

end

end Sys2Proof.Machine
end

section
/-! The first index: the rows placed on the new boundaries and the commits they make due (R54, R58, R81). -/

namespace Sys2Proof.Machine

section
variable {s t : State} {st : Fin 4} {x : Pos}

/-! ## The parts of a first index -/

/-- The station with its die base set by a first index (R58). -/
def Station.indexed (y : Station) (x : Pos) : Station := { y with base := x, drift := 0, indexSeen := true }

/-- The station's new base with every row placed on it (R58). -/
def State.indexPlaced (st : Fin 4) (x : Pos) (s : State) : State :=
  let u := s.setStation st ((s.station st).indexed x)
  u.withTrack (u.track.map fun r => u.replaceEntry st r)

/-- A first index up to its zone events (R58, R81, R107). -/
def State.indexSet (st : Fin 4) (x : Pos) (s : State) : State :=
  ((s.indexPlaced st x).latchCommits st).serving st State.foilRecheck

theorem State.firstIndex_eq (st : Fin 4) (x : Pos) (s : State) :
    s.firstIndex st x = ((s.indexSet st x).runZoneEvents st).closeTest st := rfl

/-- An index event while the index has not been seen (R58). -/
theorem State.indexEvent_first {p : Pos} (h : (s.station st).indexSeen = false) :
    s.indexEvent st p = s.firstIndex st (moved p (s.block st).indexOffset) := by
  rw [State.indexEvent, h]
  rfl

@[simp] theorem State.indexPlaced_frame (st : Fin 4) (x : Pos) (s : State) :
    (s.indexPlaced st x).wpu = s.wpu ∧ (s.indexPlaced st x).cylGens = s.cylGens ∧
    (s.indexPlaced st x).foilGens = s.foilGens ∧ (s.indexPlaced st x).mark = s.mark ∧
    (s.indexPlaced st x).lastRetired = s.lastRetired ∧ (s.indexPlaced st x).channels = s.channels ∧
    (s.indexPlaced st x).jobs = s.jobs ∧ (s.indexPlaced st x).store = s.store ∧ (s.indexPlaced st x).mem = s.mem ∧
    (s.indexPlaced st x).engine = s.engine ∧ (s.indexPlaced st x).attn = s.attn ∧
    (s.indexPlaced st x).records = s.records ∧ (s.indexPlaced st x).generation = s.generation ∧
    (s.indexPlaced st x).freeCount = s.freeCount ∧ (s.indexPlaced st x).pending = s.pending ∧
    (s.indexPlaced st x).web = s.web ∧ (s.indexPlaced st x).cur = s.cur := by
  and_intros <;> rfl

@[simp] theorem State.indexPlaced_rows : (s.indexPlaced st x).rows = s.rows := State.rows_map _ _ fun _ => rfl

theorem State.indexPlaced_stations : (s.indexPlaced st x).stations = (s.setStation st ((s.station st).indexed x)).stations := rfl

theorem State.indexSet_station (k : Fin 4) :
    (s.indexSet st x).station k = if k = st then (s.station st).indexed x else s.station k := by
  have h : (s.indexSet st x).stations = (s.setStation st ((s.station st).indexed x)).stations := by
    simp [State.indexSet, State.indexPlaced_stations]
  rw [State.station, h]
  exact State.station_setStation _ _ _ _

/-! ## The rows placed -/

/-- The die face a first index places row `q` on: the boundary nearest its arrival (R54, R58). -/
def State.faceOn (s : State) (st : Fin 4) (x : Pos) (q : RowCtx) : Pos :=
  nearest x (moved q.lead (s.block st).distance) (s.pitch st)

/-- An entry of row `q` as a first index places it (R58). -/
def State.placedEntry (s : State) (st : Fin 4) (x : Pos) (q : RowCtx) (e : StationEntry) : StationEntry :=
  if e.startTaken then e else e.advance s.web s.web (s.faceOn st x q)

theorem State.indexPlaced_track :
    (s.indexPlaced st x).track = s.track.map fun q => q.mapStation st (s.placedEntry st x q) := by
  have hbase : ((s.setStation st ((s.station st).indexed x)).station st).base = x := by rw [State.setStation_station]; rfl
  refine List.map_congr_left fun q _ => ?_
  unfold State.replaceEntry
  rw [hbase]
  rfl

/-- Up to the zone events each row keeps its place and number, and its entry is as placed but for a commit owed. -/
theorem State.indexSet_rows :
    List.Forall₂ (fun q q' => q'.fixed = q.fixed ∧
      Option.Rel (fun e f => (s.placedEntry st x q e).sameButOwed f) (q.stations.get st) (q'.stations.get st))
      s.track (s.indexSet st x).track := by
  have hgo : entriesGo st (fun _ e f => e.sameButOwed f) (s.indexPlaced st x) (s.indexSet st x) :=
    entriesGo_latchCommits.trans (entriesGo.of_places (R := fun _ e f => f = e) State.serving_foilRecheck_places
      (State.serving_foilRecheck_rows _ _) fun _ _ => rfl) fun _ _ _ _ h h' => h' ▸ h
  rw [entriesGo, State.indexPlaced_track, List.forall₂_map_left_iff] at hgo
  refine hgo.imp fun q q' ⟨hfixed, hrel⟩ => ⟨hfixed, ?_⟩
  rw [RowCtx.mapStation_get, if_pos rfl] at hrel
  generalize q.stations.get st = a at *
  generalize q'.stations.get st = b at *
  cases a with
  | none => cases hrel; exact .none
  | some e => cases hrel with | some h => exact .some h

theorem State.placedEntry_taken (q : RowCtx) (e : StationEntry) :
    (s.placedEntry st x q e).startTaken = e.startTaken ∧ (s.placedEntry st x q e).endTaken = e.endTaken := by
  unfold State.placedEntry
  split
  · exact ⟨rfl, rfl⟩
  · exact ⟨rfl, rfl⟩

/-- Where the web has reached neither new zone, placing an entry moves its face alone (R58). -/
theorem State.placedEntry_ahead {q : RowCtx} {e : StationEntry}
    (h : e.startTaken = false → dist (moved (s.faceOn st x q) e.zoneStartOff) s.web < 0 ∧
      dist (moved (s.faceOn st x q) e.zoneEndOff) s.web < 0) :
    s.placedEntry st x q e = { e with face := if e.startTaken = true then e.face else s.faceOn st x q } := by
  unfold State.placedEntry
  split
  · rfl
  · rename_i ht
    obtain ⟨hs, he⟩ := h (by simpa using ht)
    have hstart : reaches s.web e.zoneStart s.web (moved (s.faceOn st x q) e.zoneStartOff) = false := by
      rw [Bool.eq_false_iff, ne_eq, reaches_iff]
      exact fun hr => absurd hr.2 (not_le.2 hs)
    have hend : reaches s.web e.zoneEnd s.web (moved (s.faceOn st x q) e.zoneEndOff) = false := by
      rw [Bool.eq_false_iff, ne_eq, reaches_iff]
      exact fun hr => absurd hr.2 (not_le.2 he)
    unfold StationEntry.advance
    simp only [StationEntry.zoneStart, StationEntry.zoneEnd] at hstart hend ⊢
    simp [hstart, hend]

/-! ## The commits latched -/

/-- The commits a test finds due, row by row: the row before is committed or itself due (R81). -/
theorem latchCommits_owed {reached : StationEntry → Bool} {draining : Bool}
    (hreached : ∀ e b, reached { e with commitOwed := b } = reached e)
    {l : List RowCtx} {ahead : Bool} {i : Nat} {q q' : RowCtx} {e f : StationEntry} (hq : l[i]? = some q)
    (hq' : (latchCommits st reached draining ahead l)[i]? = some q') (he : q.stations.get st = some e)
    (hf : q'.stations.get st = some f) :
    f.commitOwed = true ↔ e.commitOwed = true ∨
      e.committed = false ∧ reached f = true ∧ (i + 1 < l.length ∨ draining = true) ∧ (i = 0 → ahead = true) ∧
        ∀ j p g, j + 1 = i → (latchCommits st reached draining ahead l)[j]? = some p → p.stations.get st = some g →
          g.committed = true ∨ g.commitOwed = true := by
  induction l generalizing ahead i with
  | nil => simp at hq
  | cons r rest ih =>
    rw [latchCommits] at hq' ⊢
    cases i with
    | zero =>
      rw [List.getElem?_cons_zero] at hq hq'
      rw [← Option.some.inj hq', RowCtx.mapStation_get, if_pos rfl, Option.some.inj hq, he] at hf
      rw [← Option.some.inj hf, hreached]
      cases rest <;> simp [and_assoc, and_comm, and_left_comm]
    | succ i =>
      rw [List.getElem?_cons_succ] at hq hq'
      rw [ih hq hq']
      generalize hr' : (r.mapStation st fun e =>
        { e with commitOwed := e.commitOwed || (!e.committed && (ahead && (draining || !rest.isEmpty)) && reached e) }) = r'
      have hahead : (r'.committedAt st || r'.owedAt st) = true ↔
          ∀ g, r'.stations.get st = some g → g.committed = true ∨ g.commitOwed = true := by
        unfold RowCtx.committedAt RowCtx.owedAt
        cases r'.stations.get st <;> simp
      rw [hahead, List.length_cons, Nat.add_lt_add_iff_right]
      refine or_congr Iff.rfl (and_congr Iff.rfl (and_congr Iff.rfl (and_congr Iff.rfl ?_)))
      constructor
      · rintro ⟨hfirst, hlater⟩
        refine ⟨fun h => absurd h (Nat.succ_ne_zero i), fun j p g hj hp hg => ?_⟩
        cases j with
        | zero => exact hfirst (by omega) g (by rw [← hg, Option.some.inj hp])
        | succ j => exact hlater j p g (by omega) hp hg
      · rintro ⟨-, hall⟩
        exact ⟨fun h g hg => hall 0 r' g (by omega) rfl hg, fun j p g hj hp hg => hall (j + 1) p g (by omega) hp hg⟩

end

end Sys2Proof.Machine
end

section
/-! A first index whose new zones lie ahead of the web, and one that finds no row (R57, R58, R81, R90). -/

namespace Sys2Proof.Machine

section
variable {s t : State} {st : Fin 4} {x : Pos}

/-! ## No zone event is due -/

theorem State.runZoneEvents_of_noneDue (h : s.noneDue st) : s.runZoneEvents st = s :=
  State.zoneEvents_none (List.find?_eq_none.2 fun r hr => by simp [h r hr])

/-- The web has reached no zone, of those taken already, nor of those that a first index brings (R58). -/
def State.zonesAhead (s : State) (st : Fin 4) (x : Pos) : Prop :=
  ∀ q ∈ s.track, ∀ e, q.stations.get st = some e →
    (e.startDue = true → e.startTaken = true) ∧ (e.endDue = true → e.endTaken = true) ∧
    (e.startTaken = false → dist (moved (s.faceOn st x q) e.zoneStartOff) s.web < 0 ∧
      dist (moved (s.faceOn st x q) e.zoneEndOff) s.web < 0)

theorem State.indexSet_entries (h : s.zonesAhead st x) :
    (s.indexSet st x).track.map (fun q => (q.row, (q.stations.get st).map fun e => { e with commitOwed := false })) =
      s.track.map fun q => (q.row, (q.stations.get st).map fun e =>
        { e with commitOwed := false, face := if e.startTaken = true then e.face else s.faceOn st x q }) := by
  refine Eq.symm ?_
  rw [← List.forall₂_eq_eq_eq, List.forall₂_map_left_iff, List.forall₂_map_right_iff]
  refine ((List.forall₂_and_left _ _).2 ⟨h, State.indexSet_rows⟩).imp fun q q' ⟨hq, hfixed, hrel⟩ => ?_
  rw [RowCtx.row_of_fixed hfixed]
  generalize q.stations.get st = a at *
  generalize q'.stations.get st = b at *
  cases hrel with
  | none => rfl
  | @some e f hf =>
    rw [State.placedEntry_ahead (hq e rfl).2.2] at hf
    rw [hf]
    rfl

theorem State.indexSet_noneDue (h : s.zonesAhead st x) : (s.indexSet st x).noneDue st := by
  intro q' hq'
  rw [Bool.eq_false_iff, ne_eq, eventDueAt_iff]
  rintro ⟨f, hf, hdue⟩
  have hmem := List.mem_map_of_mem
    (f := fun q : RowCtx => (q.row, (q.stations.get st).map fun e => { e with commitOwed := false })) hq'
  rw [State.indexSet_entries h] at hmem
  obtain ⟨q, hq, heq⟩ := List.mem_map.1 hmem
  have hentry := congrArg Prod.snd heq
  simp only [hf, Option.map_some] at hentry
  obtain ⟨e, he, hef⟩ := Option.map_eq_some_iff.1 hentry
  obtain ⟨hstart, hend, -⟩ := h q hq e he
  have hsame := congrArg StationEntry.eventDue hef
  change e.eventDue = f.eventDue at hsame
  rw [← hsame, StationEntry.eventDue_iff] at hdue
  rcases hdue with ⟨hd, ht⟩ | ⟨hd, ht⟩
  · exact absurd ((hstart hd).symm.trans ht) (by simp)
  · exact absurd ((hend hd).symm.trans ht) (by simp)

theorem State.firstIndex_ahead (h : s.zonesAhead st x) : s.firstIndex st x = (s.indexSet st x).closeTest st := by
  rw [State.firstIndex_eq, State.runZoneEvents_of_noneDue (State.indexSet_noneDue h)]

/-- Such a first index moves the faces of the zones not started, and may owe commits (R58). -/
theorem State.firstIndex_ahead_entries (h : s.zonesAhead st x) :
    (s.firstIndex st x).track.map (fun q => (q.row, (q.stations.get st).map fun e => { e with commitOwed := false })) =
      s.track.map fun q => (q.row, (q.stations.get st).map fun e =>
        { e with commitOwed := false, face := if e.startTaken = true then e.face else s.faceOn st x q }) := by
  have htrack : ((s.indexSet st x).closeTest st).track = (s.indexSet st x).track := by simp
  rw [State.firstIndex_ahead h, htrack, State.indexSet_entries h]

/-- The station after such a first index: its new base, and the close condition tested last (R58, R90). -/
theorem State.firstIndex_ahead_station (h : s.zonesAhead st x) :
    let y := s.station st
    let closes := y.state = .tracking ∧ (s.jobs.run = .running ∨ s.jobs.run = .draining) ∧ y.throw = .off ∧
      (s.firstIndex st x).closePointReached st = true
    (s.firstIndex st x).station st =
      { y.indexed x with throw := if closes then .closing else y.throw
                         timer := if closes then (s.block st).throwOn else y.timer } := by
  have hjobs : (s.indexSet st x).jobs = s.jobs := by simp [State.indexSet]
  have hcur : (s.indexSet st x).cur = s.cur := by simp [State.indexSet]
  have hstation := State.indexSet_station (s := s) (x := x) st (st := st)
  rw [if_pos rfl] at hstation
  rw [State.firstIndex_ahead h, State.closeTest_reached, State.closeTest_station, if_pos rfl, hstation, hjobs,
    State.block_congr hcur]
  rfl

theorem State.firstIndex_ahead_frame (h : s.zonesAhead st x) :
    (∀ k, k ≠ st → (s.firstIndex st x).station k = s.station k) ∧ (s.firstIndex st x).jobs = s.jobs ∧
      (s.firstIndex st x).wpu = s.wpu ∧ (s.firstIndex st x).mark = s.mark ∧ (s.firstIndex st x).cylGens = s.cylGens ∧
      (s.firstIndex st x).foilGens = s.foilGens ∧ sameMemory s (s.firstIndex st x) ∧
      (s.firstIndex st x).lastRetired = s.lastRetired ∧ sameOutside s (s.firstIndex st x) := by
  rw [State.firstIndex_ahead h]
  refine ⟨fun k hk => ?_, ?_⟩
  · rw [State.closeTest_station, if_neg hk, State.indexSet_station, if_neg hk]
  · simp [State.indexSet, sameMemory, sameOutside]

/-! ## The commits a first index makes due -/

theorem State.placedEntry_commit (q : RowCtx) (e : StationEntry) :
    (s.placedEntry st x q e).committed = e.committed ∧ (s.placedEntry st x q e).commitOwed = e.commitOwed := by
  unfold State.placedEntry
  split
  · exact ⟨rfl, rfl⟩
  · exact ⟨rfl, rfl⟩

theorem State.places_getElem? (h : t.places = s.places) {i : Nat} {q : RowCtx} (hq : t.track[i]? = some q) :
    ∃ p, s.track[i]? = some p ∧ p.stations = q.stations := by
  have hi := congrArg (·[i]?) h
  simp only [State.places, List.getElem?_map, hq, Option.map_some] at hi
  obtain ⟨p, hp, heq⟩ := Option.map_eq_some_iff.1 hi.symm
  exact ⟨p, hp, congrArg Prod.snd heq⟩

/-- The commits a first index makes due are latched oldest row first (R58, R81). -/
theorem State.firstIndex_ahead_owed (h : s.zonesAhead st x) (hactive : s.activeAt st = true) {i : Nat} {q q' : RowCtx}
    {e f : StationEntry} (hq : s.track[i]? = some q) (hq' : (s.firstIndex st x).track[i]? = some q')
    (he : q.stations.get st = some e) (hf : q'.stations.get st = some f) :
    f.commitOwed = true ↔ e.commitOwed = true ∨
      e.committed = false ∧ s.commitReached st f ∧ (i + 1 < s.track.length ∨ s.jobs.run = .draining) ∧
        ∀ j p g, j + 1 = i → (s.firstIndex st x).track[j]? = some p → p.stations.get st = some g →
          g.committed = true ∨ g.commitOwed = true := by
  have hlatch : ((s.indexPlaced st x).latchCommits st).track =
      Machine.latchCommits st (fun e => atOrBeyond s.web (s.commitPoint st e)) (s.jobs.run == .draining) true
        (s.track.map fun q => q.mapStation st (s.placedEntry st x q)) := by
    have hstation : (s.indexPlaced st x).station st = (s.station st).indexed x := State.setStation_station _
    have hstate : (s.indexPlaced st x).activeAt st = true := by
      rw [State.activeAt, hstation]
      exact hactive
    rw [State.latchCommits, if_pos hstate, ← State.indexPlaced_track]
    rfl
  have hplaces : (s.firstIndex st x).places = ((s.indexPlaced st x).latchCommits st).places := by
    rw [State.firstIndex_ahead h, State.closeTest_places]
    exact State.serving_foilRecheck_places
  obtain ⟨r, hr, hrq⟩ := State.places_getElem? hplaces hq'
  rw [hlatch] at hr
  have hplaced : (s.track.map fun q => q.mapStation st (s.placedEntry st x q))[i]? =
      some (q.mapStation st (s.placedEntry st x q)) := by rw [List.getElem?_map, hq]; rfl
  have hentry : (q.mapStation st (s.placedEntry st x q)).stations.get st = some (s.placedEntry st x q e) := by
    rw [RowCtx.mapStation_get, if_pos rfl, he]
    rfl
  obtain ⟨hcommitted, howed⟩ := s.placedEntry_commit (st := st) (x := x) q e
  rw [latchCommits_owed (fun _ _ => rfl) hplaced hr hentry (hrq ▸ hf), hcommitted, howed, List.length_map, beq_iff_eq,
    State.commitReached_iff, ← hlatch]
  refine or_congr Iff.rfl (and_congr Iff.rfl (and_congr Iff.rfl (and_congr Iff.rfl ?_)))
  constructor
  · rintro ⟨-, hall⟩ j p g hj hp hg
    obtain ⟨p', hp', hsame⟩ := State.places_getElem? hplaces hp
    exact hall j p' g hj hp' (hsame ▸ hg)
  · refine fun hall => ⟨fun _ => rfl, fun j p g hj hp hg => ?_⟩
    obtain ⟨p', hp', hsame⟩ := State.places_getElem? hplaces.symm hp
    exact hall j p' g hj hp' (hsame ▸ hg)

/-! ## A track without rows -/

theorem State.foilRecheck_of_empty {c : Fin 8} (hstrokes : (s.channel c).strokes = []) (hplan : (s.channel c).plan = none)
    (hsync : (s.channel c).state ≠ .sync) : s.foilRecheck c = s := by
  have hwatched : s.watched c = none := by
    rw [State.watched, hplan, hstrokes]
    rfl
  unfold State.foilRecheck
  split
  · exact State.tryRampUp_of_none _ hwatched
  · exact absurd ‹_› hsync
  · rfl

theorem State.latchCommits_of_empty (h : s.track = []) : s.latchCommits st = s := by
  have hsame : s.withTrack [] = s := by rw [← h]; rfl
  rw [State.latchCommits, h, Machine.latchCommits, hsame, ite_self]

theorem State.indexPlaced_of_empty (h : s.track = []) : s.indexPlaced st x = s.setStation st ((s.station st).indexed x) := by
  have htrack : (s.setStation st ((s.station st).indexed x)).track = [] := h
  rw [State.indexPlaced, htrack, List.map_nil, ← htrack]
  rfl

theorem State.closeTest_of_empty (h : s.track = []) : s.closeTest st = s := by
  refine if_neg fun hdue => ?_
  obtain ⟨-, -, -, hreached⟩ := (State.closeDue_iff s st).1 hdue
  rw [State.closePointReached, State.nextStrike, h] at hreached
  simp at hreached

/-- A first index that finds no row and no stroke sets the base alone (R58). -/
theorem State.firstIndex_of_empty (htrack : s.track = []) (hstrokes : ∀ c, (s.channel c).strokes = [])
    (hplan : ∀ c, (s.channel c).plan = none) (hsync : ∀ c, (s.channel c).state ≠ .sync) :
    s.firstIndex st x = s.setStation st ((s.station st).indexed x) := by
  have hu : (s.setStation st ((s.station st).indexed x)).track = [] := htrack
  have hset : s.indexSet st x = s.setStation st ((s.station st).indexed x) := by
    rw [State.indexSet, State.indexPlaced_of_empty htrack, State.latchCommits_of_empty hu]
    refine forChannels_self fun c => ?_
    rw [State.foilRecheck_of_empty (s := s.setStation st _) (hstrokes c) (hplan c) (hsync c), ite_self]
  rw [State.firstIndex_eq, hset, State.runZoneEvents_of_noneDue (by rw [State.noneDue, hu]; simp), State.closeTest_of_empty hu]

end

end Sys2Proof.Machine
end

section
/-! The zones a first index brings to the web (R5, R58, R62 to R64, R80). -/

namespace Sys2Proof.Machine

section
variable {s : State} {st : Fin 4} {x : Pos}

/-! ## The zone events due at a station, taken -/

theorem State.zoneEvents_indexSeen {k : Nat} (h : s.apart) :
    ((s.zoneEvents st k).station st).indexSeen = (s.station st).indexSeen := by
  induction k generalizing s with
  | zero => rfl
  | succ k ih =>
    cases hf : s.track.find? fun r => r.eventDueAt st with
    | none => rw [State.zoneEvents_none hf]
    | some r =>
      obtain ⟨hr, e, he, -⟩ := State.findDue hf
      obtain ⟨front, back, hrow⟩ := h.rowAt hr
      rw [State.zoneEvents_some hf, ih (h.congr (by simp)), State.zoneEvent]
      split
      · exact (State.zoneEndEvent_state hrow he).2.1
      · exact (State.zoneStartEvent_state hrow he).2

/-- What the zone events due at a station make of one entry: what is due is taken, and a row that alone has its events is
registered on the face it has (R5, R63, R64, R80). -/
structure State.eventsTaken (s : State) (st : Fin 4) (q : RowCtx) (e f : StationEntry) : Prop where
  start : e.startDue = true → f.startTaken = true
  ended : e.endDue = true ∨ e.endTaken = true → f.endTaken = true
  registered : e.endDue = true → e.endTaken = false →
    (∀ m, m ≠ q.row → (s.runZoneEvents st).takenAt st m = s.takenAt st m) → s.registers st q e f

theorem State.runZoneEvents_takes (h : s.apart) {q : RowCtx} (hq : q ∈ s.track) {e : StationEntry}
    (he : q.stations.get st = some e) :
    ∃ f, (s.runZoneEvents st).entry? st q.row = some f ∧ s.eventsTaken st q e f := by
  obtain ⟨f, hf, hlater⟩ := (entriesGo_zoneEvents (k := 2 * s.track.length) h).entry?_some ((h.entry? hq st).trans he)
  obtain ⟨hstart, hend⟩ := (State.noneDue_runZoneEvents (st := st) h).entry hf
  refine ⟨f, hf, fun hd => hstart (hlater.startDue hd), fun hd => ?_, fun hd ht halone => ?_⟩
  · exact hd.elim (fun hd => hend (hlater.endDue hd)) hlater.endTaken
  · obtain ⟨k, hk⟩ : ∃ k, 2 * s.track.length = k + 2 := by
      obtain ⟨r, l, hl⟩ := List.exists_cons_of_ne_nil (List.ne_nil_of_mem hq)
      exact ⟨2 * l.length, by rw [hl, List.length_cons]; omega⟩
    rw [hk] at hf
    rw [State.runZoneEvents, hk] at halone
    obtain ⟨g, hg, hregisters⟩ := State.zoneEvents_alone h hq he hd ht halone
    rw [hf] at hg
    rwa [Option.some.inj hg]

/-! ## The zones brought to the web -/

theorem State.firstIndex_entriesAt : (s.firstIndex st x).entriesAt st = ((s.indexSet st x).runZoneEvents st).entriesAt st :=
  State.entriesAt_of_places (by rw [State.firstIndex_eq, State.closeTest_places]) st

theorem State.indexSet_kept : (s.indexSet st x).rows = s.rows ∧ (s.indexSet st x).cur = s.cur := by
  simp [State.indexSet]

/-- The entry of row `q` up to the zone events: as placed, but for a commit owed. -/
theorem State.indexSet_mem {q : RowCtx} (hq : q ∈ s.track) {e : StationEntry} (he : q.stations.get st = some e) :
    ∃ q' ∈ (s.indexSet st x).track, q'.fixed = q.fixed ∧
      ∃ g, q'.stations.get st = some g ∧ (s.placedEntry st x q e).sameButOwed g := by
  have hrows := State.indexSet_rows (s := s) (st := st) (x := x)
  obtain ⟨i, hi, rfl⟩ := List.mem_iff_getElem.1 hq
  have hi' : i < (s.indexSet st x).track.length := hrows.length_eq ▸ hi
  obtain ⟨hfixed, hrel⟩ := hrows.get hi hi'
  simp only [List.get_eq_getElem] at hfixed hrel
  rw [he] at hrel
  refine ⟨_, List.getElem_mem hi', hfixed, ?_⟩
  cases hget : (s.indexSet st x).track[i].stations.get st with
  | none => rw [hget] at hrel; cases hrel
  | some g => rw [hget] at hrel; cases hrel with | some hg => exact ⟨g, rfl, hg⟩

theorem State.indexSet_takenAt (m : Word) : (s.indexSet st x).takenAt st m = s.takenAt st m := by
  have hgo : entriesGo st (fun _ e f => f.startTaken = e.startTaken ∧ f.endTaken = e.endTaken) s (s.indexSet st x) :=
    State.indexSet_rows.imp fun q q' ⟨hfixed, hrel⟩ => ⟨hfixed, option_rel_mono (fun e f hf => by
      rw [hf]
      exact s.placedEntry_taken q e) hrel⟩
  have hrel := hgo.entry? m
  unfold State.takenAt
  generalize s.entry? st m = a at *
  generalize (s.indexSet st x).entry? st m = b at *
  cases hrel with
  | none => rfl
  | some hab => rw [Option.map_some, Option.map_some, hab.1, hab.2]

/-- A zone not started is placed on the new boundary, and what this brings to the web is due (R5, R58, R62). -/
theorem State.placedEntry_due {q : RowCtx} {e : StationEntry} (ht : e.startTaken = false) :
    (s.placedEntry st x q e).face = s.faceOn st x q ∧
      (dist e.zoneStart s.web < 0 → 0 ≤ dist (moved (s.faceOn st x q) e.zoneStartOff) s.web →
        (s.placedEntry st x q e).startDue = true) ∧
      (dist e.zoneEnd s.web < 0 → 0 ≤ dist (moved (s.faceOn st x q) e.zoneEndOff) s.web → e.endTaken = false →
        (s.placedEntry st x q e).endDue = true) := by
  have hplaced : s.placedEntry st x q e = e.advance s.web s.web (s.faceOn st x q) := by
    rw [State.placedEntry, if_neg (by rw [ht]; decide)]
  rw [hplaced]
  refine ⟨rfl, fun hlo hhi => ?_, fun hlo hhi hend => ?_⟩
  · have hreach : reaches s.web e.zoneStart s.web (moved (s.faceOn st x q) e.zoneStartOff) = true :=
      (reaches_iff ..).2 ⟨hlo, hhi⟩
    unfold StationEntry.advance
    rw [ht]
    exact Bool.or_eq_true_iff.2 (.inr hreach)
  · have hreach : reaches s.web e.zoneEnd s.web (moved (s.faceOn st x q) e.zoneEndOff) = true :=
      (reaches_iff ..).2 ⟨hlo, hhi⟩
    unfold StationEntry.advance
    rw [hend]
    exact Bool.or_eq_true_iff.2 (.inr hreach)

/-- The registration of a row that alone has zone events at a first index is the one of its new die face (R63, R64). -/
theorem State.firstIndex_registers {q q' : RowCtx} (hfixed : q'.fixed = q.fixed) {e f g : StationEntry}
    (hface : g.face = s.faceOn st x q) (hg : (s.indexSet st x).registers st q' g f) :
    f.face = s.faceOn st x q ∧
      f.error = (s.setStation st { s.station st with indexSeen := true }).measure st q { e with face := s.faceOn st x q } ∧
      f.trim = s.decideTrim st q f.error := by
  have hlead : q'.lead = q.lead := congrArg (fun x => x.2.2.1) hfixed
  have hstatus : q'.status = q.status := congrArg (fun x => x.2.2.2.1) hfixed
  have hcur := (State.indexSet_kept (s := s) (st := st) (x := x)).2
  have hstation := State.indexSet_station (s := s) (st := st) (x := x) st
  rw [if_pos rfl] at hstation
  obtain ⟨hf, herror, htrim⟩ := hg
  refine ⟨hf.trans hface, ?_, ?_⟩
  · rw [herror]
    refine State.measure_congr (by rw [hcur]; rfl) ?_ ?_ hlead hface
    · rw [hstation, State.setStation_station]; rfl
    · rw [hstation, State.setStation_station]; rfl
  · rw [htrim]
    exact State.decideTrim_congr hcur (by rw [hstation]; rfl) hstatus _

/-- What a first index takes of a row whose zone has not started (R5, R58, R63, R64, R80). -/
theorem State.firstIndex_takes (h : s.apart) {q : RowCtx} (hq : q ∈ s.track) {e : StationEntry}
    (he : q.stations.get st = some e) (ht : e.startTaken = false) :
    let ended := dist e.zoneEnd s.web < 0 ∧ 0 ≤ dist (moved (s.faceOn st x q) e.zoneEndOff) s.web
    ∃ f, (s.firstIndex st x).entry? st q.row = some f ∧
      (dist e.zoneStart s.web < 0 → 0 ≤ dist (moved (s.faceOn st x q) e.zoneStartOff) s.web → f.startTaken = true) ∧
      (ended → f.endTaken = true) ∧
      (ended → e.endTaken = false → zonesTakenAlone s (s.firstIndex st x) st q.row →
        f.face = s.faceOn st x q ∧
          f.error = (s.setStation st { s.station st with indexSeen := true }).measure st q { e with face := s.faceOn st x q } ∧
          f.trim = s.decideTrim st q f.error) := by
  intro ended
  have hapart : (s.indexSet st x).apart := h.congr State.indexSet_kept.1
  obtain ⟨q', hq', hfixed, g, hget, hg⟩ := State.indexSet_mem (x := x) hq he
  obtain ⟨f, hf, htaken⟩ := State.runZoneEvents_takes hapart hq' hget
  have hentries := State.firstIndex_entriesAt (s := s) (st := st) (x := x)
  obtain ⟨hface, hstart, hend⟩ := s.placedEntry_due (st := st) (x := x) (q := q) ht
  have hrow := RowCtx.row_of_fixed hfixed
  have hendTaken : g.endTaken = e.endTaken := by rw [hg]; exact (s.placedEntry_taken q e).2
  rw [hrow] at hf
  refine ⟨f, (State.entry?_of_entriesAt hentries _).trans hf, fun hlo hhi => htaken.start ?_, fun hended => htaken.ended ?_,
    fun hended hnot halone => ?_⟩
  · rw [hg]
    exact hstart hlo hhi
  · rw [hendTaken, hg]
    rcases hnot : e.endTaken with _ | _
    · exact .inl (hend hended.1 hended.2 hnot)
    · exact .inr rfl
  · refine State.firstIndex_registers hfixed (by rw [hg]; exact hface)
      (htaken.registered (by rw [hg]; exact hend hended.1 hended.2 hnot) (hendTaken.trans hnot) fun m hm => ?_)
    rw [State.indexSet_takenAt, ← State.takenAt_of_entriesAt hentries]
    exact takenAt_of_alone h (State.firstIndex_rows st x s) (.of_track rfl) halone (hrow ▸ hm)

theorem State.firstIndex_noneDue (h : s.apart) : (s.firstIndex st x).noneDue st :=
  State.noneDue_of_entriesAt State.firstIndex_entriesAt (State.noneDue_runZoneEvents (h.congr State.indexSet_kept.1))

theorem State.firstIndex_indexSeen (h : s.apart) : ((s.firstIndex st x).station st).indexSeen = true := by
  have hclose (u : State) : ((u.closeTest st).station st).indexSeen = (u.station st).indexSeen := by
    rw [State.closeTest_station, if_pos rfl]
  rw [State.firstIndex_eq, hclose, State.runZoneEvents, State.zoneEvents_indexSeen (h.congr State.indexSet_kept.1),
    State.indexSet_station, if_pos rfl]
  rfl

end

end Sys2Proof.Machine
end

section
/-! The statement about index edges. -/

namespace Sys2Proof.Machine

section
variable {s : State} {st : Fin 4} {p x : Pos}

/-- An index edge that the station does not take changes the accepted level alone (R57, R60). -/
theorem exec_indexEdge_discarded (h : (s.station st).indexLevel = false) (ht : ¬ s.indexTaken st = true) :
    exec (.indexEdge st true p) s = .next (s.setStation st (s.station st).indexHigh) := by
  rw [exec_indexEdge_rise h]
  exact congrArg _ (if_neg (by rwa [State.indexTaken_indexHigh]))

theorem exec_indexEdge_taken (h : (s.station st).indexLevel = false) (ht : s.indexTaken st = true) :
    exec (.indexEdge st true p) s = .next ((s.setStation st (s.station st).indexHigh).indexEvent st p) := by
  rw [exec_indexEdge_rise h]
  exact congrArg _ (if_pos (by rwa [State.indexTaken_indexHigh]))

/-- An index edge taken while the index has not been seen (R58). -/
theorem exec_indexEdge_first (h : (s.station st).indexLevel = false) (ht : s.indexTaken st = true)
    (hs : (s.station st).indexSeen = false) :
    exec (.indexEdge st true p) s =
      .next ((s.setStation st (s.station st).indexHigh).firstIndex st (moved p (s.block st).indexOffset)) := by
  rw [exec_indexEdge_taken h ht, State.indexEvent_first (by rw [State.setStation_station]; exact hs)]
  rfl

/-- An index edge taken once the index has been seen: the slip check (R59). -/
theorem exec_indexEdge_seen (h : (s.station st).indexLevel = false) (ht : s.indexTaken st = true)
    (hs : (s.station st).indexSeen = true) :
    exec (.indexEdge st true p) s =
      let u := s.setStation st (s.station st).indexHigh
      .next (if (s.block st).slipTol < (s.slipOf st (moved p (s.block st).indexOffset)).natAbs then u.slip st else u) := by
  have hslip (y : Pos) : (s.setStation st (s.station st).indexHigh).slipOf st y = s.slipOf st y := by
    rw [State.slipOf, State.setStation_station]
    rfl
  rw [exec_indexEdge_taken h ht, State.indexEvent_seen (by rw [State.setStation_station]; exact hs), hslip]
  rfl

/-- The departure of a slip, with the station and the causes (R59, R77, R92, R128). -/
theorem State.slip_indexHigh :
    let on := (s.station st).throw = .closing ∨ (s.station st).throw = .on
    let t := (s.setStation st (s.station st).indexHigh).slip st
    t.station st =
        { s.station st with
          indexLevel := true, state := .faulted, fault := true, dwell := 0
          throw := if on then .opening else (s.station st).throw
          timer := if on then (s.block st).throwOff else (s.station st).timer } ∧
      t.attn.has .stationFault = true ∧ t.jobs = s.jobs.handStop .stationFault ∧ s.departed t st .faulted := by
  intro on t
  obtain ⟨hattn, hjobs⟩ := State.slip_causes st (s.setStation st (s.station st).indexHigh)
  refine ⟨?_, hattn, hjobs, State.slip_departed.of_setStation rfl⟩
  rw [State.slip_station, State.setStation_station]
  rfl

end

/-- Settles O40: the edge discarded, the first index by what it finds, the slip check, and the fall. -/
theorem indexEdgeSetsOrChecksTheDie : Obligations.IndexEdgeSetsOrChecksTheDie := by
  intro s st p hlow x r taken
  have htaken : taken ↔ s.indexTaken st = true := State.indexTaken_iff.symm
  have hstation : (s.setStation st (s.station st).indexHigh).station st = (s.station st).indexHigh := State.setStation_station _
  have hothers (k : Fin 4) (hk : k ≠ st) : (s.setStation st (s.station st).indexHigh).station k = s.station k := by
    rw [State.station_setStation, if_neg hk]
  refine ⟨fun ht => exec_indexEdge_discarded hlow (mt htaken.2 ht), fun ht hs htrack hstrokes hplan hsync => ?_,
    ?_, ?_, fun ht hs hr => ?_, fun u hu => exec_indexEdge_fall hu⟩
  · rw [exec_indexEdge_first hlow (htaken.1 ht) hs,
      State.firstIndex_of_empty (s := s.setStation st (s.station st).indexHigh) htrack hstrokes hplan hsync,
      State.setStation_setStation, hstation]
    rfl
  · intro ht hs face hahead
    refine ⟨_, exec_indexEdge_first hlow (htaken.1 ht) hs, fun hpitch q _ => placedOn_nearest _ _ hpitch, ?_⟩
    have hzones : (s.setStation st (s.station st).indexHigh).zonesAhead st x := hahead
    have hactive : (s.setStation st (s.station st).indexHigh).activeAt st = true := by
      rw [State.activeAt, hstation]
      exact bne_iff_ne.2 ht.1
    have hset := State.firstIndex_ahead_station hzones
    obtain ⟨hst, hrest⟩ := State.firstIndex_ahead_frame hzones
    rw [hstation] at hset
    exact ⟨State.firstIndex_ahead_entries hzones,
      fun i q q' e f hq hq' he hf => State.firstIndex_ahead_owed hzones hactive hq hq' he hf, hset,
      fun k hk => (hst k hk).trans (hothers k hk), hrest⟩
  · intro ht hs hok face
    have hapart : (s.setStation st (s.station st).indexHigh).apart := State.trackOk.pairwise_rows hok
    refine ⟨_, exec_indexEdge_first hlow (htaken.1 ht) hs, State.firstIndex_indexSeen hapart,
      State.map_row_of_rows (State.firstIndex_rows ..), fun q hq f hf => ?_, fun q hq e he hnot => ?_⟩
    · have hdue := State.firstIndex_noneDue hapart q hq
      rw [RowCtx.eventDueAt, hf] at hdue
      simpa [StationEntry.eventDue] using hdue
    · obtain ⟨f, hf, hstart, hend, hregisters⟩ := State.firstIndex_takes hapart hq he hnot
      refine ⟨f, hf, hstart, hend, fun hended hnot' halone => ?_⟩
      obtain ⟨hface, herror, htrim⟩ := hregisters hended hnot' halone
      refine ⟨hface, herror.trans ?_, htrim.trans
        (State.decideTrim_congr (s := s) (t := s.setStation st (s.station st).indexHigh) rfl ?_ rfl _)⟩
      · rw [State.setStation_setStation, hstation]
        refine State.measure_congr (s := s.setStation st { s.station st with indexSeen := true }) rfl ?_ ?_ rfl rfl
        · rw [State.setStation_station, State.setStation_station]
          rfl
        · rw [State.setStation_station, State.setStation_station]
      · rw [hstation]
        rfl
  · obtain ⟨hk, hlo, hhi⟩ := State.slipOf_spec (x := x) (Int.natCast_pos.1 hr)
    have hexec := exec_indexEdge_seen (p := p) hlow (htaken.1 ht) hs
    refine ⟨s.slipOf st x, hlo, hhi, hk, fun hwithin => ?_, fun hbeyond => ?_⟩
    · rw [hexec]
      exact congrArg _ (if_neg (not_lt.2 hwithin))
    · obtain ⟨hset, hattn, hjobs, hdep⟩ := State.slip_indexHigh (s := s) (st := st)
      refine ⟨_, hexec.trans (congrArg _ (if_pos hbeyond)), hset, hattn, hjobs, hdep.renames, hdep.stays, hdep.others, ?_⟩
      simp [sameMemory, sameOutside]

end Sys2Proof.Machine
end

section
/-! No SPLICE row comes to a strike: what each action at a station does to the strikes of the rows, and what the mark
unit and the commands leave of them (R82). -/

namespace Sys2Proof.Machine

/-- From `s` to `t` the rows keep their places and what a row keeps, and a SPLICE row that is a strike at a station was
one before. -/
def State.spares (s t : State) : Prop :=
  List.Forall₂ (fun r q => q.fixed = r.fixed ∧
    (r.verdict = .splice → ∀ k, q.struckAt k = true → r.struckAt k = true)) s.track t.track

section
variable {s t u : State} {st : Fin 4} {r q : RowCtx} {e f : StationEntry}

/-! ## Rows spared -/

theorem RowCtx.struckAt_iff {k : Fin 4} : r.struckAt k = true ↔ ∃ e, r.stations.get k = some e ∧ e.struck = true := by
  unfold RowCtx.struckAt
  cases r.stations.get k <;> simp

theorem RowCtx.verdict_of_fixed (h : q.fixed = r.fixed) : q.verdict = r.verdict := congrArg (fun x => x.2.2.2.2.1) h

theorem State.spares.refl (s : State) : s.spares s := List.forall₂_same.2 fun _ _ => ⟨rfl, fun _ _ => id⟩

theorem State.spares.of_track (h : s.spares t) (hu : u.track = t.track) : s.spares u := by rwa [State.spares, hu]

theorem State.spares.trans (h : s.spares t) (h' : t.spares u) : s.spares u := by
  refine List.forall₂_iff_get.2 ⟨h.length_eq.trans h'.length_eq, fun i h₁ h₂ => ?_⟩
  have h₃ : i < t.track.length := h.length_eq ▸ h₁
  obtain ⟨hf, hs⟩ := h.get h₁ h₃
  obtain ⟨hf', hs'⟩ := h'.get h₃ h₂
  exact ⟨hf'.trans hf, fun hv k hk => hs hv k (hs' ((RowCtx.verdict_of_fixed hf).trans hv) k hk)⟩

theorem State.spares.rows (h : s.spares t) : t.rows = s.rows :=
  (List.forall₂_eq_eq_eq ▸ List.forall₂_map_left_iff.2 (List.forall₂_map_right_iff.2
    (h.imp fun _ _ hp => hp.1.symm)) : s.rows = t.rows).symm

theorem State.spares.splicesOk (h : s.spares t) (hs : s.splicesOk) : t.splicesOk := by
  intro q hq hv k
  obtain ⟨i, hi, rfl⟩ := List.mem_iff_getElem.1 hq
  have hi' : i < s.track.length := h.length_eq ▸ hi
  obtain ⟨hf, hstruck⟩ := h.get hi' hi
  have hv' := (RowCtx.verdict_of_fixed hf).symm.trans hv
  exact Bool.eq_false_iff.2 fun hk => Bool.eq_false_iff.1 (hs _ (List.getElem_mem hi') hv' k) (hstruck hv' k hk)

/-- A change of the rows one by one. -/
theorem State.spares_of_map {g : RowCtx → RowCtx} (ht : t.track = s.track.map g) (hg : ∀ r, (g r).fixed = r.fixed)
    (hs : ∀ r ∈ s.track, r.verdict = .splice → ∀ k, (g r).struckAt k = true → r.struckAt k = true) : s.spares t := by
  rw [State.spares, ht, List.forall₂_map_right_iff, List.forall₂_same]
  exact fun r hr => ⟨hg r, hs r hr⟩

/-- The rows with their entries as they were. -/
theorem State.spares_of_places (hp : t.places = s.places) (hr : t.rows = s.rows) : s.spares t := by
  have hfixed : List.Forall₂ (fun r q : RowCtx => q.fixed = r.fixed) s.track t.track := forall₂_of_map_eq hr
  have hstations : List.Forall₂ (fun r q : RowCtx => q.stations = r.stations) s.track t.track :=
    (forall₂_of_map_eq hp).imp fun _ _ h => congrArg Prod.snd h
  refine List.forall₂_iff_get.2 ⟨hfixed.length_eq, fun i h₁ h₂ => ⟨hfixed.get h₁ h₂, fun _ k hk => ?_⟩⟩
  have hsame := hstations.get h₁ h₂
  rw [RowCtx.struckAt_iff] at hk ⊢
  rwa [hsame] at hk

/-- An action at one station that makes no entry of it a strike. -/
theorem State.spares_of_entriesGo (h : entriesGo st (fun _ e f => f.struck = true → e.struck = true) s t)
    (hother : ∀ k, k ≠ st → t.atStation k = s.atStation k) : s.spares t := by
  refine List.forall₂_iff_get.2 ⟨h.length_eq, fun i h₁ h₂ => ?_⟩
  obtain ⟨hf, hrel⟩ := h.get h₁ h₂
  refine ⟨hf, fun _ k hk => ?_⟩
  rw [RowCtx.struckAt_iff] at hk ⊢
  by_cases hst : k = st
  · subst hst
    obtain ⟨f, hget, hstruck⟩ := hk
    rw [hget] at hrel
    generalize (s.track.get ⟨i, h₁⟩).stations.get k = a at hrel ⊢
    cases hrel with
    | some hR => exact ⟨_, rfl, hR hstruck⟩
  · have hsame : (t.track.get ⟨i, h₂⟩).stations.get k = (s.track.get ⟨i, h₁⟩).stations.get k :=
      congrArg Prod.snd ((forall₂_of_map_eq (State.entriesAt_of_atStation (hother k hst))).get h₁ h₂)
    rwa [hsame] at hk

/-! ## The actions at a station -/

theorem State.spares_mapEntries {g : StationEntry → StationEntry} (hg : ∀ e, (g e).struck = true → e.struck = true) :
    s.spares (s.mapEntries st g) :=
  State.spares_of_entriesGo (entriesGo_mapEntries fun _ => hg) fun _ hk => State.atStation_mapEntries hk g

theorem State.spares_mapEntry (n : Word) {g : StationEntry → StationEntry}
    (hg : ∀ e, (g e).struck = true → e.struck = true) : s.spares (s.mapEntry st n g) :=
  State.spares_of_entriesGo (entriesGo_mapEntry n hg fun _ _ _ => id) fun _ hk => State.atStation_mapEntry hk n g

theorem State.spares_closeTest : s.spares (s.closeTest st) := State.spares_of_places (by simp) (by simp)

theorem State.spares_serving {g : Fin 8 → State → State} (hg : ∀ c u, channelActs c u (g c u))
    (hr : (s.serving st g).rows = s.rows) : s.spares (s.serving st g) :=
  State.spares_of_places (channelActs_serving_places hg) hr

theorem State.spares_latchCommits : s.spares (s.latchCommits st) := by
  refine State.spares_of_entriesGo (entriesGo_latchCommits.mono fun _ e f h => ?_) fun _ hk => State.atStation_latchCommits hk
  rw [h]
  exact id

theorem StationEntry.driven.struck (h : e.driven f) : f.struck = e.struck := by
  rw [h.rest]
  rfl

theorem State.spares_drift (amount : Int) : s.spares (s.drift st amount) :=
  State.spares_of_entriesGo ((entriesGo_drift amount).mono fun _ _ _ h hs => h.1.struck ▸ hs) fun _ hk =>
    State.atStation_drift hk amount

theorem StationEntry.rename_struck (o : RowOutcome) (h : (e.rename o).struck = true) : e.struck = true := by
  rw [StationEntry.rename_eq] at h
  by_cases hs : e.struck = true ∧ e.startTaken = false
  · exact hs.1
  · rwa [if_neg hs] at h

theorem State.spares_leaveFor (x : StationState) : s.spares (s.leaveFor st x) := by
  by_cases hs : (s.station st).state = .tracking
  · refine State.spares_of_entriesGo ((entriesGo_leaveFor x hs).mono fun _ e f h hf => ?_) fun _ hk =>
      State.atStation_leaveFor hk x
    rw [h] at hf
    exact StationEntry.rename_struck _ hf
  · exact (State.spares.refl s).of_track ((State.leaveFor_departed x).stays hs).1

/-! ## Commits -/

theorem State.decideOutcome_of_splice (hv : r.verdict = .splice) : (s.decideOutcome st r e).strike = false := by
  rw [Bool.eq_false_iff]
  intro h
  obtain ⟨htracking, hstruck⟩ := State.decideOutcome_strike h
  obtain ⟨-, -, -, -, hsplice, -⟩ := s.decides_decideOutcome st r e
  rw [hsplice htracking hv] at hstruck
  split at hstruck <;> simp at hstruck

/-- A commit makes no SPLICE row a strike (R82). -/
theorem State.spares_commit (h : s.apart) (hr : r ∈ s.track) : s.spares (s.commit st r) := by
  cases he : r.stations.get st with
  | none =>
    rw [State.commit_none s he]
    exact .refl s
  | some e =>
    have hmark : s.spares (s.markCommitted st r.row (s.decideOutcome st r e)) := by
      refine State.spares_of_map (g := fun q => if q.row = r.row then q.mapStation st fun e' =>
        { e' with committed := true, outcome := some (s.decideOutcome st r e) } else q) rfl (fun q => ?_) fun q hq hv k hk => ?_
      · split <;> rfl
      · by_cases hn : q.row = r.row
        · obtain ⟨front, back, hat⟩ := h.rowAt hr
          rw [if_pos hn, hat.own hq hn, RowCtx.struckAt_iff, RowCtx.mapStation_get] at hk
          rw [hat.own hq hn] at hv ⊢
          rw [RowCtx.struckAt_iff]
          by_cases hst : k = st
          · subst hst
            rw [if_pos rfl, he] at hk
            obtain ⟨f, hf, hstruck⟩ := hk
            rw [← Option.some.inj hf] at hstruck
            exact absurd (hstruck.symm.trans (State.decideOutcome_of_splice hv)) (by simp)
          · rwa [if_neg hst] at hk
        · rwa [if_neg hn] at hk
    rw [State.commit_eq s he]
    dsimp only
    generalize s.markCommitted st r.row (s.decideOutcome st r e) = m at *
    split
    · exact (hmark.trans (State.spares_serving (fun c _ => (channelFree_handover _ c).tochannelActs) (by simp))).trans
        State.spares_closeTest
    · split
      · exact hmark.of_track rfl
      · exact hmark

theorem State.commitDue_mem (h : s.commitDue st = some r) : r ∈ s.track :=
  List.mem_of_find?_eq_some (State.commitDue_iff.1 h).1

theorem State.spares_commitAll (h : s.apart) (n : Nat) : s.spares (s.commitAll st n) := by
  induction n generalizing s with
  | zero => exact .refl s
  | succ n ih =>
    unfold State.commitAll
    split
    · rename_i r hr
      have hc := State.spares_commit (st := st) h (State.commitDue_mem hr)
      exact hc.trans (ih (h.congr hc.rows))
    · exact .refl s

/-! ## Zone events -/

theorem State.spares_zoneStartEvent (h : s.apart) (n : Word) : s.spares (s.zoneStartEvent st n) := by
  rw [State.zoneStartEvent_eq]
  dsimp only
  have hstart : s.spares (s.mapEntry st n fun e => { e with startTaken := true }) := State.spares_mapEntry n fun _ => id
  have hv := h.congr hstart.rows
  generalize (s.mapEntry st n fun e => { e with startTaken := true }) = v at *
  have hcommit : v.spares (v.overdueCommit st n) := by
    unfold State.overdueCommit
    split
    · rename_i r hr
      split
      · exact .refl v
      · exact State.spares_commit hv (List.mem_of_find?_eq_some hr)
    · exact .refl v
  exact (hstart.trans hcommit).trans (State.spares_mapEntry n fun e he => by rwa [StationEntry.checkStart_struck] at he)

theorem State.endedAs.struck {n : Word} {g : StationEntry} (h : s.endedAs st r e n f g) (hg : g.struck = true) : f.struck = true := by
  by_cases hl : s.leavesAtEnd st r e
  · have ho := h.left hl
    by_cases hs : f.struck = true ∧ f.startTaken = false
    · exact hs.1
    · rw [if_neg hs] at ho
      rwa [StationEntry.struck, ho] at hg
  · rwa [StationEntry.struck, h.stayed hl] at hg

theorem State.spares_zoneEndEvent (n : Word) : s.spares (s.zoneEndEvent st n) := by
  rcases State.zoneEndEvent_cases st n s with h | ⟨r, e, hr, he⟩
  · rw [h]
    exact .refl s
  · refine State.spares_of_entriesGo ?_ fun _ hk => State.atStation_zoneEndEvent hk n
    rw [(State.zoneEndEvent_of_row? hr he).2]
    exact (entriesGo_bandChecked.of_end (State.openAtEnd_track n)).mono fun _ _ _ h => h.struck

theorem State.spares_zoneEvents (h : s.apart) (n : Nat) : s.spares (s.zoneEvents st n) := by
  induction n generalizing s with
  | zero => exact .refl s
  | succ n ih =>
    cases hf : s.track.find? fun r => r.eventDueAt st with
    | none =>
      rw [State.zoneEvents_none hf]
      exact .refl s
    | some r =>
      have hevent : s.spares (s.zoneEvent st r) := by
        unfold State.zoneEvent
        split
        · exact State.spares_zoneEndEvent r.row
        · exact State.spares_zoneStartEvent h r.row
      rw [State.zoneEvents_some hf]
      exact hevent.trans (ih (h.congr hevent.rows))

/-! ## What a station does at a web position change, a row open, an index, a heat loss and the entry to DRAINING -/

theorem State.spares_stationWeb (h : s.apart) (p : Pos) (delta : Int) : s.spares (s.stationWeb p delta st) := by
  unfold State.stationWeb
  split
  · have hreach : s.spares (s.mapEntries st fun e => e.advance p s.web e.face) := State.spares_mapEntries fun _ => id
    have hlatch := hreach.trans (State.spares_latchCommits (st := st))
    have hturn : s.spares (((s.mapEntries st fun e => e.advance p s.web e.face).latchCommits st).deliverCylinder st delta) :=
      hlatch.of_track (by simp)
    have hdrift := hturn.trans (State.spares_drift (st := st) delta)
    exact (hdrift.trans (State.spares_zoneEvents (h.congr hdrift.rows) _)).trans State.spares_closeTest
  · exact .refl s

theorem State.spares_sacrifice (n : Word) : s.spares (s.sacrifice st n) := by
  have hgive : s.spares ((s.mapEntry st n fun e => { e with outcome := some .sacrificed }).serving st (State.withdraw n)) :=
    State.spares.trans (State.spares_mapEntry n fun _ h => absurd h (by simp [StationEntry.struck, RowOutcome.strike]))
      (State.spares_serving (fun c _ => (channelFree_withdraw _ c).tochannelActs) (by simp))
  unfold State.sacrifice
  dsimp only
  generalize (s.mapEntry st n fun e => { e with outcome := some .sacrificed }).serving st (State.withdraw n) = v at *
  split
  · split
    · exact hgive
    · exact hgive.of_track rfl
  · exact hgive.of_track rfl

theorem State.spares_giveUp (splice : Word) (l : List Word) : s.spares (s.giveUp st splice l) := by
  induction l generalizing s with
  | nil => exact .refl s
  | cons n l ih =>
    refine State.spares.trans ?_ ih
    split
    · split
      · exact (State.spares.refl s).of_track (by unfold State.addRisk; split <;> rfl)
      · exact State.spares_sacrifice n
    · exact .refl s

/-- A row placed has no outcome yet (R31). -/
theorem State.spares_placeRow (r : RowCtx) : s.spares (s.placeRow st r) := by
  refine State.spares_of_map (g := fun q => if q.row = r.row then
    { q with stations := q.stations.set st (some (s.newEntry st r)) } else q) rfl (fun q => ?_) fun q _ _ k hk => ?_
  · split <;> rfl
  · by_cases hn : q.row = r.row
    · rw [if_pos hn, RowCtx.struckAt_iff, Four.get_set] at hk
      by_cases hst : k = st
      · rw [if_pos hst] at hk
        obtain ⟨f, hf, hstruck⟩ := hk
        rw [← Option.some.inj hf] at hstruck
        exact absurd hstruck (by simp [State.newEntry, StationEntry.struck])
      · rw [if_neg hst] at hk
        exact RowCtx.struckAt_iff.2 hk
    · rwa [if_neg hn] at hk

theorem State.spares_stationOpen (r : RowCtx) : s.spares (s.stationOpen r st) := by
  unfold State.stationOpen State.spliceTest
  split
  · split
    · exact (State.spares_placeRow r).trans (State.spares_giveUp r.row _)
    · exact State.spares_placeRow r
  · exact .refl s

theorem State.spares_indexEvent (h : s.apart) (p : Pos) : s.spares (s.indexEvent st p) := by
  unfold State.indexEvent
  dsimp only
  split
  · split
    · exact (State.spares_leaveFor .faulted).of_track rfl
    · exact .refl s
  · have hplace (u : State) : u.spares (u.withTrack (u.track.map fun r => u.replaceEntry st r)) := by
      refine State.spares_of_map rfl (fun _ => rfl) fun q _ _ k hk => ?_
      rw [State.replaceEntry, RowCtx.struckAt_iff, RowCtx.mapStation_get] at hk
      rw [RowCtx.struckAt_iff]
      by_cases hst : k = st
      · subst hst
        rw [if_pos rfl] at hk
        obtain ⟨f, hf, hstruck⟩ := hk
        obtain ⟨e, he, rfl⟩ := Option.map_eq_some_iff.1 hf
        refine ⟨e, he, ?_⟩
        split at hstruck <;> exact hstruck
      · rwa [if_neg hst] at hk
    unfold State.firstIndex
    dsimp only
    generalize hu : s.setStation st _ = u
    have hs : s.spares u := (State.spares.refl s).of_track (by rw [← hu]; rfl)
    have hrecheck := ((hs.trans (hplace u)).trans (State.spares_latchCommits (st := st))).trans
      (State.spares_serving (st := st) (fun c _ => (channelFree_foilRecheck c).tochannelActs) (by simp))
    exact (hrecheck.trans (State.spares_zoneEvents (h.congr hrecheck.rows) _)).trans State.spares_closeTest

theorem State.spares_heatLoss : s.spares (s.heatLoss st) := by
  unfold State.heatLoss
  dsimp only
  split
  · exact (State.spares_leaveFor .heatWait).of_track rfl
  · exact (State.spares_leaveFor .heatWait).of_track rfl
  · exact (State.spares_leaveFor .heatWait).of_track rfl
  · exact (State.spares.refl s).of_track rfl

theorem State.spares_drainStation (h : s.apart) : s.spares (s.drainStation st) := by
  unfold State.drainStation
  split
  · dsimp only
    split
    · exact (State.spares_commitAll h _).of_track rfl
    · exact State.spares_commitAll h _
  · exact .refl s

end
end Sys2Proof.Machine
end

section
/-! No step makes a SPLICE row a strike: the row open, the mark unit, the events and the commands (R82). -/

namespace Sys2Proof.Machine

section
variable {s t : State}

theorem State.splicesOk.of_track (h : s.splicesOk) (ht : t.track = s.track) : t.splicesOk :=
  ((State.spares.refl s).of_track ht).splicesOk h

theorem State.splicesOk.of_places (h : s.splicesOk) (hp : t.places = s.places) (hr : t.rows = s.rows) : t.splicesOk :=
  (State.spares_of_places hp hr).splicesOk h

theorem State.splicesOk_of_nil (ht : t.track = []) : t.splicesOk := by
  intro r hr
  rw [ht] at hr
  exact absurd hr (List.not_mem_nil)

theorem State.splicesOk.handHold (h : s.splicesOk) (cause : HoldCause) : (s.handHold cause).splicesOk := by
  unfold State.handHold
  split
  · exact State.splicesOk_of_nil (s.hold_track cause)
  · exact h

theorem State.splicesOk_enterIdle : s.enterIdle.splicesOk := State.splicesOk_of_nil s.enterIdle_spec.2.2.2.2.1

/-! ## The mark unit -/

/-- A row open appends a row that no station has committed (R28, R31). -/
theorem State.splicesOk.openRow (h : s.splicesOk) (status : MarkStatus) (lead : Pos) : (s.openRow status lead).splicesOk := by
  by_cases hroom : s.track.length < 32
  · have happend : (s.appendRow (s.newRow status lead)).splicesOk := by
      intro r hr hv k
      rw [State.appendRow_track, List.mem_append, List.mem_singleton] at hr
      rcases hr with hr | rfl
      · exact h r hr hv k
      · simp [RowCtx.struckAt, State.newRow]
    have hlanes : (forLanes (State.openLane (s.newRow status lead).row lead) (s.appendRow (s.newRow status lead))).splicesOk :=
      forLanes_induct (P := State.splicesOk) (fun l u hu => hu.of_places (u.places_openLane lead l) (by simp)) happend
    rw [State.openRow_of_room s status lead hroom]
    refine forStations_induct (P := State.splicesOk) (fun st u hu => (State.spares_stationOpen _).splicesOk hu) ?_
    exact hlanes.of_track (by simp [State.rowBegun])
  · rw [State.openRow_of_full s status lead (by omega)]
    exact h.handHold _

theorem State.splicesOk.laneEdge (h : s.splicesOk) (l : Fin 4) (p : Pos) : (s.laneEdge l p).splicesOk := by
  unfold State.laneEdge State.laneFound
  split
  · split
    · exact h.of_places (State.places_setLane _ _ _) (by simp)
    · exact h.of_track rfl
  · exact h.of_track rfl

theorem State.splicesOk.leadingEdge (h : s.splicesOk) (p : Pos) (n : Nat) : (s.leadingEdge p n).splicesOk := by
  induction n generalizing s with
  | zero => exact h
  | succ n ih =>
    unfold State.leadingEdge
    split
    · split
      · exact h
      · split
        · exact ih (h.openRow _ _)
        · exact h.openRow _ _
    · exact h

theorem State.splicesOk.takeMark (h : s.splicesOk) (l : Fin 4) (p : Pos) : (s.takeMark l p).splicesOk := by
  unfold State.takeMark
  split
  · split
    · split
      · exact h.openRow _ _
      · exact h.leadingEdge p _
      · exact h
    · split
      · exact h.of_track rfl
      · exact h.laneEdge l p
      · exact h.laneEdge l p
      · exact h
  · exact h

theorem State.splicesOk.closeLeading (h : s.splicesOk) (p : Pos) : (s.closeLeading p).splicesOk := by
  unfold State.closeLeading
  split
  · split
    · exact h.openRow _ _
    · exact h
  · exact h

theorem State.splicesOk.markWeb (h : s.splicesOk) (p : Pos) : (s.markWeb p).splicesOk := by
  have hlanes {u : State} (hu : u.splicesOk) : (forLanes (State.closeLane p) u).splicesOk :=
    forLanes_induct (P := State.splicesOk) (fun l v hv => hv.of_places (v.places_closeLane l) (by simp)) hu
  exact hlanes ((hlanes h).closeLeading p)

/-! ## A count -/

theorem State.spares_webMoved (h : s.apart) (p : Pos) : s.spares (s.webMoved p) := by
  unfold State.webMoved
  refine forStations_induct (P := s.spares) (fun st u hu => hu.trans (State.spares_stationWeb (h.congr hu.rows) p _)) ?_
  refine forChannels_induct (P := s.spares) (fun c u hu => hu.trans ?_) ((State.spares.refl s).of_track rfl)
  exact State.spares_of_places (channelActs_foilAdvance c _ _ u).places (by simp)

theorem State.splicesOk.count (h : s.splicesOk) (ha : s.apart) (d : Direction) : (s.count d).splicesOk := by
  unfold State.count
  dsimp only
  split
  · exact h.of_track rfl
  · have hmoved := (State.spares_webMoved (s := s.withWpu (s.wpu.count d)) ha s.web).splicesOk (h.of_track rfl)
    rw [State.webChange_eq]
    unfold State.reverseCheck
    split
    · exact State.splicesOk_of_nil (State.hold_track _ _)
    · exact hmoved.markWeb s.web

/-! ## The events -/

theorem State.splicesOk.retire (h : s.splicesOk) : s.retire.splicesOk := by
  have hhead : s.retireHead.splicesOk := by
    unfold State.retireHead
    split
    · exact h
    · rename_i r rest ht
      exact fun q hq => h q (ht ▸ List.mem_cons_of_mem r hq)
  unfold State.retire
  dsimp only
  split
  · exact State.splicesOk_enterIdle
  · exact hhead

/-- Every event of the mechanism keeps SPLICE rows from strikes (R82). -/
theorem State.splicesOk.event {c : Instr} (hc : c.mechanical = true) (h : s.splicesOk) (ha : s.apart)
    (he : exec c s = .next t) : t.splicesOk := by
  have done {u : State} (he : (.next u : Host.Outcome State Fault Refusal) = .next t) (hu : u.splicesOk) : t.splicesOk :=
    Host.Outcome.next.inj he ▸ hu
  have spared {u : State} (he : (.next u : Host.Outcome State Fault Refusal) = .next t) (hu : s.spares u) : t.splicesOk :=
    done he (hu.splicesOk h)
  cases c with
  | encoderCount a b =>
    have hp : (s.setPair a b).splicesOk := h.of_track rfl
    simp only [exec, execEncoderCount] at he
    split at he
    · exact done he hp
    · split at he
      · exact done he (hp.count ha _)
      · exact done he (hp.count ha _)
      · exact done he h
  | encoderFault a b =>
    have hp : (s.setPair a b).splicesOk := h.of_track rfl
    simp only [exec, execEncoderFault] at he
    split at he
    · exact done he hp
    · split at he
      · exact done he (hp.handHold _)
      · exact done he h
  | timebaseExpiry heaters =>
    refine done he (State.splicesOk.of_track
      (s := forChannels State.channelExpiry (forStations (State.stationExpiry heaters) s.speedUpdate)) ?_ (by simp))
    refine forChannels_induct (P := State.splicesOk) (fun c u hu => hu.of_places State.channelExpiry_places (by simp)) ?_
    exact forStations_induct (P := State.splicesOk) (fun st u hu => hu.of_track (by simp)) (h.of_track (by simp))
  | liftEvent st =>
    simp only [exec, execLiftEvent] at he
    split at he
    · exact spared he ((State.spares_leaveFor .lifted).of_track rfl)
    · exact done he h
  | throwTravelComplete st =>
    simp only [exec, execThrowTravelComplete] at he
    split at he
    · exact done he (h.of_track (by simp))
    · exact done he h
  | stepEmit g ns =>
    simp only [exec, execStepEmit] at he
    split at he
    · exact done he (h.of_track (by simp))
    · exact done he h
  | markEdge lane level p =>
    have hm : (s.setMarkLevel lane level).splicesOk := h.of_track rfl
    simp only [exec, execMarkEdge] at he
    split at he
    · exact done he h
    · split at he
      · exact done he (hm.takeMark lane p)
      · exact done he hm
  | commitEvent st =>
    simp only [exec, execCommitEvent] at he
    split at he
    · rename_i r hr
      exact spared he (State.spares_commit ha (State.commitDue_mem hr))
    · exact done he h
  | retirementEvent =>
    simp only [exec, execRetirementEvent] at he
    split at he
    · exact done he h.retire
    · exact done he h
  | indexEdge st level p =>
    have hi : (s.setIndexLevel st level).splicesOk := h.of_track rfl
    simp only [exec, execIndexEdge] at he
    split at he
    · exact done he h
    · split at he
      · exact done he ((State.spares_indexEvent (s := s.setIndexLevel st level) ha p).splicesOk hi)
      · exact done he hi
  | heatLossEvent st =>
    have hl : (s.setStation st ((s.station st).acceptHeater false)).splicesOk := h.of_track rfl
    simp only [exec, execHeatLossEvent] at he
    split at he
    · split at he
      · exact done he (State.spares_heatLoss.splicesOk hl)
      · exact done he hl
    · exact done he h
  | heatReadyEvent st =>
    simp only [exec, execHeatReadyEvent] at he
    split at he
    · split at he
      · exact done he (h.of_track rfl)
      · exact done he (h.of_track rfl)
    · exact done he h
  | _ => cases hc

/-! ## The commands -/

theorem State.splicesOk.startRun (h : s.splicesOk) : s.startRun.1.splicesOk := by
  unfold State.startRun
  dsimp only
  split
  · exact h
  · split
    · exact h
    · split
      · split
        · exact State.splicesOk_of_nil (by simp [(s.beginRun_rest _ _).2.1])
        · exact h.of_track (by simp)
      · exact h

/-- The entry to DRAINING commits the rows that waited for a successor (R98). -/
theorem State.splicesOk.enterDraining (h : s.splicesOk) (ha : s.apart) : s.enterDraining.splicesOk := by
  have hdrained : s.spares s.enterDraining := by
    unfold State.enterDraining
    dsimp only
    generalize hu : (s.withJobs _).withMark _ = u
    refine forStations_induct (P := s.spares) (fun st v hv => hv.trans (State.spares_drainStation (ha.congr hv.rows))) ?_
    exact (State.spares.refl s).of_track (by rw [← hu]; rfl)
  exact hdrained.splicesOk h

theorem State.splicesOk.endRun (h : s.splicesOk) (ha : s.apart) : s.endRun.1.splicesOk := by
  unfold State.endRun
  split
  · exact h
  · exact h
  · exact State.splicesOk_enterIdle
  · exact State.splicesOk_enterIdle
  · split
    · exact State.splicesOk_enterIdle
    · exact h.enterDraining ha

/-- No command but START_RUN, END_RUN and HOLD_RUN touches a row. -/
theorem State.begin_track (code : BitVec 8) (arg : BitVec 16) :
    (s.begin code arg).1 = s.startRun.1 ∨ (s.begin code arg).1 = s.endRun.1 ∨ (s.begin code arg).1 = s.holdRun.1 ∨
      (s.begin code arg).1.track = s.track := by
  unfold State.begin
  split
  · exact .inr (.inr (.inr rfl))
  · exact .inl rfl
  · exact .inr (.inl rfl)
  · exact .inr (.inr (.inl rfl))
  all_goals refine .inr (.inr (.inr ?_))
  · unfold State.resumeRun
    split <;> rfl
  · unfold State.rearmStation
    split
    · rfl
    · split <;> rfl
  · unfold State.refillFoil
    split
    · rfl
    · dsimp only
      split <;> rfl
  · unfold State.plateSave
    dsimp only
    split
    · rfl
    · split
      · rfl
      · split
        · simp
        · split <;> rfl
  · unfold State.plateRead
    dsimp only
    split_ifs <;> rfl
  · unfold State.ackStop
    dsimp only
    split <;> rfl
  · rfl

theorem State.splicesOk.begin (h : s.splicesOk) (ha : s.apart) (code : BitVec 8) (arg : BitVec 16) :
    (s.begin code arg).1.splicesOk := by
  rcases s.begin_track code arg with hb | hb | hb | hb
  · rw [hb]
    exact h.startRun
  · rw [hb]
    exact h.endRun ha
  · rw [hb]
    unfold State.holdRun
    split
    · exact State.splicesOk_of_nil (s.hold_track _)
    · exact h
  · exact h.of_track hb

end

/-- Rows of their own numbers, none of them a SPLICE row that is a strike. -/
def State.rowsSpared (s : State) : Prop := s.trackOk ∧ s.splicesOk

theorem commandsKeep_rowsSpared : CommandsKeep State.rowsSpared where
  engine _ _ h := h
  attn _ _ h := h
  mem _ _ h := h
  pending _ _ h := h
  begins _ code arg h := ⟨h.1.begin code arg, h.2.begin h.1.pairwise_rows code arg⟩

/-- Settles O53, by the induction over the table, with the row numbers kept apart (`State.trackOk`): only a commit decides
a strike, and not of a SPLICE row. -/
theorem spliceRowsAreNeverStruck : Obligations.SpliceRowsAreNeverStruck := by
  intro s t htrack hsplices he
  refine (commandsKeep_rowsSpared.step (fun c s t hc he => ?_) (fun s j h => ⟨h.1.validateJob j, h.2.of_track ?_⟩)
    (fun s slot working misread h => h) (fun c s t hc h he => ⟨h.1.event hc he, h.2.event hc h.1.pairwise_rows he⟩)
    (⟨htrack, hsplices⟩ : s.rowsSpared) he).2
  · obtain ⟨store, count, hr⟩ := exec_reset s hc
    obtain rfl := Host.Outcome.next.inj (hr.symm.trans he)
    exact ⟨State.trackOk_of_nil rfl (by simp [State.reset, MarkUnit.reset]), State.splicesOk_of_nil rfl⟩
  · unfold State.validateJob
    dsimp only
    split <;> simp

end Sys2Proof.Machine
end

section
/-! The lift event: a heated station whose dwell has run out leaves TRACKING for LIFTED (R92 to R94). -/

namespace Sys2Proof.Machine

section
variable {s : State} {st : Fin 4}

theorem State.liftDue_iff :
    s.liftDue st = true ↔ ((s.block st).heated = true ∧ (s.station st).state ≠ .inactive) ∧
      (s.station st).state = .tracking ∧ ((s.station st).throw = .closing ∨ (s.station st).throw = .on) ∧
        s.job.dwellLimit ≤ (s.station st).dwell := by
  simp only [State.liftDue, Bool.and_eq_true, State.heatedActive_iff, beq_iff_eq, Throw.engaged_iff, decide_eq_true_eq,
    and_assoc]

theorem exec_liftEvent_due (h : s.liftDue st = true) :
    exec (.liftEvent st) s = .next ((s.leaveFor st .lifted).raise .stationLift) := if_pos h

end

/-- Settles O38: the lift event is due, and is a departure from TRACKING for LIFTED with its cause set. -/
theorem liftEventLiftsTheCylinder : Obligations.LiftEventLiftsTheCylinder := by
  intro s st hheated htracking hthrow hdwell
  have hdue : s.liftDue st = true := State.liftDue_iff.2 ⟨⟨hheated, by simp [htracking]⟩, htracking, hthrow, hdwell⟩
  have hleft : s.departed ((s.leaveFor st .lifted).raise .stationLift) st .lifted :=
    (State.leaveFor_departed .lifted).mono rfl rfl rfl (fun h => (Attention.raise_has _ _ _).2 (.inr h)) fun _ _ => rfl
  obtain ⟨hrows, hwithdrawn⟩ := hleft.renames htracking
  refine ⟨_, exec_liftEvent_due hdue, ?_, hleft.others, (Attention.raise_has _ _ _).2 (.inl rfl), by simp, hrows,
    hwithdrawn, ?_⟩
  · refine (State.leaveFor_left .lifted).trans ?_
    rw [Station.left, if_pos hthrow, if_pos hthrow]
  · simp [sameMemory, sameOutside]

end Sys2Proof.Machine
end

section
/-! The completion of a throw's travel, and the close point of the next strike (R89, R90). -/

namespace Sys2Proof.Machine

section
variable {s : State} {st : Fin 4} {r : RowCtx}

theorem RowCtx.liveStrike_iff :
    r.liveStrike st = true ↔ ∃ e, r.stations.get st = some e ∧ e.struck = true ∧ e.endTaken = false := by
  unfold RowCtx.liveStrike
  cases r.stations.get st <;> simp

theorem RowCtx.liveStrike_eq_false_iff :
    r.liveStrike st = false ↔ ∀ f, r.stations.get st = some f → f.struck = false ∨ f.endTaken = true := by
  unfold RowCtx.liveStrike
  cases r.stations.get st with
  | none => simp
  | some e => simp only [Bool.and_eq_false_iff, Bool.not_eq_false', Option.some.injEq, forall_eq']

/-- A distance covered at the planning speed in whole milliseconds, rounded up (R11). -/
theorem State.planned_eq (s : State) (ms : Nat) : s.planned ms = (s.wpu.v8p * ms + 7) / 8 := rfl

theorem State.nextStrike_eq_some_iff :
    s.nextStrike st = some r ↔ ∃ front back, s.track = front ++ r :: back ∧ (∀ q ∈ front, q.liveStrike st = false) ∧
      r.liveStrike st = true := by
  rw [State.nextStrike, List.find?_eq_some_iff_append]
  simp only [Bool.not_eq_true']
  exact ⟨fun ⟨hr, front, back, htrack, hfront⟩ => ⟨front, back, htrack, hfront, hr⟩,
    fun ⟨front, back, htrack, hfront, hr⟩ => ⟨hr, front, back, htrack, hfront⟩⟩

/-- The web is at or beyond the close point of the oldest strike still to end (R90). -/
theorem State.closePointReached_iff :
    s.closePointReached st = true ↔ ∃ front r back e, s.track = front ++ r :: back ∧
      (∀ q ∈ front, ∀ f, q.stations.get st = some f → f.struck = false ∨ f.endTaken = true) ∧
      r.stations.get st = some e ∧ e.struck = true ∧ e.endTaken = false ∧
      0 ≤ dist (moved (moved e.face e.zoneStartOff)
        (-(((s.wpu.v8p * (s.block st).throwOn + 7) / 8 : Nat) : Int))) s.web := by
  have hreached (e : StationEntry) : atOrBeyond s.web (moved e.zoneStart (-(s.closeDistance st : Int))) = true ↔
      0 ≤ dist (moved (moved e.face e.zoneStartOff)
        (-(((s.wpu.v8p * (s.block st).throwOn + 7) / 8 : Nat) : Int))) s.web := by
    rw [atOrBeyond, decide_eq_true_eq, State.closeDistance, State.planned_eq, StationEntry.zoneStart]
  have hmatch : s.closePointReached st = true ↔ ∃ r e, s.nextStrike st = some r ∧ r.stations.get st = some e ∧
      atOrBeyond s.web (moved e.zoneStart (-(s.closeDistance st : Int))) = true := by
    unfold State.closePointReached
    cases hn : s.nextStrike st with
    | none => simp
    | some r => cases he : r.stations.get st <;> simp [he]
  rw [hmatch]
  constructor
  · rintro ⟨r, e, hnext, he, hclose⟩
    obtain ⟨front, back, htrack, hfront, hlive⟩ := State.nextStrike_eq_some_iff.1 hnext
    obtain ⟨f, hf, hstruck, hend⟩ := RowCtx.liveStrike_iff.1 hlive
    obtain rfl : e = f := Option.some.inj (he.symm.trans hf)
    exact ⟨front, r, back, e, htrack, fun q hq => RowCtx.liveStrike_eq_false_iff.1 (hfront q hq), he, hstruck, hend,
      (hreached e).1 hclose⟩
  · rintro ⟨front, r, back, e, htrack, hfront, he, hstruck, hend, hclose⟩
    exact ⟨r, e, State.nextStrike_eq_some_iff.2 ⟨front, back, htrack,
      fun q hq => RowCtx.liveStrike_eq_false_iff.2 (hfront q hq), RowCtx.liveStrike_iff.2 ⟨e, he, hstruck, hend⟩⟩, he,
      (hreached e).2 hclose⟩

theorem exec_throwTravelComplete_closing (htimer : (s.station st).timer = 0) (hthrow : (s.station st).throw = .closing) :
    exec (.throwTravelComplete st) s = .next (s.setStation st { s.station st with throw := .on }) := by
  change execThrowTravelComplete st s = _
  rw [execThrowTravelComplete, if_pos (by simp [State.travelDone, htimer, hthrow]), State.completeTravel, hthrow]

theorem exec_throwTravelComplete_opening (htimer : (s.station st).timer = 0) (hthrow : (s.station st).throw = .opening) :
    exec (.throwTravelComplete st) s = .next ((s.setStation st { s.station st with throw := .off }).closeTest st) := by
  change execThrowTravelComplete st s = _
  rw [execThrowTravelComplete, if_pos (by simp [State.travelDone, htimer, hthrow]), State.completeTravel, hthrow]

theorem exec_throwTravelComplete_stays
    (h : (s.station st).timer ≠ 0 ∨ (s.station st).throw = .off ∨ (s.station st).throw = .on) :
    exec (.throwTravelComplete st) s = .next s := by
  change execThrowTravelComplete st s = _
  refine if_neg ?_
  rw [State.travelDone, Bool.and_eq_true, beq_iff_eq, Bool.or_eq_true, beq_iff_eq, beq_iff_eq]
  rintro ⟨htimer, hthrow⟩
  rcases h with h | h | h
  · exact h htimer
  · simp [h] at hthrow
  · simp [h] at hthrow

end

/-- Settles O37: the travel that has run out by the throw's state, and the close condition at a throw that comes to OFF. -/
theorem throwTravelCompletes : Obligations.ThrowTravelCompletes := by
  intro s st x closes
  have hoff : (s.setStation st { x with throw := .off }).station st = { x with throw := .off } := State.setStation_station _
  have hdue : (s.setStation st { x with throw := .off }).closeDue st = true ↔ closes := by
    rw [State.closeDue_iff, hoff, State.closePointReached_iff]
    exact ⟨fun ⟨hstate, hrun, _, hpoint⟩ => ⟨hstate, hrun, hpoint⟩,
      fun ⟨hstate, hrun, hpoint⟩ => ⟨hstate, hrun, rfl, hpoint⟩⟩
  refine ⟨exec_throwTravelComplete_closing, fun htimer hthrow hcloses => ?_, fun htimer hthrow hno => ?_,
    exec_throwTravelComplete_stays⟩
  all_goals rw [exec_throwTravelComplete_opening htimer hthrow]
  · refine congrArg _ ((if_pos (hdue.2 hcloses)).trans ?_)
    rw [State.setStation_setStation, hoff]
    rfl
  · exact congrArg _ (if_neg (mt hdue.1 hno))

end Sys2Proof.Machine
end

section
/-! The feasibility of a skip and the clearance of a splice, in distances (R83, R84). -/

namespace Sys2Proof.Machine

section
variable {s : State} {st : Fin 4} {front back : List RowCtx} {r : RowCtx} {e : StationEntry}

/-- A row of a track whose numbers differ stands there by its number. -/
theorem State.rowAt_of_distinct (h : s.track = front ++ r :: back)
    (hd : ∀ i j : Nat, i < j → j < s.track.length → (s.track.map RowCtx.row)[i]? ≠ (s.track.map RowCtx.row)[j]?) :
    s.rowAt front back r := by
  have hpair : s.apart := by
    refine List.pairwise_iff_getElem.2 fun i j hi hj hij hsame => hd i j hij hj ?_
    simp [hi, hj, hsame]
  refine ⟨h, fun q hq hrow => ?_⟩
  rw [State.apart, h, List.pairwise_append, List.pairwise_cons] at hpair
  obtain ⟨-, ⟨hback, -⟩, hfront⟩ := hpair
  rcases List.mem_append.1 hq with hq | hq
  · exact hfront q hq r (List.mem_cons_self ..) hrow
  · exact hback q hq hrow.symm

theorem RowCtx.struckAt_eq_false_iff :
    r.struckAt st = false ↔ ∀ x, r.stations.get st = some x → x.struck = false := by
  unfold RowCtx.struckAt
  cases r.stations.get st <;> simp

/-- There is room for the travel between two rows with entries at the station (R83). -/
theorem State.roomBetween_iff (a b : Option RowCtx) :
    s.roomBetween st a b = true ↔ ∃ p q x y, a = some p ∧ b = some q ∧ p.stations.get st = some x ∧
      q.stations.get st = some y ∧ (s.travelDistance st : Int) ≤ dist x.zoneEnd y.zoneStart := by
  unfold State.roomBetween
  cases a with
  | none => simp
  | some p =>
    cases b with
    | none => simp
    | some q => cases hx : p.stations.get st <;> cases hy : q.stations.get st <;> simp [hx, hy]

/-- When a skip is feasible, by the rows beside it (R83). -/
theorem State.skipFeasible_iff (n : Word) :
    s.skipFeasible st n = true ↔
      (∀ p x, s.before? n = some p → p.stations.get st = some x → x.struck = false) ∨
        (∃ q, s.after? n = some q ∧ (q.verdict = .skip ∨ q.verdict = .splice)) ∨
        s.roomBetween st (s.before? n) (s.after? n) = true := by
  unfold State.skipFeasible
  dsimp only
  rw [Bool.or_eq_true, Bool.or_eq_true, or_assoc]
  refine or_congr ?_ (or_congr_left ?_)
  · cases s.before? n with
    | none => simp
    | some p =>
      rw [Bool.not_eq_true', RowCtx.struckAt_eq_false_iff]
      exact ⟨fun h q x hq => Option.some.inj hq ▸ h x, fun h x => h p x rfl⟩
  · cases s.after? n with
    | none => simp
    | some q => simp

/-- When a STAMP row clears its neighbours (R84). -/
theorem State.clearsSplices_iff (before next : Option RowCtx) :
    s.clearsSplices st e before next = true ↔
      (∀ q, next = some q → q.verdict = .splice → s.clearsBefore st e q = true) ∧
        ∀ p, before = some p → p.verdict = .splice → s.clearsAfter st e p = true := by
  have hside (o : Option RowCtx) (c : RowCtx → Bool) :
      (match o with
        | some q => q.verdict != .splice || c q
        | none => true) = true ↔ ∀ q, o = some q → q.verdict = .splice → c q = true := by
    cases o with
    | none => simp
    | some q =>
      simp only [Bool.or_eq_true, bne_iff_ne, Option.some.injEq, forall_eq']
      exact or_iff_not_imp_left.trans (by rw [not_not])
  unfold State.clearsSplices
  rw [Bool.and_eq_true]
  exact and_congr (hside next (s.clearsBefore st e)) (hside before (s.clearsAfter st e))

theorem State.clearsBefore_iff (q : RowCtx) :
    s.clearsBefore st e q = true ↔ 0 ≤ dist e.zoneEnd
      (moved (moved (moved q.lead (s.block st).distance) (-((s.block st).guard : Int)))
        (-(((s.wpu.v8p * (s.block st).throwOff + 7) / 8 : Nat) : Int))) := by
  rw [State.clearsBefore, atOrBeyond, decide_eq_true_eq, State.openDistance, State.planned_eq, State.spanStart, State.arrival]

theorem State.clearsAfter_iff (p : RowCtx) :
    s.clearsAfter st e p = true ↔ 0 ≤ dist
      (moved (moved (moved p.lead (s.block st).distance) ((s.pitch st : Int) + (s.block st).guard))
        ((s.wpu.v8p * (s.block st).throwOn + 7) / 8 : Nat)) e.zoneStart := by
  rw [State.clearsAfter, atOrBeyond, decide_eq_true_eq, State.closeDistance, State.planned_eq, State.spanEnd, State.arrival]

/-- The row before one on the track, or the row just retired before the head (R84). -/
theorem State.rowAt.previous? (h : s.rowAt front back r) :
    (front ≠ [] → s.previous? r.row = front.getLast?) ∧
      (front = [] → ∀ p, s.previous? r.row = some p ↔ s.lastRetired = some p ∧ r.row = rowSucc p.row) := by
  rw [State.previous?, h.before?]
  constructor
  · intro hfront
    rw [List.getLast?_eq_some_getLast hfront]
  · rintro rfl p
    cases s.lastRetired with
    | none => simp
    | some x =>
      simp only [List.getLast?_nil, Option.some.injEq]
      split
      · rename_i hrow
        simp only [Option.some.injEq]
        exact ⟨fun hx => ⟨hx, hx ▸ hrow.symm⟩, fun hx => hx.1⟩
      · rename_i hrow
        simp only [reduceCtorEq, false_iff]
        rintro ⟨rfl, hx⟩
        exact hrow hx.symm

end

/-- Settles O36: the rows beside a row of the track, and the tests of R83 and R84 in distances. -/
theorem skipAndSpliceDistances : Obligations.SkipAndSpliceDistances := by
  intro s st front back r e htrack hdistinct _ b ticks
  have hat := State.rowAt_of_distinct htrack hdistinct
  refine ⟨?_, fun before next => ?_, hat.after?, hat.previous?.1, hat.previous?.2⟩
  · rw [State.skipFeasible_iff, hat.before?, hat.after?, State.roomBetween_iff]
    exact Iff.rfl
  · simp only [State.clearsSplices_iff, State.clearsBefore_iff, State.clearsAfter_iff]
    exact Iff.rfl

end Sys2Proof.Machine
end

section
/-! The strokes that a channel forms for a row from the spans of its images (R106). -/

namespace Sys2Proof.Machine

/-- Where the span of an image begins: its start less the lead (R106). -/
def Image.spanFirst (p : FoilParams) (i : Image) : Int := (i.start : Int) - p.lead

/-- Where the span of an image ends: its end and the trail (R106). -/
def Image.spanLast (p : FoilParams) (i : Image) : Int := (i.start : Int) + i.len + p.trail

/-- The span of the image lies in the stroke. -/
def Stroke.spans (p : FoilParams) (k : Stroke) (i : Image) : Prop := k.startOff ≤ i.spanFirst p ∧ i.spanLast p ≤ k.endOff

/-- The stroke `k` of row `n` is made of spans of the images: it counts those that lie in it, begins and ends with one,
and no offset of it is outside them all (R106). -/
structure Stroke.madeOf (p : FoilParams) (n : Word) (images : List Image) (k : Stroke) : Prop where
  row : k.row = n
  count : k.images = images.countP fun i => decide (k.startOff ≤ i.spanFirst p ∧ i.spanLast p ≤ k.endOff)
  begins : ∃ i ∈ images, i.spanFirst p = k.startOff
  ends : ∃ i ∈ images, i.spanLast p = k.endOff
  filled : ∀ x, k.startOff ≤ x → x ≤ k.endOff → ∃ i ∈ images, i.spanFirst p ≤ x ∧ x ≤ i.spanLast p

/-- The stroke of one image (R106). -/
def Image.stroke (p : FoilParams) (n : Word) (i : Image) : Stroke :=
  { row := n, startOff := i.spanFirst p, endOff := i.spanLast p, images := 1 }

/-- The stroke of one image joined with the stroke after it (R106). -/
def Image.join (p : FoilParams) (n : Word) (i : Image) (y : Stroke) : Stroke :=
  { row := n, startOff := i.spanFirst p, endOff := max (i.spanLast p) y.endOff, images := y.images + 1 }

section
variable {p : FoilParams} {n : Word} {i : Image} {images : List Image} {k y : Stroke} {ks : List Stroke}

theorem Image.spanFirst_le_spanLast (p : FoilParams) (i : Image) : i.spanFirst p ≤ i.spanLast p := by
  unfold Image.spanFirst Image.spanLast
  omega

/-- Images that do not overlap have their spans in order. -/
theorem Image.spans_ordered {j : Image} (h : i.start + i.len ≤ j.start) :
    i.spanFirst p ≤ j.spanFirst p ∧ i.spanLast p ≤ j.spanLast p := by
  unfold Image.spanFirst Image.spanLast
  omega

theorem joinSpans_cons (n : Word) (p : FoilParams) (i : Image) (images : List Image) :
    joinSpans n p (i :: images) =
      match joinSpans n p images with
      | y :: ys => if y.startOff ≤ i.spanLast p then i.join p n y :: ys else i.stroke p n :: y :: ys
      | [] => [i.stroke p n] := rfl

/-- The first stroke begins with the span of the first image, which lies in it. -/
theorem joinSpans_head (n : Word) (p : FoilParams) (i : Image) (images : List Image) :
    ∃ k ks, joinSpans n p (i :: images) = k :: ks ∧ k.startOff = i.spanFirst p ∧ i.spanLast p ≤ k.endOff := by
  rw [joinSpans_cons]
  split
  · split
    · exact ⟨_, _, rfl, rfl, le_max_left _ _⟩
    · exact ⟨_, _, rfl, rfl, le_rfl⟩
  · exact ⟨_, _, rfl, rfl, le_rfl⟩

/-! ## One stroke and an image before it -/

theorem Stroke.madeOf.later (h : k.madeOf p n images) (hi : i.spanFirst p < k.startOff) : k.madeOf p n (i :: images) := by
  obtain ⟨b, hb, hbegin⟩ := h.begins
  obtain ⟨c, hc, hend⟩ := h.ends
  refine ⟨h.row, ?_, ⟨b, List.mem_cons_of_mem _ hb, hbegin⟩, ⟨c, List.mem_cons_of_mem _ hc, hend⟩, fun x hlo hhi => ?_⟩
  · rw [List.countP_cons_of_neg (by simp only [decide_eq_true_eq]; omega), h.count]
  · obtain ⟨j, hj, hx⟩ := h.filled x hlo hhi
    exact ⟨j, List.mem_cons_of_mem _ hj, hx⟩

/-- An image whose span ends before the others begin makes a stroke of its own. -/
theorem Image.stroke_madeOf (h : ∀ j ∈ images, i.spanLast p < j.spanFirst p) : (i.stroke p n).madeOf p n (i :: images) := by
  have hnone : images.countP (fun j => decide (i.spanFirst p ≤ j.spanFirst p ∧ j.spanLast p ≤ i.spanLast p)) = 0 := by
    refine List.countP_eq_zero.2 fun j hj => ?_
    have hlater := h j hj
    have hspan := j.spanFirst_le_spanLast p
    simp only [decide_eq_true_eq]
    omega
  refine ⟨rfl, ?_, ⟨i, List.mem_cons_self .., rfl⟩, ⟨i, List.mem_cons_self .., rfl⟩,
    fun x hlo hhi => ⟨i, List.mem_cons_self .., hlo, hhi⟩⟩
  rw [List.countP_cons_of_pos (by simp [Image.stroke])]
  exact congrArg (· + 1) hnone.symm

/-- An image whose span meets the stroke after it makes one stroke with it. -/
theorem Stroke.madeOf.join (h : y.madeOf p n images) (hmeet : y.startOff ≤ i.spanLast p) (hend : i.spanLast p ≤ y.endOff)
    (hfirst : i.spanFirst p ≤ y.startOff) (hlater : ∀ j ∈ images, y.startOff ≤ j.spanFirst p) :
    (i.join p n y).madeOf p n (i :: images) := by
  have hmax : max (i.spanLast p) y.endOff = y.endOff := max_eq_right hend
  obtain ⟨c, hc, hlast⟩ := h.ends
  refine ⟨rfl, ?_, ⟨i, List.mem_cons_self .., rfl⟩, ⟨c, List.mem_cons_of_mem _ hc, hlast.trans hmax.symm⟩,
    fun x hlo hhi => ?_⟩
  · rw [List.countP_cons_of_pos (by simp [Image.join]), Image.join, h.count]
    refine congrArg (· + 1) (List.countP_congr fun j hj => ?_)
    have hj := hlater j hj
    simp only [hmax, decide_eq_true_eq]
    exact and_congr_left fun _ => ⟨fun _ => hfirst.trans hj, fun _ => hj⟩
  · by_cases hx : x ≤ i.spanLast p
    · exact ⟨i, List.mem_cons_self .., hlo, hx⟩
    · obtain ⟨j, hj, hspan⟩ := h.filled x (by omega) (hhi.trans hmax.le)
      exact ⟨j, List.mem_cons_of_mem _ hj, hspan⟩

/-! ## The strokes of a list of images -/

/-- The strokes are made of the images' spans, lie apart in order, and each span lies in one (R106). -/
structure joined (p : FoilParams) (n : Word) (images : List Image) (ks : List Stroke) : Prop where
  made : ∀ k ∈ ks, k.madeOf p n images
  apart : ks.Pairwise fun a b => a.endOff < b.startOff
  held : ∀ i ∈ images, ∃ k ∈ ks, k.spans p i

/-- An image before a list of images: it joins their first stroke where its span meets it (R106). -/
theorem joined.cons (h : joined p n images (y :: ks)) (hfirst : i.spanFirst p ≤ y.startOff) (hend : i.spanLast p ≤ y.endOff)
    (hlater : ∀ j ∈ images, y.startOff ≤ j.spanFirst p) :
    joined p n (i :: images) (if y.startOff ≤ i.spanLast p then i.join p n y :: ks else i.stroke p n :: y :: ks) := by
  obtain ⟨hmade, hapart, hheld⟩ := h
  have hspan := i.spanFirst_le_spanLast p
  have hrest (k) (hk : k ∈ ks) : y.endOff < k.startOff := (List.pairwise_cons.1 hapart).1 k hk
  have hafter (k) (hk : k ∈ ks) : k.madeOf p n (i :: images) :=
    (hmade k (List.mem_cons_of_mem _ hk)).later (by have := hrest k hk; omega)
  by_cases hmeet : y.startOff ≤ i.spanLast p
  · rw [if_pos hmeet]
    have hmax : (i.join p n y).endOff = y.endOff := max_eq_right hend
    have hown : (i.join p n y).spans p i := ⟨le_rfl, le_max_left _ _⟩
    refine ⟨List.forall_mem_cons.2 ⟨(hmade y (List.mem_cons_self ..)).join hmeet hend hfirst hlater, hafter⟩,
      List.pairwise_cons.2 ⟨fun k hk => hmax ▸ hrest k hk, (List.pairwise_cons.1 hapart).2⟩,
      List.forall_mem_cons.2 ⟨⟨_, List.mem_cons_self .., hown⟩, fun j hj => ?_⟩⟩
    obtain ⟨k, hk, hlo, hhi⟩ := hheld j hj
    rcases List.mem_cons.1 hk with rfl | hk
    · exact ⟨_, List.mem_cons_self .., hfirst.trans hlo, hhi.trans hmax.ge⟩
    · exact ⟨k, List.mem_cons_of_mem _ hk, hlo, hhi⟩
  · rw [if_neg hmeet]
    have hown : (i.stroke p n).spans p i := ⟨le_rfl, le_rfl⟩
    refine ⟨List.forall_mem_cons.2 ⟨Image.stroke_madeOf fun j hj => ?_, List.forall_mem_cons.2
        ⟨(hmade y (List.mem_cons_self ..)).later (by omega), hafter⟩⟩,
      List.pairwise_cons.2 ⟨List.forall_mem_cons.2 ⟨not_le.1 hmeet, fun k hk => hend.trans_lt (hrest k hk)⟩, hapart⟩,
      List.forall_mem_cons.2 ⟨⟨_, List.mem_cons_self .., hown⟩, fun j hj => ?_⟩⟩
    · have := hlater j hj
      omega
    · obtain ⟨k, hk, hspans⟩ := hheld j hj
      exact ⟨k, List.mem_cons_of_mem _ hk, hspans⟩

/-- Images that follow one another without overlap have their strokes joined from their spans (R106). -/
theorem joined_joinSpans (h : images.Pairwise fun a b => a.start + a.len ≤ b.start) :
    joined p n images (joinSpans n p images) := by
  induction images with
  | nil => exact ⟨by simp [joinSpans], by simp [joinSpans], by simp⟩
  | cons i rest ih =>
    obtain ⟨hbefore, hrest⟩ := List.pairwise_cons.1 h
    cases rest with
    | nil =>
      refine ⟨List.forall_mem_cons.2 ⟨Image.stroke_madeOf (by simp), by simp⟩, List.pairwise_singleton _ _,
        List.forall_mem_cons.2 ⟨⟨_, List.mem_cons_self .., ?_⟩, by simp⟩⟩
      exact ⟨le_rfl, le_rfl⟩
    | cons j rest =>
      obtain ⟨y, ks, hjoin, hstart, hlast⟩ := joinSpans_head n p j rest
      have hjoined := ih hrest
      rw [hjoin] at hjoined
      rw [joinSpans_cons, hjoin]
      obtain ⟨hfirst, hend⟩ := Image.spans_ordered (p := p) (hbefore j (List.mem_cons_self ..))
      refine hjoined.cons (hfirst.trans hstart.ge) (hend.trans hlast) (List.forall_mem_cons.2 ⟨hstart.le, fun m hm => ?_⟩)
      exact hstart.le.trans (Image.spans_ordered ((List.pairwise_cons.1 hrest).1 m hm)).1

theorem joined.strokesFormed (h : joined p n images ks) : strokesFormed p n images ks := by
  refine ⟨fun k hk => ⟨(h.made k hk).row, (h.made k hk).count⟩, fun a b j ha hb => ?_, h.held,
    fun k hk => ⟨(h.made k hk).begins, (h.made k hk).ends, (h.made k hk).filled⟩⟩
  obtain ⟨hj, rfl⟩ := List.getElem?_eq_some_iff.1 ha
  obtain ⟨hj', rfl⟩ := List.getElem?_eq_some_iff.1 hb
  exact List.pairwise_iff_getElem.1 h.apart j (j + 1) hj hj' (Nat.lt_succ_self j)

/-- The strokes a channel forms are those of R106. -/
theorem State.formStrokes_formed {s : State} {c : Fin 8} (n : Word)
    (h : ∀ (a b : Image) (i j : Nat), i < j → (s.chanImages c)[i]? = some a → (s.chanImages c)[j]? = some b →
      a.start + a.len ≤ b.start) : strokesFormed (s.channel c).params n (s.chanImages c) (s.formStrokes c n) :=
  (joined_joinSpans (List.pairwise_iff_getElem.2 fun i j hi hj hij =>
    h _ _ i j hij (List.getElem?_eq_getElem hi) (List.getElem?_eq_getElem hj))).strokesFormed

end

end Sys2Proof.Machine
end

section
/-! The commit event: the row it takes, and the statement (R81, R82). -/

namespace Sys2Proof.Machine

section
variable {s : State} {st : Fin 4} {front back : List RowCtx} {r : RowCtx} {e : StationEntry}

/-- The commit event that is due takes the oldest row not committed (R81). -/
theorem exec_commitEvent_due (h : s.rowAt front back r) (hfront : ∀ q ∈ front, q.committedAt st = true)
    (he : r.stations.get st = some e) (hc : e.committed = false) (hactive : (s.station st).state ≠ .inactive)
    (hdue : e.commitOwed = true ∨ s.commitReached st e ∧ (back ≠ [] ∨ s.jobs.run = .draining)) :
    exec (.commitEvent st) s = .next (s.commit st r) := by
  have hfirst : s.firstUncommitted st = some r := by
    refine h.find? (fun q hq => by simp [hfront q hq]) ?_
    simp [RowCtx.committedAt, he, hc]
  have hafter : (s.after? r.row).isSome = true ↔ back ≠ [] := by
    rw [h.after?]
    cases back <;> simp
  have hcommit : s.commitDue st = some r :=
    State.commitDue_iff.2 ⟨hfirst, bne_iff_ne.2 hactive, e, he, by rwa [hafter]⟩
  change execCommitEvent st s = _
  rw [execCommitEvent, hcommit]

end

/-- Settles O35: the strokes formed are joined spans; the commit that is due takes the row by `State.commit_spec`, and
touches nothing else. -/
theorem commitDecidesTheOutcome : Obligations.CommitDecidesTheOutcome := by
  refine ⟨fun s c n h => s.formStrokes_formed n h, fun s st front back r e htrack hown hfront he hc hactive hdue => ?_⟩
  have hat : s.rowAt front back r := ⟨htrack, hown⟩
  obtain ⟨charges, hrow, hover, hattn, hthrow⟩ := State.commit_spec hat he
  refine ⟨s.commit st r, s.decideOutcome st r e, charges, exec_commitEvent_due hat hfront he hc hactive hdue,
    s.decides_decideOutcome st r e, hrow.1, hover, hattn, hthrow,
    fun k hk => congrArg Prod.fst (State.atStation_commit hk r), ?_⟩
  simp [sameMemory, sameOutside]

end Sys2Proof.Machine
end
